-- ==== Sys2Proof/Word.lean ====
section
/-!
DEFINITION. The widths of the JN8400 (R2, R56, R68, R69) and the sparse tables the state is made of.
-/
namespace Sys2Proof

/-- A scalar register, an address, a CSR (R68). -/
abbrev Word := BitVec 64

/-- The smallest addressable unit (R190). -/
abbrev Byte := BitVec 8

/-- A scalar register number x0-x63 (R68). -/
abbrev Reg := BitVec 6

/-- A vector register number v0-v31 (R69). -/
abbrev VReg := BitVec 5

/-- A table by number, in rising order of its keys; a key that is not listed holds the table's default. -/
abbrev Sparse (α : Type) := List (Nat × α)

end Sys2Proof
end

