-- ==== Sys2Proof/Config.lean ====
section
/-!
DEFINITION. What one package fixes and no program can compute: the secrets of the root of trust, as constants without
a body, so that no statement can rest on their value (log entry 16).
-/
namespace Sys2Proof.Config

/-- The 32-byte serial number of R409 and R410. UNVERIFIED value: opaque (log entry 16). -/
opaque serialNumber : List Byte

/-- The 32 bytes of the serial number. -/
def serialBytes : List Byte := (serialNumber ++ List.replicate 32 0).take 32

/-- R409: the order number JN8400. -/
def orderNumber : List Byte := [0x4A, 0x4E, 0x38, 0x34, 0x30, 0x30]

/-- R411: the enterprise number that the certificate names, in four bytes, the most significant first. Opaque (log entry 16). -/
opaque enterpriseNumber : Vector Byte 4

/-- What the identity certificate of R409 holds around the names that R409 and R411 give. Opaque (log entry 16): the spec gives no
layout. -/
opaque certificatePart : Nat → List Byte

/-- R409, R411: the device identity certificate names the order number, the serial number and the enterprise number. Where they
stand in it is not stated (log entry 16). -/
def certificate : List Byte :=
  certificatePart 0 ++ orderNumber ++ certificatePart 1 ++ serialBytes ++ certificatePart 2 ++ enterpriseNumber.toList
    ++ certificatePart 3

/-- The signature of R410 by the identity key over the first 0x180 bytes of a report. Opaque (log entry 16). -/
opaque signature : List Byte → List Byte

/-- R407: the fuses that hold the SHA-256 of the root public key. Opaque (log entry 16). -/
opaque rootKeyHash : List Byte

/-- R407: the key of stage n of a firmware image chains to the root key of a hash. Opaque (log entry 16). -/
opaque keyChains : List Byte → List Byte → Nat → Bool

/-- R407: the signature of stage n of a firmware image holds. Opaque (log entry 16). -/
opaque signatureHolds : List Byte → Nat → Bool

/-- R407: the security version of stage n of a firmware image. Opaque (log entry 16). -/
opaque stageVersion : List Byte → Nat → Nat

/-- R408: the security version that a firmware image carries. The spec gives no image layout. Opaque (log entry 16). -/
opaque imageVersion : List Byte → Nat

/-- R410: the SHA-256 of each of the eight firmware stages, in boot order, that the running firmware was made of.
Opaque (log entry 16): the spec gives no image layout. -/
opaque stageDigests : List Byte → List Byte

/-- R410: what an SPDM answer holds beside what the rules name (DMTF SPDM 1.2, outside the spec), by request number. Opaque
(log entry 16). -/
opaque spdmBody : Nat → List Byte

/-- A value that the spec leaves open, the n-th one read: the L2 occupancy of R308 and R309, which depends on caches the
spec does not make architectural (log entry 13). No body: nothing can be proved of it. -/
opaque freeValue : Nat → BitVec 64

end Sys2Proof.Config
end

