-- ==== Sys2Proof/Syntax.lean ====
section
/-!
DEFINITION. The instruction type: one constructor for each row of spec/opcode_table.json. A row with an encoding is an
instruction word of R58 and R64; a row without one is a step of another agent, with the operands that name the agent and
what its environment supplies (log entry 2).
-/
namespace Sys2Proof

/-- The access sizes of R57: byte, half, word, double. -/
inductive Size where
  | b | h | w | d
  deriving DecidableEq, Repr

/-- The scopes of R192, in rising order. -/
inductive Scope where
  | core | die | pkg | sys
  deriving DecidableEq, Repr

/-- The AMO types of R59. -/
inductive AmoTy where
  | w | d | s | h
  deriving DecidableEq, Repr

/-- The integer types of R59: W and D. -/
inductive IntSize where
  | w | d
  deriving DecidableEq, Repr

/-- The rounding fields of R65; `dyn` takes FCSR.RM. -/
inductive Rounding where
  | rne | rup | rdn | rtz | rna | dyn
  deriving DecidableEq, Repr

/-- The element widths of vector loads and stores (R62). -/
inductive Elem where
  | b | h | w
  deriving DecidableEq, Repr

/-- The float lane types of R240 and R242. -/
inductive FloatTy where
  | f32 | bf16
  deriving DecidableEq, Repr

/-- The integer lane types of R241. -/
inductive IntTy where
  | i8 | i16 | i32
  deriving DecidableEq, Repr

/-- The lane types of reductions and comparisons (R246, R247). -/
inductive RedTy where
  | f32 | bf16 | i32
  deriving DecidableEq, Repr

/-- The lane widths of the permutations (R248): 32-bit `.w`, 16-bit `.h`. -/
inductive MoveTy where
  | w | h
  deriving DecidableEq, Repr

/-- A host command's ring entry (R392): its host tag and its seven operand slots. -/
structure Cmd where
  htag : BitVec 32
  op0 : Word
  op1 : Word
  op2 : Word
  op3 : Word
  op4 : Word
  op5 : Word
  op6 : Word
  deriving DecidableEq, Repr

/-- R58, R64 and the steps of the other agents. Operand names of the steps: `t` thread 4*core + thread, `c` core
128*die + logical core, `d` die, `p` partition, `w` write in flight, `n` dirty notice or byte count, `r` request,
`k` packet, `l` launch, `q` copy command, `f` frame, `fn` host function. -/
inductive Instr where
  /-- R53 `NOP`: Does nothing; as the second word of a pair it counts as an A-class word. -/
  | nop
  /-- R142 `HALT`: Blocks the thread until its commands, stores, PUTRs, sends and vector operations are done, then halts it. -/
  | halt
  /-- R139 `TRAP`: Raises a precise software trap with TCAUSE 0x8000 plus the 12-bit code. -/
  | trap (code : BitVec 12)
  /-- R138 `ERET`: Returns from a handler to TEPC, restoring the earlier privilege and clearing INH and LH. -/
  | eret
  /-- R139 `BRK`: Raises a precise debug trap with TCAUSE 0x4000. -/
  | brk
  /-- R143 `TYIELD`: Makes round-robin issue pass over the thread until every other READY thread has issued once. -/
  | tyield
  /-- R145 `TSLEEP`: Consumes the wake flag, or blocks until a wake or an optional cycle timeout. -/
  | tsleep (ra : Reg)
  /-- R144 `TWAKE`: Sends a wake to the thread named by rank and hardware thread, resolved through the rank table. -/
  | twake (ra : Reg)
  /-- R146 `SIGCHK`: Compares the block-signature checker with the signature, restarts the checker and raises SIG on a
  mismatch. -/
  | sigchk (sig : BitVec 18)
  /-- R157 `FENCE_CORE`: Blocks until every earlier access of the thread is performed at CORE scope. -/
  | fenceCore
  /-- R157 `FENCE_DIE`: Blocks until every earlier access of the thread is performed at DIE scope. -/
  | fenceDie
  /-- R157 `FENCE_PKG`: Blocks until every earlier access of the thread is performed at PKG scope. -/
  | fencePkg
  /-- R157 `FENCE_SYS`: Blocks until every earlier access of the thread is performed at SYS scope, subject to the scope
  ceiling. -/
  | fenceSys
  /-- R130 `CSRRW`: Reads a CSR into rd and writes x[ra] to it. -/
  | csrrw (rd : Reg) (ra : Reg) (csr : BitVec 12)
  /-- R130 `CSRRS`: Reads a CSR into rd and ORs x[ra] into it when ra is not zero. -/
  | csrrs (rd : Reg) (ra : Reg) (csr : BitVec 12)
  /-- R124 `JAL`: Writes the link value to rd and jumps by a word offset. -/
  | jal (rd : Reg) (off : BitVec 19)
  /-- R124 `JALR`: Writes the link value to rd and jumps to x[ra] plus the immediate. -/
  | jalr (rd : Reg) (ra : Reg) (imm : BitVec 13)
  /-- R123 `BEQ`: Branches when x[ra] equals x[rb]. -/
  | beq (ra : Reg) (rb : Reg) (off : BitVec 13)
  /-- R123 `BNE`: Branches when x[ra] differs from x[rb]. -/
  | bne (ra : Reg) (rb : Reg) (off : BitVec 13)
  /-- R123 `BLT`: Branches when x[ra] is less than x[rb] as signed. -/
  | blt (ra : Reg) (rb : Reg) (off : BitVec 13)
  /-- R123 `BGE`: Branches when x[ra] is greater than or equal to x[rb] as signed. -/
  | bge (ra : Reg) (rb : Reg) (off : BitVec 13)
  /-- R123 `BLTU`: Branches when x[ra] is less than x[rb] as unsigned. -/
  | bltu (ra : Reg) (rb : Reg) (off : BitVec 13)
  /-- R123 `BGEU`: Branches when x[ra] is greater than or equal to x[rb] as unsigned. -/
  | bgeu (ra : Reg) (rb : Reg) (off : BitVec 13)
  /-- R126 `LOOP`: Sets up a hardware loop over the following bundles, pushing an active loop, or skips the body for a zero
  count. -/
  | loop (ra : Reg) (off : BitVec 13)
  /-- R151 `LOAD`: Loads 1, 2, 4 or 8 bytes with sign or zero extension. -/
  | load (rd : Reg) (ra : Reg) (imm : BitVec 9) (sz : Size) (nt : Bool) (z : Bool)
  /-- R152 `STORE`: Translates and appends a store of 1 to 8 bytes, early or global, to the thread's store buffer. -/
  | store (rs : Reg) (ra : Reg) (imm : BitVec 9) (sz : Size) (nt : Bool) (g : Bool)
  /-- R155 `LDA`: Loads with acquire semantics at the named scope. -/
  | lda (rd : Reg) (ra : Reg) (imm : BitVec 7) (sz : Size) (scope : Scope)
  /-- R156 `STL`: Waits for earlier accesses at the scope, then buffers a store as a release. -/
  | stl (rs : Reg) (ra : Reg) (g : Bool) (imm : BitVec 7) (sz : Size) (scope : Scope)
  /-- R159 `AMO_ADD`: Atomically adds to memory, integer or float, returning the old value. -/
  | amoAdd (rd : Reg) (ra : Reg) (rb : Reg) (ty : AmoTy) (g : Bool)
  /-- R159 `AMO_AND`: Atomically ANDs into memory, returning the old value. -/
  | amoAnd (rd : Reg) (ra : Reg) (rb : Reg) (ty : IntSize) (g : Bool)
  /-- R159 `AMO_OR`: Atomically ORs into memory, returning the old value. -/
  | amoOr (rd : Reg) (ra : Reg) (rb : Reg) (ty : IntSize) (g : Bool)
  /-- R159 `AMO_XOR`: Atomically XORs into memory, returning the old value. -/
  | amoXor (rd : Reg) (ra : Reg) (rb : Reg) (ty : IntSize) (g : Bool)
  /-- R159 `AMO_MIN`: Atomically stores the signed minimum, returning the old value. -/
  | amoMin (rd : Reg) (ra : Reg) (rb : Reg) (ty : IntSize) (g : Bool)
  /-- R159 `AMO_MAX`: Atomically stores the signed maximum, returning the old value. -/
  | amoMax (rd : Reg) (ra : Reg) (rb : Reg) (ty : IntSize) (g : Bool)
  /-- R159 `AMO_MINU`: Atomically stores the unsigned minimum, returning the old value. -/
  | amoMinu (rd : Reg) (ra : Reg) (rb : Reg) (ty : IntSize) (g : Bool)
  /-- R159 `AMO_MAXU`: Atomically stores the unsigned maximum, returning the old value. -/
  | amoMaxu (rd : Reg) (ra : Reg) (rb : Reg) (ty : IntSize) (g : Bool)
  /-- R159 `AMO_SWAP`: Atomically swaps a value with memory. -/
  | amoSwap (rd : Reg) (ra : Reg) (rb : Reg) (ty : IntSize) (g : Bool)
  /-- R159 `AMO_CAS`: Atomically compares memory with rd and stores rb on a match, returning the old value. -/
  | amoCas (rd : Reg) (ra : Reg) (rb : Reg) (ty : IntSize) (g : Bool)
  /-- R163 `GETR`: Reads a word or double from any reachable space into rd. -/
  | getr (rd : Reg) (ra : Reg) (ty : IntSize)
  /-- R164 `PUTR`: Hands a word or double write to the NI, early or global, and continues. -/
  | putr (ra : Reg) (rb : Reg) (ty : IntSize) (g : Bool)
  /-- R165 `GET`: Checks the ranges, takes a ticket and hands a remote-to-local copy to a copy engine. -/
  | get (rd : Reg) (ra : Reg) (rb : Reg)
  /-- R165 `PUT`: Checks the ranges, takes a ticket and hands a local-to-remote copy to a copy engine. -/
  | put (rd : Reg) (ra : Reg) (rb : Reg) (g : Bool)
  /-- R170 `CPOP`: Pops the oldest completion into the scratchpad and returns its ticket, or all ones if empty. -/
  | cpop (rd : Reg) (ra : Reg)
  /-- R170 `CWAIT`: Blocks while an entry is reserved and none is held in the completion FIFO. -/
  | cwait
  /-- R171 `SEND`: Obtains a credit and sends a payload of 1 to 56 bytes to a rank and channel as a release. -/
  | send (rs : Reg) (ra : Reg) (ch : BitVec 5)
  /-- R172 `RECV`: Blocks until the channel holds a message, then copies the entry and returns its header. -/
  | recv (rd : Reg) (ra : Reg) (ch : BitVec 5)
  /-- R172 `RPOLL`: Takes a message if one is present, otherwise returns 0 without blocking. -/
  | rpoll (rd : Reg) (ra : Reg) (ch : BitVec 5)
  /-- R174 `BAR`: Arrives at a barrier domain after a release and blocks until the generation completes. -/
  | bar (dom : BitVec 4)
  /-- R174 `STEP`: Arrives at the launch's step domain and blocks until the generation completes. -/
  | step (dom : BitVec 4)
  /-- R176 `BDOM`: Reads a barrier domain's state, or installs a membership image from the scratchpad. -/
  | bdom (rd : Reg) (ra : Reg) (dom : BitVec 4)
  /-- R178 `WEIR_CADD`: Adds to a Weir counter and returns the old value. -/
  | weirCadd (rd : Reg) (ra : Reg) (rb : Reg)
  /-- R178 `WEIR_CREAD`: Reads a Weir counter. -/
  | weirCread (rd : Reg) (ra : Reg)
  /-- R178 `WEIR_CSWAP`: Compares and swaps a Weir counter. -/
  | weirCswap (rd : Reg) (ra : Reg) (rb : Reg)
  /-- R179 `WEIR_SWAIT`: Decrements a Weir semaphore or blocks in its queue. -/
  | weirSwait (ra : Reg)
  /-- R179 `WEIR_SPOST`: Grants a unit to the longest waiter or increments the Weir semaphore. -/
  | weirSpost (ra : Reg)
  /-- R179 `WEIR_STRY`: Decrements a Weir semaphore if above 0 and reports whether it did. -/
  | weirStry (rd : Reg) (ra : Reg)
  /-- R182 `FCFG`: Configures a flume from a 16-byte record and empties it. -/
  | fcfg (ra : Reg) (fl : BitVec 4)
  /-- R183 `FWAITF`: Blocks until the flume holds at least n filled slots. -/
  | fwaitf (ra : Reg) (fl : BitVec 4)
  /-- R183 `FWAITE`: Blocks until the flume has at least n free slots. -/
  | fwaite (ra : Reg) (fl : BitVec 4)
  /-- R184 `FPROD`: Releases earlier stores and produces n slots at the flume's tail. -/
  | fprod (ra : Reg) (fl : BitVec 4)
  /-- R184 `FCONS`: Consumes n slots at the flume's head. -/
  | fcons (ra : Reg) (fl : BitVec 4)
  /-- R185 `FRD`: Reads a flume's configured bit, k, filled count, tail and head. -/
  | frd (rd : Reg) (fl : BitVec 4)
  /-- R272 `RSV`: Requests n reservoir units and is granted all or none without waiting. -/
  | rsv (rd : Reg) (ra : Reg)
  /-- R272 `RSV_W`: Requests n units, waiting in the sluice queue until all can be granted. -/
  | rsvW (rd : Reg) (ra : Reg)
  /-- R272 `RSV_P`: Requests up to n units and is granted what is available without waiting. -/
  | rsvP (rd : Reg) (ra : Reg)
  /-- R272 `RSV_W_P`: Requests up to n units, waiting until a partial grant is possible. -/
  | rsvWP (rd : Reg) (ra : Reg)
  /-- R275 `SPND`: Declares a spend of n units from the reservation into the partition and package fill. -/
  | spnd (ra : Reg)
  /-- R276 `RREL`: Releases the whole reservation, clears the request and the counters, and returns the units released. -/
  | rrel (rd : Reg)
  /-- R277 `RFILL`: Reads the floor of the partition fill. -/
  | rfill (rd : Reg)
  /-- R277 `RWAIT`: Blocks until the partition fill drops to or below x[ra]. -/
  | rwait (ra : Reg)
  /-- R278 `SPRINT`: Sets the thread's requested clock level and recomputes the core's level. -/
  | sprint (level : BitVec 2)
  /-- R367 `SPORE`: Releases at PKG and sends a spore descriptor to the coordinating Weir, returning the epoch or a refusal
  code. -/
  | spore (rd : Reg) (ra : Reg)
  /-- R296 `LARM`: Checks a launch record and arms it into the partition launch queue, returning a status. -/
  | larm (rd : Reg) (ra : Reg)
  /-- R295 `LPATCH_PRIO`: Patches the priority of an unarmed launch record. -/
  | lpatchPrio (rd : Reg) (ra : Reg) (rb : Reg)
  /-- R295 `LPATCH_ARG`: Patches the argument pointer of an unarmed launch record. -/
  | lpatchArg (rd : Reg) (ra : Reg) (rb : Reg)
  /-- R295 `LPATCH_COUNT`: Patches the index count of an unarmed launch record. -/
  | lpatchCount (rd : Reg) (ra : Reg) (rb : Reg)
  /-- R295 `LPATCH_DONE`: Patches the completion address of an unarmed launch record. -/
  | lpatchDone (rd : Reg) (ra : Reg) (rb : Reg)
  /-- R235 `VLD`: Enqueues a contiguous vector load from the scratchpad. -/
  | vld (vd : VReg) (ra : Reg) (rb : Reg) (e : Elem)
  /-- R235 `VLDS`: Enqueues a strided vector load from the scratchpad. -/
  | vlds (vd : VReg) (ra : Reg) (rb : Reg) (e : Elem)
  /-- R235 `VLDF`: Enqueues a vector load from a flume's head slot. -/
  | vldf (vd : VReg) (ra : Reg) (rb : Reg) (e : Elem)
  /-- R235 `VST`: Enqueues a contiguous vector store to the scratchpad. -/
  | vst (vd : VReg) (ra : Reg) (rb : Reg) (e : Elem)
  /-- R235 `VSTS`: Enqueues a strided vector store to the scratchpad. -/
  | vsts (vd : VReg) (ra : Reg) (rb : Reg) (e : Elem)
  /-- R235 `VSTF`: Enqueues a vector store into a flume's tail slot. -/
  | vstf (vd : VReg) (ra : Reg) (rb : Reg) (e : Elem)
  /-- R227 `VSETL`: Sets the vector length to min(x[ra], 32) and returns it. -/
  | vsetl (rd : Reg) (ra : Reg)
  /-- R228 `VLOOP`: Enqueues a loop entry that replays the thread's last k vector entries n times. -/
  | vloop (ra : Reg) (k : BitVec 6)
  /-- R232 `SBIND`: Binds v28 to v31 to a flume as a stream register with a bound. -/
  | sbind (v : BitVec 2) (ra : Reg) (fl : BitVec 4)
  /-- R233 `SUNBIND`: Closes a stream, popping or producing partial slots, and unbinds the register. -/
  | sunbind (v : BitVec 2)
  /-- R229 `VMOVX_XV`: Waits for earlier writers and copies one vector lane into a scalar register. -/
  | vmovxXv (rd : Reg) (ra : Reg) (vb : VReg)
  /-- R230 `VMOVX_VX`: Enqueues a write of a scalar value into one vector lane. -/
  | vmovxVx (vd : VReg) (ra : Reg) (rb : Reg)
  /-- R112 `ADD`: Adds two registers modulo 2^64. -/
  | add (rd : Reg) (ra : Reg) (rb : Reg)
  /-- R112 `SUB`: Subtracts two registers modulo 2^64. -/
  | sub (rd : Reg) (ra : Reg) (rb : Reg)
  /-- R112 `AND`: Bitwise AND of two registers. -/
  | and (rd : Reg) (ra : Reg) (rb : Reg)
  /-- R112 `OR`: Bitwise OR of two registers. -/
  | or (rd : Reg) (ra : Reg) (rb : Reg)
  /-- R112 `XOR`: Bitwise XOR of two registers. -/
  | xor (rd : Reg) (ra : Reg) (rb : Reg)
  /-- R112 `SLL`: Shifts left by x[rb] bits 5:0. -/
  | sll (rd : Reg) (ra : Reg) (rb : Reg)
  /-- R112 `SRL`: Shifts right logically by x[rb] bits 5:0. -/
  | srl (rd : Reg) (ra : Reg) (rb : Reg)
  /-- R112 `SRA`: Shifts right arithmetically by x[rb] bits 5:0. -/
  | sra (rd : Reg) (ra : Reg) (rb : Reg)
  /-- R112 `SLT`: Sets 1 if x[ra] is less than x[rb] as signed. -/
  | slt (rd : Reg) (ra : Reg) (rb : Reg)
  /-- R112 `SLTU`: Sets 1 if x[ra] is less than x[rb] as unsigned. -/
  | sltu (rd : Reg) (ra : Reg) (rb : Reg)
  /-- R112 `MIN`: Signed minimum. -/
  | min (rd : Reg) (ra : Reg) (rb : Reg)
  /-- R112 `MAX`: Signed maximum. -/
  | max (rd : Reg) (ra : Reg) (rb : Reg)
  /-- R112 `MINU`: Unsigned minimum. -/
  | minu (rd : Reg) (ra : Reg) (rb : Reg)
  /-- R112 `MAXU`: Unsigned maximum. -/
  | maxu (rd : Reg) (ra : Reg) (rb : Reg)
  /-- R112 `MUL`: Low 64 bits of the product. -/
  | mul (rd : Reg) (ra : Reg) (rb : Reg)
  /-- R112 `MULHI_SS`: High 64 bits of the signed by signed product. -/
  | mulhiSs (rd : Reg) (ra : Reg) (rb : Reg)
  /-- R112 `MULHI_UU`: High 64 bits of the unsigned by unsigned product. -/
  | mulhiUu (rd : Reg) (ra : Reg) (rb : Reg)
  /-- R112 `MULHI_SU`: High 64 bits of the signed by unsigned product. -/
  | mulhiSu (rd : Reg) (ra : Reg) (rb : Reg)
  /-- R114 `DIV`: Signed quotient truncated toward zero, saturating in the special cases. -/
  | div (rd : Reg) (ra : Reg) (rb : Reg)
  /-- R114 `DIVU`: Unsigned quotient, with all ones for a nonzero dividend over zero. -/
  | divu (rd : Reg) (ra : Reg) (rb : Reg)
  /-- R114 `REM`: Signed remainder with the sign of the dividend. -/
  | rem (rd : Reg) (ra : Reg) (rb : Reg)
  /-- R114 `REMU`: Unsigned remainder. -/
  | remu (rd : Reg) (ra : Reg) (rb : Reg)
  /-- R113 `ADDW`: 32-bit add, sign-extended. -/
  | addw (rd : Reg) (ra : Reg) (rb : Reg)
  /-- R113 `SUBW`: 32-bit subtract, sign-extended. -/
  | subw (rd : Reg) (ra : Reg) (rb : Reg)
  /-- R113 `SLLW`: 32-bit left shift, sign-extended. -/
  | sllw (rd : Reg) (ra : Reg) (rb : Reg)
  /-- R113 `SRLW`: 32-bit logical right shift, sign-extended. -/
  | srlw (rd : Reg) (ra : Reg) (rb : Reg)
  /-- R113 `SRAW`: 32-bit arithmetic right shift, sign-extended. -/
  | sraw (rd : Reg) (ra : Reg) (rb : Reg)
  /-- R113 `MULW`: Low 32 bits of the product, sign-extended. -/
  | mulw (rd : Reg) (ra : Reg) (rb : Reg)
  /-- R114 `DIVW`: Signed 32-bit quotient, sign-extended. -/
  | divw (rd : Reg) (ra : Reg) (rb : Reg)
  /-- R114 `DIVUW`: Unsigned 32-bit quotient, sign-extended. -/
  | divuw (rd : Reg) (ra : Reg) (rb : Reg)
  /-- R114 `REMW`: Signed 32-bit remainder, sign-extended. -/
  | remw (rd : Reg) (ra : Reg) (rb : Reg)
  /-- R114 `REMUW`: Unsigned 32-bit remainder, sign-extended. -/
  | remuw (rd : Reg) (ra : Reg) (rb : Reg)
  /-- R115 `ADDI`: Adds a sign-extended immediate. -/
  | addi (rd : Reg) (ra : Reg) (imm : BitVec 13)
  /-- R115 `ANDI`: ANDs with a sign-extended immediate. -/
  | andi (rd : Reg) (ra : Reg) (imm : BitVec 13)
  /-- R115 `ORI`: ORs with a sign-extended immediate. -/
  | ori (rd : Reg) (ra : Reg) (imm : BitVec 13)
  /-- R115 `XORI`: XORs with a sign-extended immediate. -/
  | xori (rd : Reg) (ra : Reg) (imm : BitVec 13)
  /-- R115 `SLTI`: Signed compare with an immediate. -/
  | slti (rd : Reg) (ra : Reg) (imm : BitVec 13)
  /-- R115 `SLTIU`: Unsigned compare with a sign-extended immediate. -/
  | sltiu (rd : Reg) (ra : Reg) (imm : BitVec 13)
  /-- R116 `SLLI`: Shifts left by an immediate 0 to 63. -/
  | slli (rd : Reg) (ra : Reg) (sh : BitVec 6)
  /-- R116 `SRLI`: Shifts right logically by an immediate. -/
  | srli (rd : Reg) (ra : Reg) (sh : BitVec 6)
  /-- R116 `SRAI`: Shifts right arithmetically by an immediate. -/
  | srai (rd : Reg) (ra : Reg) (sh : BitVec 6)
  /-- R116 `SLLIW`: 32-bit left shift by an immediate 0 to 31. -/
  | slliw (rd : Reg) (ra : Reg) (sh : BitVec 5)
  /-- R116 `SRLIW`: 32-bit logical right shift by an immediate. -/
  | srliw (rd : Reg) (ra : Reg) (sh : BitVec 5)
  /-- R116 `SRAIW`: 32-bit arithmetic right shift by an immediate. -/
  | sraiw (rd : Reg) (ra : Reg) (sh : BitVec 5)
  /-- R117 `LUI`: Loads sext(imm19) times 2^13. -/
  | lui (rd : Reg) (imm : BitVec 19)
  /-- R117 `AUIPC`: Adds sext(imm19) times 2^13 to the bundle address. -/
  | auipc (rd : Reg) (imm : BitVec 19)
  /-- R118 `CLZ`: Counts leading zero bits. -/
  | clz (rd : Reg) (ra : Reg)
  /-- R118 `CTZ`: Counts trailing zero bits. -/
  | ctz (rd : Reg) (ra : Reg)
  /-- R118 `POPC`: Counts one bits. -/
  | popc (rd : Reg) (ra : Reg)
  /-- R118 `BEXT`: Extracts a bit field at a position and width. -/
  | bext (rd : Reg) (ra : Reg) (rb : Reg)
  /-- R118 `BINS`: Inserts a bit field into rd. -/
  | bins (rd : Reg) (ra : Reg) (rb : Reg)
  /-- R118 `SEXT`: Sign-extends from bit b. -/
  | sext (rd : Reg) (ra : Reg) (rb : Reg)
  /-- R118 `ZEXT`: Zero-extends above bit b. -/
  | zext (rd : Reg) (ra : Reg) (rb : Reg)
  /-- R118 `LEA`: Adds x[rb] to x[ra]. -/
  | lea (rd : Reg) (ra : Reg) (rb : Reg)
  /-- R118 `LEA_2`: Adds 2 times x[rb] to x[ra]. -/
  | lea2 (rd : Reg) (ra : Reg) (rb : Reg)
  /-- R118 `LEA_4`: Adds 4 times x[rb] to x[ra]. -/
  | lea4 (rd : Reg) (ra : Reg) (rb : Reg)
  /-- R118 `LEA_8`: Adds 8 times x[rb] to x[ra]. -/
  | lea8 (rd : Reg) (ra : Reg) (rb : Reg)
  /-- R120 `FADD`: FP32 add, rounded by the rounding field. -/
  | fadd (rd : Reg) (ra : Reg) (rb : Reg) (rm : Rounding)
  /-- R120 `FSUB`: FP32 subtract. -/
  | fsub (rd : Reg) (ra : Reg) (rb : Reg) (rm : Rounding)
  /-- R120 `FMUL`: FP32 multiply. -/
  | fmul (rd : Reg) (ra : Reg) (rb : Reg) (rm : Rounding)
  /-- R120 `FDIV`: FP32 divide. -/
  | fdiv (rd : Reg) (ra : Reg) (rb : Reg) (rm : Rounding)
  /-- R120 `FSQRT`: FP32 square root. -/
  | fsqrt (rd : Reg) (ra : Reg) (rm : Rounding)
  /-- R120 `FMIN`: FP32 minimum with −0 below +0. -/
  | fmin (rd : Reg) (ra : Reg) (rb : Reg)
  /-- R120 `FMAX`: FP32 maximum with −0 below +0. -/
  | fmax (rd : Reg) (ra : Reg) (rb : Reg)
  /-- R120 `FEQ`: FP32 equality compare. -/
  | feq (rd : Reg) (ra : Reg) (rb : Reg)
  /-- R120 `FCLT`: FP32 less-than compare. -/
  | fclt (rd : Reg) (ra : Reg) (rb : Reg)
  /-- R120 `FCLE`: FP32 less-or-equal compare. -/
  | fcle (rd : Reg) (ra : Reg) (rb : Reg)
  /-- R120 `FTOI_W`: Converts FP32 to int32, sign-extended. -/
  | ftoiW (rd : Reg) (ra : Reg) (rm : Rounding)
  /-- R120 `FTOI_L`: Converts FP32 to int64. -/
  | ftoiL (rd : Reg) (ra : Reg) (rm : Rounding)
  /-- R120 `ITOF_W`: Converts int32 to FP32. -/
  | itofW (rd : Reg) (ra : Reg) (rm : Rounding)
  /-- R120 `ITOF_L`: Converts int64 to FP32. -/
  | itofL (rd : Reg) (ra : Reg) (rm : Rounding)
  /-- R120 `FABS`: Clears the FP32 sign. -/
  | fabs (rd : Reg) (ra : Reg)
  /-- R120 `FNEG`: Inverts the FP32 sign. -/
  | fneg (rd : Reg) (ra : Reg)
  /-- R121 `FMA_S`: Fused a·b + c rounded once by FCSR.RM. -/
  | fmaS (rd : Reg) (ra : Reg) (rb : Reg) (rc : Reg)
  /-- R121 `FMS_S`: Fused a·b − c rounded once by FCSR.RM. -/
  | fmsS (rd : Reg) (ra : Reg) (rb : Reg) (rc : Reg)
  /-- R240 `VARITH_VADD`: Enqueues a lanewise float add. -/
  | varithVadd (vd : VReg) (va : VReg) (vb : VReg) (ha : Bool) (hb : Bool) (ty : FloatTy)
  /-- R240 `VARITH_VSUB`: Enqueues a lanewise float subtract. -/
  | varithVsub (vd : VReg) (va : VReg) (vb : VReg) (ha : Bool) (hb : Bool) (ty : FloatTy)
  /-- R240 `VARITH_VMUL`: Enqueues a lanewise float multiply. -/
  | varithVmul (vd : VReg) (va : VReg) (vb : VReg) (ha : Bool) (hb : Bool) (ty : FloatTy)
  /-- R240 `VARITH_VMIN`: Enqueues a lanewise float minimum. -/
  | varithVmin (vd : VReg) (va : VReg) (vb : VReg) (ha : Bool) (hb : Bool) (ty : FloatTy)
  /-- R240 `VARITH_VMAX`: Enqueues a lanewise float maximum. -/
  | varithVmax (vd : VReg) (va : VReg) (vb : VReg) (ha : Bool) (hb : Bool) (ty : FloatTy)
  /-- R240 `VARITH_VABS`: Enqueues a lanewise float absolute value. -/
  | varithVabs (vd : VReg) (va : VReg) (ha : Bool) (ty : FloatTy)
  /-- R240 `VARITH_VNEG`: Enqueues a lanewise float negation. -/
  | varithVneg (vd : VReg) (va : VReg) (ha : Bool) (ty : FloatTy)
  /-- R241 `VINT_VADD`: Enqueues a lanewise integer add. -/
  | vintVadd (vd : VReg) (va : VReg) (vb : VReg) (ha : Bool) (hb : Bool) (ty : IntTy)
  /-- R241 `VINT_VSUB`: Enqueues a lanewise integer subtract. -/
  | vintVsub (vd : VReg) (va : VReg) (vb : VReg) (ha : Bool) (hb : Bool) (ty : IntTy)
  /-- R241 `VINT_VMUL`: Enqueues a lanewise integer multiply. -/
  | vintVmul (vd : VReg) (va : VReg) (vb : VReg) (ha : Bool) (hb : Bool) (ty : IntTy)
  /-- R241 `VINT_VMIN`: Enqueues a lanewise signed minimum. -/
  | vintVmin (vd : VReg) (va : VReg) (vb : VReg) (ha : Bool) (hb : Bool) (ty : IntTy)
  /-- R241 `VINT_VMAX`: Enqueues a lanewise signed maximum. -/
  | vintVmax (vd : VReg) (va : VReg) (vb : VReg) (ha : Bool) (hb : Bool) (ty : IntTy)
  /-- R241 `VINT_VMINU`: Enqueues a lanewise unsigned minimum. -/
  | vintVminu (vd : VReg) (va : VReg) (vb : VReg) (ha : Bool) (hb : Bool) (ty : IntTy)
  /-- R241 `VINT_VMAXU`: Enqueues a lanewise unsigned maximum. -/
  | vintVmaxu (vd : VReg) (va : VReg) (vb : VReg) (ha : Bool) (hb : Bool) (ty : IntTy)
  /-- R241 `VINT_VAND`: Enqueues a lanewise AND. -/
  | vintVand (vd : VReg) (va : VReg) (vb : VReg) (ha : Bool) (hb : Bool) (ty : IntTy)
  /-- R241 `VINT_VOR`: Enqueues a lanewise OR. -/
  | vintVor (vd : VReg) (va : VReg) (vb : VReg) (ha : Bool) (hb : Bool) (ty : IntTy)
  /-- R241 `VINT_VXOR`: Enqueues a lanewise XOR. -/
  | vintVxor (vd : VReg) (va : VReg) (vb : VReg) (ha : Bool) (hb : Bool) (ty : IntTy)
  /-- R241 `VINT_VSLL`: Enqueues a lanewise left shift. -/
  | vintVsll (vd : VReg) (va : VReg) (vb : VReg) (ha : Bool) (hb : Bool) (ty : IntTy)
  /-- R241 `VINT_VSRL`: Enqueues a lanewise logical right shift. -/
  | vintVsrl (vd : VReg) (va : VReg) (vb : VReg) (ha : Bool) (hb : Bool) (ty : IntTy)
  /-- R241 `VINT_VSRA`: Enqueues a lanewise arithmetic right shift. -/
  | vintVsra (vd : VReg) (va : VReg) (vb : VReg) (ha : Bool) (hb : Bool) (ty : IntTy)
  /-- R241 `VINT_VADDS`: Enqueues a lanewise saturating signed add. -/
  | vintVadds (vd : VReg) (va : VReg) (vb : VReg) (ha : Bool) (hb : Bool) (ty : IntTy)
  /-- R241 `VINT_VSUBS`: Enqueues a lanewise saturating signed subtract. -/
  | vintVsubs (vd : VReg) (va : VReg) (vb : VReg) (ha : Bool) (hb : Bool) (ty : IntTy)
  /-- R243 `VCVT_BF16_F32`: Enqueues a narrowing conversion of two FP32 registers to BF16 lanes. -/
  | vcvtBf16F32 (vd : VReg) (va : VReg) (vb : VReg) (ha : Bool) (hb : Bool) (sr : Bool)
  /-- R243 `VCVT_F32_BF16_LO`: Enqueues a widening of the low BF16 lanes to FP32. -/
  | vcvtF32Bf16Lo (vd : VReg) (va : VReg) (ha : Bool)
  /-- R243 `VCVT_F32_BF16_HI`: Enqueues a widening of the high BF16 lanes to FP32. -/
  | vcvtF32Bf16Hi (vd : VReg) (va : VReg) (ha : Bool)
  /-- R243 `VCVT_F16_F32`: Enqueues a narrowing conversion of two FP32 registers to FP16 lanes. -/
  | vcvtF16F32 (vd : VReg) (va : VReg) (vb : VReg) (ha : Bool) (hb : Bool) (sr : Bool)
  /-- R243 `VCVT_F32_F16_LO`: Enqueues a widening of the low FP16 lanes to FP32. -/
  | vcvtF32F16Lo (vd : VReg) (va : VReg) (ha : Bool)
  /-- R243 `VCVT_F32_F16_HI`: Enqueues a widening of the high FP16 lanes to FP32. -/
  | vcvtF32F16Hi (vd : VReg) (va : VReg) (ha : Bool)
  /-- R243 `VCVT_F32_I32`: Enqueues a conversion of int32 lanes to FP32. -/
  | vcvtF32I32 (vd : VReg) (va : VReg) (ha : Bool)
  /-- R243 `VCVT_I32_F32`: Enqueues a conversion of FP32 lanes to int32. -/
  | vcvtI32F32 (vd : VReg) (va : VReg) (ha : Bool)
  /-- R244 `VUNPK_E2M1`: Enqueues a decode of an FP4 E2M1 block record into 32 FP32 lanes. -/
  | vunpkE2m1 (vd : VReg) (va : VReg) (ha : Bool)
  /-- R244 `VUNPK_E3M2`: Enqueues a decode of an FP6 E3M2 block record. -/
  | vunpkE3m2 (vd : VReg) (va : VReg) (ha : Bool)
  /-- R244 `VUNPK_E2M3`: Enqueues a decode of an FP6 E2M3 block record. -/
  | vunpkE2m3 (vd : VReg) (va : VReg) (ha : Bool)
  /-- R244 `VUNPK_E4M3`: Enqueues a decode of an FP8 E4M3 block record. -/
  | vunpkE4m3 (vd : VReg) (va : VReg) (ha : Bool)
  /-- R244 `VUNPK_E5M2`: Enqueues a decode of an FP8 E5M2 block record. -/
  | vunpkE5m2 (vd : VReg) (va : VReg) (ha : Bool)
  /-- R245 `VPACK_E2M1`: Enqueues a quantisation of 32 FP32 lanes into an E2M1 block record. -/
  | vpackE2m1 (vd : VReg) (va : VReg) (ha : Bool) (sr : Bool)
  /-- R245 `VPACK_E3M2`: Enqueues a quantisation into an E3M2 block record. -/
  | vpackE3m2 (vd : VReg) (va : VReg) (ha : Bool) (sr : Bool)
  /-- R245 `VPACK_E2M3`: Enqueues a quantisation into an E2M3 block record. -/
  | vpackE2m3 (vd : VReg) (va : VReg) (ha : Bool) (sr : Bool)
  /-- R245 `VPACK_E4M3`: Enqueues a quantisation into an E4M3 block record. -/
  | vpackE4m3 (vd : VReg) (va : VReg) (ha : Bool) (sr : Bool)
  /-- R245 `VPACK_E5M2`: Enqueues a quantisation into an E5M2 block record. -/
  | vpackE5m2 (vd : VReg) (va : VReg) (ha : Bool) (sr : Bool)
  /-- R246 `VRSUM`: Enqueues a tree sum of the lanes in force into lane 0. -/
  | vrsum (vd : VReg) (va : VReg) (ha : Bool) (ty : RedTy)
  /-- R246 `VRMAX`: Enqueues a maximum reduction into lane 0. -/
  | vrmax (vd : VReg) (va : VReg) (ha : Bool) (ty : RedTy)
  /-- R246 `VRMIN`: Enqueues a minimum reduction into lane 0. -/
  | vrmin (vd : VReg) (va : VReg) (ha : Bool) (ty : RedTy)
  /-- R247 `VCMPEQ`: Enqueues a lanewise equality compare giving all-ones masks. -/
  | vcmpeq (vd : VReg) (va : VReg) (vb : VReg) (ha : Bool) (hb : Bool) (ty : RedTy)
  /-- R247 `VCMPLT`: Enqueues a lanewise less-than compare. -/
  | vcmplt (vd : VReg) (va : VReg) (vb : VReg) (ha : Bool) (hb : Bool) (ty : RedTy)
  /-- R247 `VCMPLE`: Enqueues a lanewise less-or-equal compare. -/
  | vcmple (vd : VReg) (va : VReg) (vb : VReg) (ha : Bool) (hb : Bool) (ty : RedTy)
  /-- R248 `VSEL`: Enqueues a lanewise select by the top bit of the old vd lane. -/
  | vsel (vd : VReg) (va : VReg) (vb : VReg) (ha : Bool) (hb : Bool) (ty : MoveTy)
  /-- R248 `VSHUF`: Enqueues a lane shuffle of va by indices in vb. -/
  | vshuf (vd : VReg) (va : VReg) (vb : VReg) (ha : Bool) (hb : Bool) (ty : MoveTy)
  /-- R248 `VBCAST`: Enqueues a broadcast of va lane 0. -/
  | vbcast (vd : VReg) (va : VReg) (ha : Bool) (ty : MoveTy)
  /-- R249 `VRCP`: Enqueues a correctly rounded FP32 reciprocal on the SFU. -/
  | vrcp (vd : VReg) (va : VReg) (ha : Bool)
  /-- R249 `VRSQRT`: Enqueues an FP32 reciprocal square root on the SFU. -/
  | vrsqrt (vd : VReg) (va : VReg) (ha : Bool)
  /-- R249 `VSQRT`: Enqueues an FP32 square root on the SFU. -/
  | vsqrt (vd : VReg) (va : VReg) (ha : Bool)
  /-- R249 `VEXP2`: Enqueues an FP32 base-2 exponential on the SFU. -/
  | vexp2 (vd : VReg) (va : VReg) (ha : Bool)
  /-- R249 `VLOG2`: Enqueues an FP32 base-2 logarithm on the SFU. -/
  | vlog2 (vd : VReg) (va : VReg) (ha : Bool)
  /-- R242 `VFMA`: Enqueues a lanewise fused a·b + d. -/
  | vfma (vd : VReg) (va : VReg) (vb : VReg) (ha : Bool) (hb : Bool) (ty : FloatTy)
  /-- R242 `VFMS`: Enqueues a lanewise fused a·b − d. -/
  | vfms (vd : VReg) (va : VReg) (vb : VReg) (ha : Bool) (hb : Bool) (ty : FloatTy)
  /-- R242 `VFNMA`: Enqueues a lanewise fused d − a·b. -/
  | vfnma (vd : VReg) (va : VReg) (vb : VReg) (ha : Bool) (hb : Bool) (ty : FloatTy)
  /-- R219 `VECTOR_ENTRY_EXECUTE`: A queued vector entry executes on the lane groups once it heads the queue and its operands
  are ready. -/
  | vectorEntryExecute (c : Nat)
  /-- R223 `VECTOR_ENTRY_RETIRE`: A vector entry retires after its last write and ORs its flags into the enqueuing thread's
  FCSR. -/
  | vectorEntryRetire (c : Nat)
  /-- R250 `SFU_REQUEST`: The cluster SFU accepts a head VSFU entry in arrival order and completes it eight lanes per cycle. -/
  | sfuRequest (c : Nat)
  /-- R259 `MX_MMA`: The sequencer runs a block-scaled matrix multiply-accumulate over KS K-steps and pops its flume slots at
  retire. -/
  | mxMma (c : Nat)
  /-- R259 `MX_MMAD`: The sequencer runs a dense matrix multiply-accumulate over KS K-steps. -/
  | mxMmad (c : Nat)
  /-- R259 `MX_KSTEP`: One K-step runs once both flumes hold its slot, summing into the accumulator by R107. -/
  | mxKstep (c : Nat)
  /-- R260 `MX_ZERO`: Sets every element of an accumulator to +0. -/
  | mxZero (c : Nat)
  /-- R260 `MX_LOAD`: Loads accumulator rows from the scratchpad or a flume slot. -/
  | mxLoad (c : Nat)
  /-- R260 `MX_STORE`: Stores accumulator rows in MXOUT's format to the scratchpad or a flume slot. -/
  | mxStore (c : Nat)
  /-- R262 `MX_FENCE`: Retires after every earlier command and reports the thread's suppressed commands in one completion. -/
  | mxFence (c : Nat)
  /-- R261 `MX_SCALEBAND`: Scales every accumulator element by the band scales of one band step. -/
  | mxScaleband (c : Nat)
  /-- R153 `STORE_PERFORMED`: The oldest store of a thread's buffer is performed at its target and leaves the buffer. -/
  | storePerformed (t : Nat)
  /-- R153 `GLOBAL_ACK`: The Basin's acknowledgement of a global write arrives and the write becomes performed. -/
  | globalAck (w : Nat)
  /-- R153 `ACK_TIMEOUT`: 256 µs without an acknowledgement removes the store, completes the waiting release and makes ACKLOST
  pending. -/
  | ackTimeout (w : Nat) (committed : Bool)
  /-- R203 `DIRTY_NOTICE_ARRIVAL`: A dirty notice reaches the Basin, making the line's early writes visible to third dies. -/
  | dirtyNoticeArrival (n : Nat)
  /-- R207 `DIRTY_NOTICE_ACK`: The Basin's acknowledgement of a dirty notice arrives, clearing hazard and forward-table
  entries. -/
  | dirtyNoticeAck (n : Nat)
  /-- R212 `BASIN_HOLD_RELEASE`: The Basin releases held reads of a line 256 µs after sending a lost acknowledgement. -/
  | basinHoldRelease (w : Nat)
  /-- R160 `REMOTE_ACCESS_REQUEST`: An executing agent performs an arriving atomic, GETR or PUTR request, using its replay
  window. -/
  | remoteAccessRequest (r : Nat)
  /-- R162 `REMOTE_RESPONSE`: The response of an AMO, GETR or WEIR operation arrives and is written to rd. -/
  | remoteResponse (r : Nat)
  /-- R162 `REQUEST_RESEND`: 200 µs without a response resends an off-die AMO or GETR with the same request number. -/
  | requestResend (r : Nat)
  /-- R39 `CREDIT_GRANT`: The receiving NI grants a freed channel credit to the waiting send whose request came first. -/
  | creditGrant (c : Nat) (ch : Nat)
  /-- R173 `MESSAGE_ARRIVAL`: A message is written into its channel queue, going at once to the longest-waiting RECV. -/
  | messageArrival (k : Nat)
  /-- R307 `PACKET_EJECTION`: A router ejects a packet to its destination core after comparing tags. -/
  | packetEjection (k : Nat)
  /-- R144 `WAKE_DELIVERY`: A wake reaches its thread and sets its wake flag, ending a TSLEEP. -/
  | wakeDelivery (k : Nat)
  /-- R145 `TSLEEP_TIMEOUT`: The cycle limit of a TSLEEP passes and the thread leaves BLOCKED. -/
  | tsleepTimeout (t : Nat)
  /-- R31 `GENERATION_COMPLETE`: A barrier generation completes once its arrivals, and for a closing phase its messages, are
  in, releasing the waiting members. -/
  | generationComplete (d : Nat) (dom : Nat)
  /-- R188 `WATCHDOG_EXPIRY`: A wait, entry or command outlasting the watchdog interval raises WATCHDOG in its thread. -/
  | watchdogExpiry (t : Nat)
  /-- R137 `ASYNC_TRAP_DELIVERY`: A pending asynchronous cause is taken at the next bundle boundary of a READY thread. -/
  | asyncTrapDelivery (t : Nat)
  /-- R299 `LAUNCH_START`: A head launch starts on a die once its threads are free, installing images and slot tables. -/
  | launchStart (p : Nat) (d : Nat)
  /-- R44 `ELECTION_TIMEOUT`: 10 µs after the first ballot the election closes and dies without a ballot are failed. -/
  | electionTimeout (l : Nat)
  /-- R46 `LEADER_POST`: The leader posts to the Weir every 5 µs. -/
  | leaderPost (l : Nat)
  /-- R46 `LEADER_FAIL`: 20 µs without a post, or quarantine, fails the leader and abandons its undistributed indices. -/
  | leaderFail (l : Nat)
  /-- R142 `HALT_COMPLETE`: The waits of a HALT end, its FIFO is discarded and the thread becomes HALTED. -/
  | haltComplete (t : Nat)
  /-- R324 `COPY_COMMAND_START`: A free copy engine takes the highest-ranked waiting command. -/
  | copyCommandStart (d : Nat)
  /-- R169 `COPY_COMPLETE`: A copy command ends and writes its completion into the thread's FIFO. -/
  | copyComplete (q : Nat)
  /-- R325 `COPY_BUDGET_REFILL`: Every 100 µs the partition's copy budget gains REFILL units, up to four times REFILL. -/
  | copyBudgetRefill (p : Nat) (d : Nat)
  /-- R268 `DRAIN_STEP`: Each µs the partition fill falls by RATE and the package fill by the package drain. -/
  | drainStep
  /-- R266 `DRAIN_MEASURE`: Every 1 ms the package drain is measured and each partition's RATE recomputed. -/
  | drainMeasure (drain : Nat)
  /-- R281 `METER_TICK`: Each µs at a level above nominal the core meter adds measured energy over allowance to its residue. -/
  | meterTick (c : Nat) (energy : Nat)
  /-- R285 `SLUICE_EVALUATION`: Each µs the package sluice tests the fill and cuts sprinting cores while it is at or above
  threshold. -/
  | sluiceEvaluation
  /-- R404 `POWER_LIMIT_CUT`: Package power averaged over 1 ms above 3,200 W cuts sprinting cores without closing the sluice. -/
  | powerLimitCut (mw : Nat)
  /-- R272 `RESERVATION_GRANT`: A waiting RSV.w or RSV.w.p is granted when no request stands before it and headroom allows. -/
  | reservationGrant (t : Nat)
  /-- R277 `RWAIT_RELEASE`: A waiting RWAIT leaves BLOCKED once the partition fill drops to its bound. -/
  | rwaitRelease (t : Nat)
  /-- R278 `LEVEL_SWITCH`: The core's clock and voltage complete a change of level. -/
  | levelSwitch (c : Nat)
  /-- R292 `TELEMETRY_FRAME_WRITE`: Every 1 ms the Basin writes each die's telemetry frame with SEQ odd then even. -/
  | telemetryFrameWrite (d : Nat) (power : Nat) (records : List Word)
  /-- R310 `SLICE_END`: A time-shared partition's slice ends and the switch to the next partition of the ring is sought. -/
  | sliceEnd (p : Nat)
  /-- R314 `SUPERSTEP_SWITCH`: At a superstep boundary with no region open or traffic in flight, the core set switches
  partitions. -/
  | superstepSwitch (p : Nat)
  /-- R315 `FORCED_PREEMPTION`: A core is saved one step at a time and its tag changed, at SLICE after a slice end or on
  demand. -/
  | forcedPreemption (c : Nat)
  /-- R316 `CORE_RESUME`: A saved core is restored and its spill ring replayed before any new packet. -/
  | coreResume (c : Nat)
  /-- R312 `REGION_WATCHDOG`: A region open for WDOG µs is closed and WATCHDOG raised in every thread of its core. -/
  | regionWatchdog (c : Nat)
  /-- R320 `RESIZE_APPLY`: A resize takes effect at the next superstep boundary, adding cores and migrating removed ones. -/
  | resizeApply (p : Nat)
  /-- R326 `FRAME_SCRUB_COMPLETE`: A freed frame has been zeroed and invalidated, becomes CLEAN and a clean-complete event is
  sent. -/
  | frameScrubComplete (f : Nat)
  /-- R326 `BOOT_SCRUB_COMPLETE`: The last frame of the boot scrub becomes CLEAN and one clean-complete event with an all-ones
  frame is sent. -/
  | bootScrubComplete
  /-- R359 `DIE_QUARANTINE`: A die whose Basin link or dispatcher fails is quarantined whole and treated as failed. -/
  | dieQuarantine (d : Nat)
  /-- R346 `LINK_RETRY_FAIL`: Eight failed link-level retries of a flit give UE at the receiver. -/
  | linkRetryFail (t : Nat) (a : Word)
  /-- R406 `OPTICAL_LANE_LOSS`: The last working lane to a fabric node fails; in-flight accesses are lost and running copies
  aborted. -/
  | opticalLaneLoss (node : Nat)
  /-- R401 `PTP_INPUT_LOCK`: The IEEE 1588 input locks and the time-base rate is steered toward it. -/
  | ptpInputLock
  /-- R401 `PTP_INPUT_LOSS`: The IEEE 1588 input is lost; the counter runs on the oscillator and a source-9 record is written. -/
  | ptpInputLoss
  /-- R403 `VOLTAGE_DROOP`: A core-array domain 30 mV or more below its set point stretches its cores' clocks until it
  recovers. -/
  | voltageDroop (dom : Nat)
  /-- R403 `CURRENT_LIMIT`: A domain at its current limit stretches its cores' clocks. -/
  | currentLimit (dom : Nat)
  /-- R397 `COLD_RESET`: The package comes up through its boot stages, stopping at a failed stage. -/
  | coldReset (stage : Nat)
  /-- R390 `HOST_READ`: A host read over a virtual function is translated and served by the Basin. -/
  | hostRead (fn : Nat) (gpa : Nat) (n : Nat)
  /-- R390 `HOST_WRITE`: A host write over a virtual function is translated and committed at the Basin. -/
  | hostWrite (fn : Nat) (gpa : Nat) (data : List Byte)
  /-- R390 `HOST_ATOMIC`: A host integer atomic executes at the Basin home slice. -/
  | hostAtomic (fn : Nat) (gpa : Nat) (op : Nat) (n : Nat) (b : Word) (cmp : Word)
  /-- R389 `CQTAIL_WRITE`: A host write to CQTAIL rings the doorbell and the device reads and performs commands in ring order. -/
  | cqtailWrite (fn : Nat) (v : Word)
  /-- R389 `RING_CONFIG_WRITE`: A write to CQBASE, CQLOG, EQBASE or EQLOG resets the ring's head and tail unless entries
  remain. -/
  | ringConfigWrite (fn : Nat) (off : Nat) (v : Word)
  /-- R395 `EQHEAD_WRITE`: The host advances EQHEAD, freeing room for held events. -/
  | eqheadWrite (fn : Nat) (v : Word)
  /-- R393 `PCREATE`: Creates a partition with its tag, priority and core set. -/
  | pcreate (cmd : Cmd)
  /-- R393 `PDESTROY`: Resets a partition and gives its cores tag 63. -/
  | pdestroy (cmd : Cmd)
  /-- R320 `PRESIZE`: Requests a change of a partition's core set. -/
  | presize (cmd : Cmd)
  /-- R322 `PFLR`: Requests a function-level reset of a partition. -/
  | pflr (cmd : Cmd)
  /-- R267 `PRES`: Sets a partition's reservoir capacity, drain, scale and meter allowance. -/
  | pres (cmd : Cmd)
  /-- R158 `PSCOPE`: Sets a partition's scope ceiling. -/
  | pscope (cmd : Cmd)
  /-- R177 `PWEIR`: Sets a partition's Weir counter, semaphore and barrier allotments. -/
  | pweir (cmd : Cmd)
  /-- R393 `PPLACE`: Places a partition's scheduling, fault-queue, telemetry and information pages on a die. -/
  | pplace (cmd : Cmd)
  /-- R331 `S1ROOT`: Sets the GPA of a partition's top-level first-stage table. -/
  | s1root (cmd : Cmd)
  /-- R335 `S2WRITE`: Writes one entry of a partition's second-stage table. -/
  | s2write (cmd : Cmd)
  /-- R326 `FASSIGN`: Assigns a CLEAN frame to a partition or marks it SHARED as a telemetry frame. -/
  | fassign (cmd : Cmd)
  /-- R326 `FFREE`: Frees a frame into SCRUBBING, or releases a host or fabric frame at once. -/
  | ffree (cmd : Cmd)
  /-- R399 `PSTART`: Starts a partition's first supervisor thread and sets its trap vector. -/
  | pstart (cmd : Cmd)
  /-- R344 `RESUME2`: Resumes a thread parked by PAGE2 or injects a guest fault. -/
  | resume2 (cmd : Cmd)
  /-- R296 `LAUNCH`: Arms a launch record from the host as LARM does. -/
  | launch (fn : Nat) (cmd : Cmd)
  /-- R144 `WAKE`: Wakes a device thread after the function's earlier host writes commit. -/
  | wake (fn : Nat) (cmd : Cmd)
  /-- R387 `ROLLBACK`: Performs rollback entry from a committed spore manifest. -/
  | rollback (cmd : Cmd)
  /-- R328 `FMODE`: Sets one device function to hardware or host-assisted mode. -/
  | fmode (cmd : Cmd)
  /-- R309 `PSLICE`: Sets a partition's slice, copy refill and next partition in its time-sharing ring. -/
  | pslice (cmd : Cmd)
  /-- R401 `TIMESET`: Sets the time base once before the first PSTART. -/
  | timeset (cmd : Cmd)
  /-- R410 `ATTEST`: Writes a signed attestation report over a nonce. -/
  | attest (cmd : Cmd)
  /-- R408 `FWSTAGE`: Checks and stores a firmware image for the next cold reset. -/
  | fwstage (cmd : Cmd)
  /-- R393 `ERRLOG`: Copies error records from the management controller's ring to host memory. -/
  | errlog (cmd : Cmd)
  /-- R400 `DIERESET`: Resets a die that holds no partition's cores to its cold-reset state. -/
  | diereset (cmd : Cmd)
  /-- R394 `PJOB`: Names a partition's spore job, package index, count and node table. -/
  | pjob (cmd : Cmd)
  /-- R369 `SPORE_ARM`: A package receives the start from the coordinating Weir and enters ARMED. -/
  | sporeArm (p : Nat)
  /-- R372 `CORE_CAPTURE_DONE`: A core finishes copying its context block into the image area. -/
  | coreCaptureDone (c : Nat)
  /-- R374 `BACKGROUND_PAGE_COPY`: The Basin copies a held page into the image area in the background and marks it COPIED. -/
  | backgroundPageCopy (p : Nat) (va : Word)
  /-- R377 `MARKER_ARRIVAL`: A sender's marker reaches a receiving NI, ending logging for that sender and starting holds. -/
  | markerArrival (pkg : Nat) (sender : Nat) (c : Nat)
  /-- R369 `SPORE_SEAL`: With pages, captures and markers complete, the manifest is written and the package sends ready. -/
  | sporeSeal (p : Nat)
  /-- R386 `SPORE_COMMIT`: With every package ready, the spore commits, writes its status word and posts an event. -/
  | sporeCommit (p : Nat)
  /-- R385 `SPORE_FAIL`: A failure or PEER fails the spore, returns held leaves to NORMAL and writes its status. -/
  | sporeFail (p : Nat) (cause : Nat)
  /-- R411 `ERROR_RECORD_REQUEST`: An MCTP request returns error records from the ring by first index and count. -/
  | errorRecordRequest (first : Nat) (count : Nat)
  /-- R411 `I3C_DYNAMIC_ADDRESS`: The management controller takes a dynamic I3C address from the board's controller. -/
  | i3cDynamicAddress (a : Nat)
  /-- R410 `GET_VERSION`: SPDM request returning the supported version. -/
  | getVersion
  /-- R410 `GET_CAPABILITIES`: SPDM request returning capabilities. -/
  | getCapabilities
  /-- R410 `NEGOTIATE_ALGORITHMS`: SPDM request selecting RSA-3072 and SHA-256. -/
  | negotiateAlgorithms
  /-- R410 `GET_CERTIFICATE`: SPDM request returning the device identity certificate. -/
  | getCertificate
  /-- R410 `GET_MEASUREMENTS`: SPDM request returning the firmware measurements. -/
  | getMeasurements
  /-- R19 `INSTRUCTION_FETCH_RETURN`: The bundle a thread waits for in an instruction fetch arrives, and the thread becomes
  READY again. -/
  | instructionFetchReturn (t : Nat)
  /-- R152 `STORE_MISS_RETURN`: Permission for a store that missed in translation returns, after the walk or a copy-on-write
  copy, and the store enters the buffer. -/
  | storeMissReturn (t : Nat)
  /-- R39 `SLOT_WINDOW_CLOSE`: PHASECYC passes the end of the matched slot row while a SEND still waits for a credit, and the
  SEND raises SLOT. -/
  | slotWindowClose (t : Nat)
  /-- R203 `FABRIC_DEVICE_ACCESS`: A fabric device reads or writes a home window through the optical dies and the Basin. -/
  | fabricDeviceAccess (write : Bool) (die : Nat) (va : Nat) (n : Nat) (data : List Byte)
  /-- R164 `HOST_FABRIC_ACKNOWLEDGEMENT`: The host fabric or a fabric device acknowledges a device write to host memory or
  fabric space, and the write is performed at PKG or SYS. -/
  | hostFabricAcknowledgement (w : Nat)
  /-- R274 `MONITOR_SLUICE_GRANT`: In host-assisted sluice admission, the monitor grants a waiting reservation request. -/
  | monitorSluiceGrant (t : Nat)
  /-- R328 `HOST_WALK_REPLY`: In host-assisted page-walk mode, the monitor answers a walk request so that the waiting access
  can proceed or fault. -/
  | hostWalkReply (t : Nat)
  /-- R328 `MONITOR_NAMES_LEADER`: In host-assisted election, the monitor names the leader of a multi-die launch. -/
  | monitorNamesLeader (l : Nat) (d : Nat)
  /-- R359 `MONITOR_NAMES_SPARE`: In host-assisted spare remap, the monitor names the spare, and the waiting quarantine step
  proceeds. -/
  | monitorNamesSpare (d : Nat) (half : Nat)
  /-- R328 `BASIN_INVALIDATE_REQUEST`: In host-assisted frame scrub, the monitor asks the Basin to invalidate a frame it has
  zeroed, after which the frame becomes CLEAN. -/
  | basinInvalidateRequest (f : Nat)
  /-- R403 `VOLTAGE_RECOVERY`: A drooping core-array domain's sensor minimum recovers, and its cores stop stretching their
  clocks. -/
  | voltageRecovery (dom : Nat)
  /-- R403 `CURRENT_LIMIT_RELEASE`: A domain leaves its current limit, bit 48 of its record clears, and its cores stop
  stretching. -/
  | currentLimitRelease (dom : Nat)
  deriving DecidableEq, Repr

end Sys2Proof
end

