-- ==== Sys2Proof/WellFormed.lean ====
section
/-!
DEFINITION. Which terms of Instr stand for something the part has: the operand bounds that the operand types alone do not
give. For an instruction word these are the values that the encoding admits (R55 to R66); for a step of another agent,
the numbers of agents and the sizes that the spec gives (R8, R14, R18, R26, R292, R389).
-/
namespace Sys2Proof

/-- The operand bounds of an instruction or step. -/
def Instr.wf : Instr → Bool
  | .nop => true
  | .halt => true
  | .trap _ => true
  | .eret => true
  | .brk => true
  | .tyield => true
  | .tsleep _ => true
  | .twake _ => true
  | .sigchk _ => true
  | .fenceCore => true
  | .fenceDie => true
  | .fencePkg => true
  | .fenceSys => true
  | .csrrw _ _ _ => true
  | .csrrs _ _ _ => true
  | .jal _ _ => true
  | .jalr _ _ _ => true
  | .beq _ _ _ => true
  | .bne _ _ _ => true
  | .blt _ _ _ => true
  | .bge _ _ _ => true
  | .bltu _ _ _ => true
  | .bgeu _ _ _ => true
  | .loop _ off => decide (0 < off.toNat) && decide (off.toNat < 4096)
  | .load _ _ _ sz _ z => !(decide (sz = .d) && z)
  | .store _ _ _ _ _ _ => true
  | .lda _ _ _ _ _ => true
  | .stl _ _ _ _ _ _ => true
  | .amoAdd _ _ _ _ _ => true
  | .amoAnd _ _ _ _ _ => true
  | .amoOr _ _ _ _ _ => true
  | .amoXor _ _ _ _ _ => true
  | .amoMin _ _ _ _ _ => true
  | .amoMax _ _ _ _ _ => true
  | .amoMinu _ _ _ _ _ => true
  | .amoMaxu _ _ _ _ _ => true
  | .amoSwap _ _ _ _ _ => true
  | .amoCas _ _ _ _ _ => true
  | .getr _ _ _ => true
  | .putr _ _ _ _ => true
  | .get _ _ _ => true
  | .put _ _ _ _ => true
  | .cpop _ _ => true
  | .cwait => true
  | .send _ _ _ => true
  | .recv _ _ _ => true
  | .rpoll _ _ _ => true
  | .bar _ => true
  | .step _ => true
  | .bdom _ _ _ => true
  | .weirCadd _ _ _ => true
  | .weirCread _ _ => true
  | .weirCswap _ _ _ => true
  | .weirSwait _ => true
  | .weirSpost _ => true
  | .weirStry _ _ => true
  | .fcfg _ _ => true
  | .fwaitf _ _ => true
  | .fwaite _ _ => true
  | .fprod _ _ => true
  | .fcons _ _ => true
  | .frd _ _ => true
  | .rsv _ _ => true
  | .rsvW _ _ => true
  | .rsvP _ _ => true
  | .rsvWP _ _ => true
  | .spnd _ => true
  | .rrel _ => true
  | .rfill _ => true
  | .rwait _ => true
  | .sprint _ => true
  | .spore _ _ => true
  | .larm _ _ => true
  | .lpatchPrio _ _ _ => true
  | .lpatchArg _ _ _ => true
  | .lpatchCount _ _ _ => true
  | .lpatchDone _ _ _ => true
  | .vld _ _ _ _ => true
  | .vlds _ _ _ _ => true
  | .vldf _ _ _ _ => true
  | .vst _ _ _ _ => true
  | .vsts _ _ _ _ => true
  | .vstf _ _ _ _ => true
  | .vsetl _ _ => true
  | .vloop _ k => decide (1 ≤ k.toNat) && decide (k.toNat ≤ 16)
  | .sbind _ _ _ => true
  | .sunbind _ => true
  | .vmovxXv _ _ _ => true
  | .vmovxVx _ _ _ => true
  | .add _ _ _ => true
  | .sub _ _ _ => true
  | .and _ _ _ => true
  | .or _ _ _ => true
  | .xor _ _ _ => true
  | .sll _ _ _ => true
  | .srl _ _ _ => true
  | .sra _ _ _ => true
  | .slt _ _ _ => true
  | .sltu _ _ _ => true
  | .min _ _ _ => true
  | .max _ _ _ => true
  | .minu _ _ _ => true
  | .maxu _ _ _ => true
  | .mul _ _ _ => true
  | .mulhiSs _ _ _ => true
  | .mulhiUu _ _ _ => true
  | .mulhiSu _ _ _ => true
  | .div _ _ _ => true
  | .divu _ _ _ => true
  | .rem _ _ _ => true
  | .remu _ _ _ => true
  | .addw _ _ _ => true
  | .subw _ _ _ => true
  | .sllw _ _ _ => true
  | .srlw _ _ _ => true
  | .sraw _ _ _ => true
  | .mulw _ _ _ => true
  | .divw _ _ _ => true
  | .divuw _ _ _ => true
  | .remw _ _ _ => true
  | .remuw _ _ _ => true
  | .addi _ _ _ => true
  | .andi _ _ _ => true
  | .ori _ _ _ => true
  | .xori _ _ _ => true
  | .slti _ _ _ => true
  | .sltiu _ _ _ => true
  | .slli _ _ _ => true
  | .srli _ _ _ => true
  | .srai _ _ _ => true
  | .slliw _ _ _ => true
  | .srliw _ _ _ => true
  | .sraiw _ _ _ => true
  | .lui _ _ => true
  | .auipc _ _ => true
  | .clz _ _ => true
  | .ctz _ _ => true
  | .popc _ _ => true
  | .bext _ _ _ => true
  | .bins _ _ _ => true
  | .sext _ _ _ => true
  | .zext _ _ _ => true
  | .lea _ _ _ => true
  | .lea2 _ _ _ => true
  | .lea4 _ _ _ => true
  | .lea8 _ _ _ => true
  | .fadd _ _ _ _ => true
  | .fsub _ _ _ _ => true
  | .fmul _ _ _ _ => true
  | .fdiv _ _ _ _ => true
  | .fsqrt _ _ _ => true
  | .fmin _ _ _ => true
  | .fmax _ _ _ => true
  | .feq _ _ _ => true
  | .fclt _ _ _ => true
  | .fcle _ _ _ => true
  | .ftoiW _ _ _ => true
  | .ftoiL _ _ _ => true
  | .itofW _ _ _ => true
  | .itofL _ _ _ => true
  | .fabs _ _ => true
  | .fneg _ _ => true
  | .fmaS _ _ _ _ => true
  | .fmsS _ _ _ _ => true
  | .varithVadd _ _ _ _ _ _ => true
  | .varithVsub _ _ _ _ _ _ => true
  | .varithVmul _ _ _ _ _ _ => true
  | .varithVmin _ _ _ _ _ _ => true
  | .varithVmax _ _ _ _ _ _ => true
  | .varithVabs _ _ _ _ => true
  | .varithVneg _ _ _ _ => true
  | .vintVadd _ _ _ _ _ _ => true
  | .vintVsub _ _ _ _ _ _ => true
  | .vintVmul _ _ _ _ _ _ => true
  | .vintVmin _ _ _ _ _ _ => true
  | .vintVmax _ _ _ _ _ _ => true
  | .vintVminu _ _ _ _ _ _ => true
  | .vintVmaxu _ _ _ _ _ _ => true
  | .vintVand _ _ _ _ _ _ => true
  | .vintVor _ _ _ _ _ _ => true
  | .vintVxor _ _ _ _ _ _ => true
  | .vintVsll _ _ _ _ _ _ => true
  | .vintVsrl _ _ _ _ _ _ => true
  | .vintVsra _ _ _ _ _ _ => true
  | .vintVadds _ _ _ _ _ _ => true
  | .vintVsubs _ _ _ _ _ _ => true
  | .vcvtBf16F32 _ _ _ _ _ _ => true
  | .vcvtF32Bf16Lo _ _ _ => true
  | .vcvtF32Bf16Hi _ _ _ => true
  | .vcvtF16F32 _ _ _ _ _ _ => true
  | .vcvtF32F16Lo _ _ _ => true
  | .vcvtF32F16Hi _ _ _ => true
  | .vcvtF32I32 _ _ _ => true
  | .vcvtI32F32 _ _ _ => true
  | .vunpkE2m1 _ _ _ => true
  | .vunpkE3m2 _ _ _ => true
  | .vunpkE2m3 _ _ _ => true
  | .vunpkE4m3 _ _ _ => true
  | .vunpkE5m2 _ _ _ => true
  | .vpackE2m1 _ _ _ _ => true
  | .vpackE3m2 _ _ _ _ => true
  | .vpackE2m3 _ _ _ _ => true
  | .vpackE4m3 _ _ _ _ => true
  | .vpackE5m2 _ _ _ _ => true
  | .vrsum _ _ _ _ => true
  | .vrmax _ _ _ _ => true
  | .vrmin _ _ _ _ => true
  | .vcmpeq _ _ _ _ _ _ => true
  | .vcmplt _ _ _ _ _ _ => true
  | .vcmple _ _ _ _ _ _ => true
  | .vsel _ _ _ _ _ _ => true
  | .vshuf _ _ _ _ _ _ => true
  | .vbcast _ _ _ _ => true
  | .vrcp _ _ _ => true
  | .vrsqrt _ _ _ => true
  | .vsqrt _ _ _ => true
  | .vexp2 _ _ _ => true
  | .vlog2 _ _ _ => true
  | .vfma _ _ _ _ _ _ => true
  | .vfms _ _ _ _ _ _ => true
  | .vfnma _ _ _ _ _ _ => true
  | .vectorEntryExecute c => decide (c < 1024)
  | .vectorEntryRetire c => decide (c < 1024)
  | .sfuRequest c => decide (c < 1024)
  | .mxMma c => decide (c < 1024)
  | .mxMmad c => decide (c < 1024)
  | .mxKstep c => decide (c < 1024)
  | .mxZero c => decide (c < 1024)
  | .mxLoad c => decide (c < 1024)
  | .mxStore c => decide (c < 1024)
  | .mxFence c => decide (c < 1024)
  | .mxScaleband c => decide (c < 1024)
  | .storePerformed t => decide (t < 4096)
  | .globalAck _ => true
  | .ackTimeout _ _ => true
  | .dirtyNoticeArrival _ => true
  | .dirtyNoticeAck _ => true
  | .basinHoldRelease _ => true
  | .remoteAccessRequest _ => true
  | .remoteResponse _ => true
  | .requestResend _ => true
  | .creditGrant c ch => decide (c < 1024) && decide (ch < 32)
  | .messageArrival _ => true
  | .packetEjection _ => true
  | .wakeDelivery _ => true
  | .tsleepTimeout t => decide (t < 4096)
  | .generationComplete d dom => decide (d < 8) && decide (dom < 16)
  | .watchdogExpiry t => decide (t < 4096)
  | .asyncTrapDelivery t => decide (t < 4096)
  | .launchStart p d => decide (p < 48) && decide (d < 8)
  | .electionTimeout _ => true
  | .leaderPost _ => true
  | .leaderFail _ => true
  | .haltComplete t => decide (t < 4096)
  | .copyCommandStart d => decide (d < 8)
  | .copyComplete _ => true
  | .copyBudgetRefill p d => decide (p < 48) && decide (d < 8)
  | .drainStep => true
  | .drainMeasure _ => true
  | .meterTick c _ => decide (c < 1024)
  | .sluiceEvaluation => true
  | .powerLimitCut _ => true
  | .reservationGrant t => decide (t < 4096)
  | .rwaitRelease t => decide (t < 4096)
  | .levelSwitch c => decide (c < 1024)
  | .telemetryFrameWrite d _ records => decide (d < 8) && decide (records.length = 47)
  | .sliceEnd p => decide (p < 48)
  | .superstepSwitch p => decide (p < 48)
  | .forcedPreemption c => decide (c < 1024)
  | .coreResume c => decide (c < 1024)
  | .regionWatchdog c => decide (c < 1024)
  | .resizeApply p => decide (p < 48)
  | .frameScrubComplete _ => true
  | .bootScrubComplete => true
  | .dieQuarantine d => decide (d < 8)
  | .linkRetryFail t _ => decide (t < 4096)
  | .opticalLaneLoss node => decide (node < 4096)
  | .ptpInputLock => true
  | .ptpInputLoss => true
  | .voltageDroop dom => decide (dom < 47)
  | .currentLimit dom => decide (dom < 47)
  | .coldReset stage => decide (stage ≤ 6)
  | .hostRead fn _ n => decide (fn < 49) && decide (0 < n) && decide (n ≤ 64)
  | .hostWrite fn _ data => decide (fn < 49) && decide (0 < data.length) && decide (data.length ≤ 64)
  | .hostAtomic fn _ op n _ _ => decide (fn < 49) && (n == 4 || n == 8) && decide (op < 10)
  | .cqtailWrite fn _ => decide (fn < 49)
  | .ringConfigWrite fn off _ => decide (fn < 49) && (off == 0x00 || off == 0x08 || off == 0x20 || off == 0x28)
  | .eqheadWrite fn _ => decide (fn < 49)
  | .pcreate _ => true
  | .pdestroy _ => true
  | .presize _ => true
  | .pflr _ => true
  | .pres _ => true
  | .pscope _ => true
  | .pweir _ => true
  | .pplace _ => true
  | .s1root _ => true
  | .s2write _ => true
  | .fassign _ => true
  | .ffree _ => true
  | .pstart _ => true
  | .resume2 _ => true
  | .launch fn _ => decide (fn < 49)
  | .wake fn _ => decide (fn < 49)
  | .rollback _ => true
  | .fmode _ => true
  | .pslice _ => true
  | .timeset _ => true
  | .attest _ => true
  | .fwstage _ => true
  | .errlog _ => true
  | .diereset _ => true
  | .pjob _ => true
  | .sporeArm p => decide (p < 48)
  | .coreCaptureDone c => decide (c < 1024)
  | .backgroundPageCopy p _ => decide (p < 48)
  | .markerArrival _ sender c => decide (sender < 1024) && decide (c < 1024)
  | .sporeSeal p => decide (p < 48)
  | .sporeCommit p => decide (p < 48)
  | .sporeFail p cause => decide (p < 48) && decide (1 ≤ cause) && decide (cause ≤ 8)
  | .errorRecordRequest _ count => decide (1 ≤ count) && decide (count ≤ 4096)
  | .i3cDynamicAddress a => decide (a < 128)
  | .getVersion => true
  | .getCapabilities => true
  | .negotiateAlgorithms => true
  | .getCertificate => true
  | .getMeasurements => true
  | .instructionFetchReturn t => decide (t < 4096)
  | .storeMissReturn t => decide (t < 4096)
  | .slotWindowClose t => decide (t < 4096)
  | .fabricDeviceAccess write die _ n data => decide (die < 8) && decide (0 < n) && decide (n ≤ 64) && (!write || decide (data.length = n))
  | .hostFabricAcknowledgement _ => true
  | .monitorSluiceGrant t => decide (t < 4096)
  | .hostWalkReply t => decide (t < 4096)
  | .monitorNamesLeader _ d => decide (d < 8)
  | .monitorNamesSpare d half => decide (d < 8) && decide (half < 2)
  | .basinInvalidateRequest _ => true
  | .voltageRecovery dom => decide (dom < 47)
  | .currentLimitRelease dom => decide (dom < 47)

end Sys2Proof
end

