-- ==== Sys2Proof/Decode.lean ====
section
/-!
DEFINITION. The decoder, total on every 32-bit word and rejecting by name (R50 to R67), the bundle decoder of R55, and
after them the encoder, written from the same tables.
-/
namespace Sys2Proof

/-- Why the decoder refuses a word: the rows of R55's table. Each raises ILLEGAL. -/
inductive Reject where
  /-- majors 0x1A-0x1F and 0x33-0x3F -/
  | reservedMajor
  /-- a function, op or mode value that R58 to R66 do not list -/
  | reservedFunction
  /-- a type, rounding, size or range value that R58 to R66 do not allow -/
  | reservedValue
  /-- a field the instruction does not use is not zero -/
  | nonzeroField
  /-- a field names a register, channel, domain, flume or level that does not exist -/
  | noRegister
  deriving DecidableEq, Repr

/-- R57 `sz`: 00 byte, 01 half, 10 word, 11 double. -/
def Size.ofCode (n : Nat) : Size :=
  match n % 4 with | 0 => .b | 1 => .h | 2 => .w | _ => .d
/-- The `sz` field of a size. -/
def Size.code : Size → Nat | .b => 0 | .h => 1 | .w => 2 | .d => 3
/-- R58 `fl` of LDA and STL: 00 CORE, 01 DIE, 10 PKG, 11 SYS. -/
def Scope.ofCode (n : Nat) : Scope :=
  match n % 4 with | 0 => .core | 1 => .die | 2 => .pkg | _ => .sys
/-- The scope field of a scope. -/
def Scope.code : Scope → Nat | .core => 0 | .die => 1 | .pkg => 2 | .sys => 3
/-- R59 types: 00 W, 01 D, 10 S, 11 H. -/
def AmoTy.ofCode (n : Nat) : AmoTy :=
  match n % 4 with | 0 => .w | 1 => .d | 2 => .s | _ => .h
/-- The type field of an AMO type. -/
def AmoTy.code : AmoTy → Nat | .w => 0 | .d => 1 | .s => 2 | .h => 3
/-- R59: the integer types W and D of a type field. -/
def IntSize.ofCode? (n : Nat) : Option IntSize :=
  match n % 4 with | 0 => some .w | 1 => some .d | _ => none
/-- The type field of an integer type. -/
def IntSize.code : IntSize → Nat | .w => 0 | .d => 1
/-- R65 rounding field; 110 and 111 are reserved. -/
def Rounding.ofCode? (n : Nat) : Option Rounding :=
  match n % 8 with
  | 0 => some .rne | 1 => some .rup | 2 => some .rdn | 3 => some .rtz | 4 => some .rna | 5 => some .dyn | _ => none
/-- The rounding field of a mode. -/
def Rounding.code : Rounding → Nat | .rne => 0 | .rup => 1 | .rdn => 2 | .rtz => 3 | .rna => 4 | .dyn => 5
/-- R62 element field; 11 is reserved. -/
def Elem.ofCode? (n : Nat) : Option Elem :=
  match n % 4 with | 0 => some .b | 1 => some .h | 2 => some .w | _ => none
/-- The element field of a width. -/
def Elem.code : Elem → Nat | .b => 0 | .h => 1 | .w => 2
/-- R240, R242 type field: 00 f32, 01 bf16. -/
def FloatTy.ofCode? (n : Nat) : Option FloatTy :=
  match n % 4 with | 0 => some .f32 | 1 => some .bf16 | _ => none
/-- The type field of a float lane type. -/
def FloatTy.code : FloatTy → Nat | .f32 => 0 | .bf16 => 1
/-- R241 type field: 00 i8, 01 i16, 10 i32. -/
def IntTy.ofCode? (n : Nat) : Option IntTy :=
  match n % 4 with | 0 => some .i8 | 1 => some .i16 | 2 => some .i32 | _ => none
/-- The type field of an integer lane type. -/
def IntTy.code : IntTy → Nat | .i8 => 0 | .i16 => 1 | .i32 => 2
/-- R246, R247 type field: 00 f32, 01 bf16, 10 i32. -/
def RedTy.ofCode? (n : Nat) : Option RedTy :=
  match n % 4 with | 0 => some .f32 | 1 => some .bf16 | 2 => some .i32 | _ => none
/-- The type field of a reduction type. -/
def RedTy.code : RedTy → Nat | .f32 => 0 | .bf16 => 1 | .i32 => 2
/-- R248 type field: 00 `.w`, 01 `.h`. -/
def MoveTy.ofCode? (n : Nat) : Option MoveTy :=
  match n % 4 with | 0 => some .w | 1 => some .h | _ => none
/-- The type field of a permutation width. -/
def MoveTy.code : MoveTy → Nat | .w => 0 | .h => 1

/-- Major 0x0 (R58). -/
def decodeSys (w : Nat) : Except Reject Instr :=
  match w % 128 with
  | 0x0 => if w / 2^7 % 262144 = 0 then .ok (.nop) else .error .nonzeroField
  | 0x1 => if w / 2^7 % 262144 = 0 then .ok (.halt) else .error .nonzeroField
  | 0x2 => if w / 2^19 % 64 = 0 then .ok (.trap (BitVec.ofNat 12 (w / 2^7))) else .error .nonzeroField
  | 0x3 => if w / 2^7 % 262144 = 0 then .ok (.eret) else .error .nonzeroField
  | 0x4 => if w / 2^7 % 262144 = 0 then .ok (.brk) else .error .nonzeroField
  | 0x8 => if w / 2^7 % 262144 = 0 then .ok (.tyield) else .error .nonzeroField
  | 0x9 => if w / 2^7 % 64 = 0 then if w / 2^19 % 64 = 0 then .ok (.tsleep (BitVec.ofNat 6 (w / 2^13))) else .error .nonzeroField else .error .nonzeroField
  | 0xa => if w / 2^7 % 64 = 0 then if w / 2^19 % 64 = 0 then .ok (.twake (BitVec.ofNat 6 (w / 2^13))) else .error .nonzeroField else .error .nonzeroField
  | 0xc => .ok (.sigchk (BitVec.ofNat 18 (w / 2^7)))
  | 0x10 => if w / 2^7 % 262144 = 0 then .ok (.fenceCore) else .error .nonzeroField
  | 0x11 => if w / 2^7 % 262144 = 0 then .ok (.fenceDie) else .error .nonzeroField
  | 0x12 => if w / 2^7 % 262144 = 0 then .ok (.fencePkg) else .error .nonzeroField
  | 0x13 => if w / 2^7 % 262144 = 0 then .ok (.fenceSys) else .error .nonzeroField
  | _ => .error .reservedFunction

/-- Major 0x1 (R58). -/
def decodeCsr (w : Nat) : Except Reject Instr :=
  match w % 2 with
  | 0x0 => .ok (.csrrw (BitVec.ofNat 6 (w / 2^19)) (BitVec.ofNat 6 (w / 2^13)) (BitVec.ofNat 12 (w / 2^1)))
  | _ => .ok (.csrrs (BitVec.ofNat 6 (w / 2^19)) (BitVec.ofNat 6 (w / 2^13)) (BitVec.ofNat 12 (w / 2^1)))

/-- Major 0x2 (R58). -/
def decodeJal (w : Nat) : Except Reject Instr :=
  .ok (.jal (BitVec.ofNat 6 (w / 2^19)) (BitVec.ofNat 19 (w / 2^0)))

/-- Major 0x3 (R58). -/
def decodeJalr (w : Nat) : Except Reject Instr :=
  .ok (.jalr (BitVec.ofNat 6 (w / 2^19)) (BitVec.ofNat 6 (w / 2^13)) (BitVec.ofNat 13 (w / 2^0)))

/-- Major 0x4 (R58). -/
def decodeBeq (w : Nat) : Except Reject Instr :=
  .ok (.beq (BitVec.ofNat 6 (w / 2^19)) (BitVec.ofNat 6 (w / 2^13)) (BitVec.ofNat 13 (w / 2^0)))

/-- Major 0x5 (R58). -/
def decodeBne (w : Nat) : Except Reject Instr :=
  .ok (.bne (BitVec.ofNat 6 (w / 2^19)) (BitVec.ofNat 6 (w / 2^13)) (BitVec.ofNat 13 (w / 2^0)))

/-- Major 0x6 (R58). -/
def decodeBlt (w : Nat) : Except Reject Instr :=
  .ok (.blt (BitVec.ofNat 6 (w / 2^19)) (BitVec.ofNat 6 (w / 2^13)) (BitVec.ofNat 13 (w / 2^0)))

/-- Major 0x7 (R58). -/
def decodeBge (w : Nat) : Except Reject Instr :=
  .ok (.bge (BitVec.ofNat 6 (w / 2^19)) (BitVec.ofNat 6 (w / 2^13)) (BitVec.ofNat 13 (w / 2^0)))

/-- Major 0x8 (R58). -/
def decodeBltu (w : Nat) : Except Reject Instr :=
  .ok (.bltu (BitVec.ofNat 6 (w / 2^19)) (BitVec.ofNat 6 (w / 2^13)) (BitVec.ofNat 13 (w / 2^0)))

/-- Major 0x9 (R58). -/
def decodeBgeu (w : Nat) : Except Reject Instr :=
  .ok (.bgeu (BitVec.ofNat 6 (w / 2^19)) (BitVec.ofNat 6 (w / 2^13)) (BitVec.ofNat 13 (w / 2^0)))

/-- Major 0xa (R58). -/
def decodeLoop (w : Nat) : Except Reject Instr :=
  if w / 2^13 % 64 = 0 then if w % 8192 ≠ 0 ∧ w % 8192 < 4096 then .ok (.loop (BitVec.ofNat 6 (w / 2^19)) (BitVec.ofNat 13 (w / 2^0))) else .error .reservedValue else .error .nonzeroField

/-- Major 0xb (R58). -/
def decodeLoad (w : Nat) : Except Reject Instr :=
  if ¬ (w / 2^2 % 4 = 3 ∧ w % 2 = 1) then .ok (.load (BitVec.ofNat 6 (w / 2^19)) (BitVec.ofNat 6 (w / 2^13)) (BitVec.ofNat 9 (w / 2^4)) (Size.ofCode (w / 2^2)) (w / 2^1 % 2 == 1) (w / 2^0 % 2 == 1)) else .error .reservedValue

/-- Major 0xc (R58). -/
def decodeStore (w : Nat) : Except Reject Instr :=
  .ok (.store (BitVec.ofNat 6 (w / 2^19)) (BitVec.ofNat 6 (w / 2^13)) (BitVec.ofNat 9 (w / 2^4)) (Size.ofCode (w / 2^2)) (w / 2^1 % 2 == 1) (w / 2^0 % 2 == 1))

/-- Major 0xd (R58). -/
def decodeLdaStl (w : Nat) : Except Reject Instr :=
  match w / 2^12 % 2 with
  | 0x0 => if w / 2^11 % 2 = 0 then .ok (.lda (BitVec.ofNat 6 (w / 2^19)) (BitVec.ofNat 6 (w / 2^13)) (BitVec.ofNat 7 (w / 2^4)) (Size.ofCode (w / 2^2)) (Scope.ofCode (w / 2^0))) else .error .nonzeroField
  | _ => .ok (.stl (BitVec.ofNat 6 (w / 2^19)) (BitVec.ofNat 6 (w / 2^13)) (w / 2^11 % 2 == 1) (BitVec.ofNat 7 (w / 2^4)) (Size.ofCode (w / 2^2)) (Scope.ofCode (w / 2^0)))

/-- Major 0xe (R58). -/
def decodeAmo (w : Nat) : Except Reject Instr :=
  match w / 2^3 % 16 with
  | 0x0 => .ok (.amoAdd (BitVec.ofNat 6 (w / 2^19)) (BitVec.ofNat 6 (w / 2^13)) (BitVec.ofNat 6 (w / 2^7)) (AmoTy.ofCode (w / 2^1)) (w / 2^0 % 2 == 1))
  | 0x1 => match IntSize.ofCode? (w / 2^1) with | some ty => .ok (.amoAnd (BitVec.ofNat 6 (w / 2^19)) (BitVec.ofNat 6 (w / 2^13)) (BitVec.ofNat 6 (w / 2^7)) ty (w / 2^0 % 2 == 1)) | none => .error .reservedValue
  | 0x2 => match IntSize.ofCode? (w / 2^1) with | some ty => .ok (.amoOr (BitVec.ofNat 6 (w / 2^19)) (BitVec.ofNat 6 (w / 2^13)) (BitVec.ofNat 6 (w / 2^7)) ty (w / 2^0 % 2 == 1)) | none => .error .reservedValue
  | 0x3 => match IntSize.ofCode? (w / 2^1) with | some ty => .ok (.amoXor (BitVec.ofNat 6 (w / 2^19)) (BitVec.ofNat 6 (w / 2^13)) (BitVec.ofNat 6 (w / 2^7)) ty (w / 2^0 % 2 == 1)) | none => .error .reservedValue
  | 0x4 => match IntSize.ofCode? (w / 2^1) with | some ty => .ok (.amoMin (BitVec.ofNat 6 (w / 2^19)) (BitVec.ofNat 6 (w / 2^13)) (BitVec.ofNat 6 (w / 2^7)) ty (w / 2^0 % 2 == 1)) | none => .error .reservedValue
  | 0x5 => match IntSize.ofCode? (w / 2^1) with | some ty => .ok (.amoMax (BitVec.ofNat 6 (w / 2^19)) (BitVec.ofNat 6 (w / 2^13)) (BitVec.ofNat 6 (w / 2^7)) ty (w / 2^0 % 2 == 1)) | none => .error .reservedValue
  | 0x6 => match IntSize.ofCode? (w / 2^1) with | some ty => .ok (.amoMinu (BitVec.ofNat 6 (w / 2^19)) (BitVec.ofNat 6 (w / 2^13)) (BitVec.ofNat 6 (w / 2^7)) ty (w / 2^0 % 2 == 1)) | none => .error .reservedValue
  | 0x7 => match IntSize.ofCode? (w / 2^1) with | some ty => .ok (.amoMaxu (BitVec.ofNat 6 (w / 2^19)) (BitVec.ofNat 6 (w / 2^13)) (BitVec.ofNat 6 (w / 2^7)) ty (w / 2^0 % 2 == 1)) | none => .error .reservedValue
  | 0x8 => match IntSize.ofCode? (w / 2^1) with | some ty => .ok (.amoSwap (BitVec.ofNat 6 (w / 2^19)) (BitVec.ofNat 6 (w / 2^13)) (BitVec.ofNat 6 (w / 2^7)) ty (w / 2^0 % 2 == 1)) | none => .error .reservedValue
  | 0x9 => match IntSize.ofCode? (w / 2^1) with | some ty => .ok (.amoCas (BitVec.ofNat 6 (w / 2^19)) (BitVec.ofNat 6 (w / 2^13)) (BitVec.ofNat 6 (w / 2^7)) ty (w / 2^0 % 2 == 1)) | none => .error .reservedValue
  | _ => .error .reservedFunction

/-- Major 0xf (R58). -/
def decodeGetrPutr (w : Nat) : Except Reject Instr :=
  match w / 2^3 % 16 with
  | 0x0 => match IntSize.ofCode? (w / 2^1) with | some ty => if w / 2^0 % 2 = 0 then if w / 2^7 % 64 = 0 then .ok (.getr (BitVec.ofNat 6 (w / 2^19)) (BitVec.ofNat 6 (w / 2^13)) ty) else .error .nonzeroField else .error .nonzeroField | none => .error .reservedValue
  | 0x1 => match IntSize.ofCode? (w / 2^1) with | some ty => if w / 2^19 % 64 = 0 then .ok (.putr (BitVec.ofNat 6 (w / 2^13)) (BitVec.ofNat 6 (w / 2^7)) ty (w / 2^0 % 2 == 1)) else .error .nonzeroField | none => .error .reservedValue
  | _ => .error .reservedFunction

/-- Major 0x10 (R58). -/
def decodeCopy (w : Nat) : Except Reject Instr :=
  match w / 2^3 % 16 with
  | 0x0 => if w / 2^0 % 8 = 0 then .ok (.get (BitVec.ofNat 6 (w / 2^19)) (BitVec.ofNat 6 (w / 2^13)) (BitVec.ofNat 6 (w / 2^7))) else .error .nonzeroField
  | 0x1 => if w / 2^1 % 4 = 0 then .ok (.put (BitVec.ofNat 6 (w / 2^19)) (BitVec.ofNat 6 (w / 2^13)) (BitVec.ofNat 6 (w / 2^7)) (w / 2^0 % 2 == 1)) else .error .nonzeroField
  | 0x2 => if w / 2^0 % 8 = 0 then if w / 2^7 % 64 = 0 then .ok (.cpop (BitVec.ofNat 6 (w / 2^19)) (BitVec.ofNat 6 (w / 2^13))) else .error .nonzeroField else .error .nonzeroField
  | 0x3 => if w / 2^0 % 8 = 0 then if w / 2^7 % 262144 = 0 then .ok (.cwait) else .error .nonzeroField else .error .nonzeroField
  | _ => .error .reservedFunction

/-- Major 0x11 (R58). -/
def decodeMsg (w : Nat) : Except Reject Instr :=
  match w % 128 with
  | 0x0 => if w / 2^12 % 2 = 0 then .ok (.send (BitVec.ofNat 6 (w / 2^19)) (BitVec.ofNat 6 (w / 2^13)) (BitVec.ofNat 5 (w / 2^7))) else .error .noRegister
  | 0x1 => if w / 2^12 % 2 = 0 then .ok (.recv (BitVec.ofNat 6 (w / 2^19)) (BitVec.ofNat 6 (w / 2^13)) (BitVec.ofNat 5 (w / 2^7))) else .error .noRegister
  | 0x2 => if w / 2^12 % 2 = 0 then .ok (.rpoll (BitVec.ofNat 6 (w / 2^19)) (BitVec.ofNat 6 (w / 2^13)) (BitVec.ofNat 5 (w / 2^7))) else .error .noRegister
  | _ => .error .reservedFunction

/-- Major 0x12 (R58). -/
def decodeBar (w : Nat) : Except Reject Instr :=
  match w % 128 with
  | 0x0 => if w / 2^11 % 4 = 0 then if w / 2^13 % 4096 = 0 then .ok (.bar (BitVec.ofNat 4 (w / 2^7))) else .error .nonzeroField else .error .noRegister
  | 0x1 => if w / 2^11 % 4 = 0 then if w / 2^13 % 4096 = 0 then .ok (.step (BitVec.ofNat 4 (w / 2^7))) else .error .nonzeroField else .error .noRegister
  | 0x2 => if w / 2^11 % 4 = 0 then .ok (.bdom (BitVec.ofNat 6 (w / 2^19)) (BitVec.ofNat 6 (w / 2^13)) (BitVec.ofNat 4 (w / 2^7))) else .error .noRegister
  | _ => .error .reservedFunction

/-- Major 0x13 (R58). -/
def decodeWeir (w : Nat) : Except Reject Instr :=
  match w % 128 with
  | 0x0 => .ok (.weirCadd (BitVec.ofNat 6 (w / 2^19)) (BitVec.ofNat 6 (w / 2^13)) (BitVec.ofNat 6 (w / 2^7)))
  | 0x1 => if w / 2^7 % 64 = 0 then .ok (.weirCread (BitVec.ofNat 6 (w / 2^19)) (BitVec.ofNat 6 (w / 2^13))) else .error .nonzeroField
  | 0x2 => .ok (.weirCswap (BitVec.ofNat 6 (w / 2^19)) (BitVec.ofNat 6 (w / 2^13)) (BitVec.ofNat 6 (w / 2^7)))
  | 0x8 => if w / 2^7 % 64 = 0 then if w / 2^19 % 64 = 0 then .ok (.weirSwait (BitVec.ofNat 6 (w / 2^13))) else .error .nonzeroField else .error .nonzeroField
  | 0x9 => if w / 2^7 % 64 = 0 then if w / 2^19 % 64 = 0 then .ok (.weirSpost (BitVec.ofNat 6 (w / 2^13))) else .error .nonzeroField else .error .nonzeroField
  | 0xa => if w / 2^7 % 64 = 0 then .ok (.weirStry (BitVec.ofNat 6 (w / 2^19)) (BitVec.ofNat 6 (w / 2^13))) else .error .nonzeroField
  | _ => .error .reservedFunction

/-- Major 0x14 (R58). -/
def decodeFlume (w : Nat) : Except Reject Instr :=
  match w % 128 with
  | 0x0 => if w / 2^11 % 4 = 0 then if w / 2^19 % 64 = 0 then .ok (.fcfg (BitVec.ofNat 6 (w / 2^13)) (BitVec.ofNat 4 (w / 2^7))) else .error .nonzeroField else .error .noRegister
  | 0x1 => if w / 2^11 % 4 = 0 then if w / 2^19 % 64 = 0 then .ok (.fwaitf (BitVec.ofNat 6 (w / 2^13)) (BitVec.ofNat 4 (w / 2^7))) else .error .nonzeroField else .error .noRegister
  | 0x2 => if w / 2^11 % 4 = 0 then if w / 2^19 % 64 = 0 then .ok (.fwaite (BitVec.ofNat 6 (w / 2^13)) (BitVec.ofNat 4 (w / 2^7))) else .error .nonzeroField else .error .noRegister
  | 0x3 => if w / 2^11 % 4 = 0 then if w / 2^19 % 64 = 0 then .ok (.fprod (BitVec.ofNat 6 (w / 2^13)) (BitVec.ofNat 4 (w / 2^7))) else .error .nonzeroField else .error .noRegister
  | 0x4 => if w / 2^11 % 4 = 0 then if w / 2^19 % 64 = 0 then .ok (.fcons (BitVec.ofNat 6 (w / 2^13)) (BitVec.ofNat 4 (w / 2^7))) else .error .nonzeroField else .error .noRegister
  | 0x5 => if w / 2^11 % 4 = 0 then if w / 2^13 % 64 = 0 then .ok (.frd (BitVec.ofNat 6 (w / 2^19)) (BitVec.ofNat 4 (w / 2^7))) else .error .nonzeroField else .error .noRegister
  | _ => .error .reservedFunction

/-- Major 0x15 (R58). -/
def decodeResv (w : Nat) : Except Reject Instr :=
  match w % 128 with
  | 0x0 => if w / 2^7 % 64 = 0 then .ok (.rsv (BitVec.ofNat 6 (w / 2^19)) (BitVec.ofNat 6 (w / 2^13))) else .error .nonzeroField
  | 0x1 => if w / 2^7 % 64 = 0 then .ok (.rsvW (BitVec.ofNat 6 (w / 2^19)) (BitVec.ofNat 6 (w / 2^13))) else .error .nonzeroField
  | 0x2 => if w / 2^7 % 64 = 0 then .ok (.rsvP (BitVec.ofNat 6 (w / 2^19)) (BitVec.ofNat 6 (w / 2^13))) else .error .nonzeroField
  | 0x3 => if w / 2^7 % 64 = 0 then .ok (.rsvWP (BitVec.ofNat 6 (w / 2^19)) (BitVec.ofNat 6 (w / 2^13))) else .error .nonzeroField
  | 0x4 => if w / 2^7 % 64 = 0 then if w / 2^19 % 64 = 0 then .ok (.spnd (BitVec.ofNat 6 (w / 2^13))) else .error .nonzeroField else .error .nonzeroField
  | 0x5 => if w / 2^7 % 4096 = 0 then .ok (.rrel (BitVec.ofNat 6 (w / 2^19))) else .error .nonzeroField
  | 0x6 => if w / 2^7 % 4096 = 0 then .ok (.rfill (BitVec.ofNat 6 (w / 2^19))) else .error .nonzeroField
  | 0x7 => if w / 2^7 % 64 = 0 then if w / 2^19 % 64 = 0 then .ok (.rwait (BitVec.ofNat 6 (w / 2^13))) else .error .nonzeroField else .error .nonzeroField
  | 0x8 => if w / 2^9 % 16 = 0 then if w / 2^13 % 4096 = 0 then .ok (.sprint (BitVec.ofNat 2 (w / 2^7))) else .error .nonzeroField else .error .noRegister
  | _ => .error .reservedFunction

/-- Major 0x16 (R58). -/
def decodeSpore (w : Nat) : Except Reject Instr :=
  match w % 128 with
  | 0x0 => if w / 2^7 % 64 = 0 then .ok (.spore (BitVec.ofNat 6 (w / 2^19)) (BitVec.ofNat 6 (w / 2^13))) else .error .nonzeroField
  | _ => .error .reservedFunction

/-- Major 0x17 (R58). -/
def decodeLaunch (w : Nat) : Except Reject Instr :=
  match w % 128 with
  | 0x0 => if w / 2^7 % 64 = 0 then .ok (.larm (BitVec.ofNat 6 (w / 2^19)) (BitVec.ofNat 6 (w / 2^13))) else .error .nonzeroField
  | 0x1 => .ok (.lpatchPrio (BitVec.ofNat 6 (w / 2^19)) (BitVec.ofNat 6 (w / 2^13)) (BitVec.ofNat 6 (w / 2^7)))
  | 0x2 => .ok (.lpatchArg (BitVec.ofNat 6 (w / 2^19)) (BitVec.ofNat 6 (w / 2^13)) (BitVec.ofNat 6 (w / 2^7)))
  | 0x3 => .ok (.lpatchCount (BitVec.ofNat 6 (w / 2^19)) (BitVec.ofNat 6 (w / 2^13)) (BitVec.ofNat 6 (w / 2^7)))
  | 0x4 => .ok (.lpatchDone (BitVec.ofNat 6 (w / 2^19)) (BitVec.ofNat 6 (w / 2^13)) (BitVec.ofNat 6 (w / 2^7)))
  | _ => .error .reservedFunction

/-- Major 0x18 (R58). -/
def decodeVmem (w : Nat) : Except Reject Instr :=
  match w / 2^5 % 8 with
  | 0x0 => match Elem.ofCode? (w / 2^3) with | some e => if w / 2^0 % 8 = 0 then .ok (.vld (BitVec.ofNat 5 (w / 2^20)) (BitVec.ofNat 6 (w / 2^14)) (BitVec.ofNat 6 (w / 2^8)) e) else .error .nonzeroField | none => .error .reservedValue
  | 0x1 => match Elem.ofCode? (w / 2^3) with | some e => if w / 2^0 % 8 = 0 then .ok (.vlds (BitVec.ofNat 5 (w / 2^20)) (BitVec.ofNat 6 (w / 2^14)) (BitVec.ofNat 6 (w / 2^8)) e) else .error .nonzeroField | none => .error .reservedValue
  | 0x2 => match Elem.ofCode? (w / 2^3) with | some e => if w / 2^0 % 8 = 0 then .ok (.vldf (BitVec.ofNat 5 (w / 2^20)) (BitVec.ofNat 6 (w / 2^14)) (BitVec.ofNat 6 (w / 2^8)) e) else .error .nonzeroField | none => .error .reservedValue
  | 0x4 => match Elem.ofCode? (w / 2^3) with | some e => if w / 2^0 % 8 = 0 then .ok (.vst (BitVec.ofNat 5 (w / 2^20)) (BitVec.ofNat 6 (w / 2^14)) (BitVec.ofNat 6 (w / 2^8)) e) else .error .nonzeroField | none => .error .reservedValue
  | 0x5 => match Elem.ofCode? (w / 2^3) with | some e => if w / 2^0 % 8 = 0 then .ok (.vsts (BitVec.ofNat 5 (w / 2^20)) (BitVec.ofNat 6 (w / 2^14)) (BitVec.ofNat 6 (w / 2^8)) e) else .error .nonzeroField | none => .error .reservedValue
  | 0x6 => match Elem.ofCode? (w / 2^3) with | some e => if w / 2^0 % 8 = 0 then .ok (.vstf (BitVec.ofNat 5 (w / 2^20)) (BitVec.ofNat 6 (w / 2^14)) (BitVec.ofNat 6 (w / 2^8)) e) else .error .nonzeroField | none => .error .reservedValue
  | _ => .error .reservedFunction

/-- Major 0x19 (R58). -/
def decodeVctl (w : Nat) : Except Reject Instr :=
  match w % 128 with
  | 0x0 => if w / 2^7 % 64 = 0 then .ok (.vsetl (BitVec.ofNat 6 (w / 2^19)) (BitVec.ofNat 6 (w / 2^13))) else .error .nonzeroField
  | 0x1 => if w / 2^19 % 64 = 0 then if 1 ≤ w / 2^7 % 64 ∧ w / 2^7 % 64 ≤ 16 then .ok (.vloop (BitVec.ofNat 6 (w / 2^13)) (BitVec.ofNat 6 (w / 2^7))) else .error .reservedValue else .error .nonzeroField
  | 0x2 => if w / 2^21 % 16 = 7 then if w / 2^11 % 4 = 0 then .ok (.sbind (BitVec.ofNat 2 (w / 2^19)) (BitVec.ofNat 6 (w / 2^13)) (BitVec.ofNat 4 (w / 2^7))) else .error .noRegister else .error .noRegister
  | 0x3 => if w / 2^21 % 16 = 7 then if w / 2^7 % 4096 = 0 then .ok (.sunbind (BitVec.ofNat 2 (w / 2^19))) else .error .nonzeroField else .error .noRegister
  | 0x4 => if w / 2^12 % 2 = 0 then .ok (.vmovxXv (BitVec.ofNat 6 (w / 2^19)) (BitVec.ofNat 6 (w / 2^13)) (BitVec.ofNat 5 (w / 2^7))) else .error .noRegister
  | 0x5 => if w / 2^24 % 2 = 0 then .ok (.vmovxVx (BitVec.ofNat 5 (w / 2^19)) (BitVec.ofNat 6 (w / 2^13)) (BitVec.ofNat 6 (w / 2^7))) else .error .noRegister
  | _ => .error .reservedFunction

/-- Major 0x20 (R64). -/
def decodeInt (w : Nat) : Except Reject Instr :=
  match w % 128 with
  | 0x0 => .ok (.add (BitVec.ofNat 6 (w / 2^19)) (BitVec.ofNat 6 (w / 2^13)) (BitVec.ofNat 6 (w / 2^7)))
  | 0x1 => .ok (.sub (BitVec.ofNat 6 (w / 2^19)) (BitVec.ofNat 6 (w / 2^13)) (BitVec.ofNat 6 (w / 2^7)))
  | 0x2 => .ok (.and (BitVec.ofNat 6 (w / 2^19)) (BitVec.ofNat 6 (w / 2^13)) (BitVec.ofNat 6 (w / 2^7)))
  | 0x3 => .ok (.or (BitVec.ofNat 6 (w / 2^19)) (BitVec.ofNat 6 (w / 2^13)) (BitVec.ofNat 6 (w / 2^7)))
  | 0x4 => .ok (.xor (BitVec.ofNat 6 (w / 2^19)) (BitVec.ofNat 6 (w / 2^13)) (BitVec.ofNat 6 (w / 2^7)))
  | 0x5 => .ok (.sll (BitVec.ofNat 6 (w / 2^19)) (BitVec.ofNat 6 (w / 2^13)) (BitVec.ofNat 6 (w / 2^7)))
  | 0x6 => .ok (.srl (BitVec.ofNat 6 (w / 2^19)) (BitVec.ofNat 6 (w / 2^13)) (BitVec.ofNat 6 (w / 2^7)))
  | 0x7 => .ok (.sra (BitVec.ofNat 6 (w / 2^19)) (BitVec.ofNat 6 (w / 2^13)) (BitVec.ofNat 6 (w / 2^7)))
  | 0x8 => .ok (.slt (BitVec.ofNat 6 (w / 2^19)) (BitVec.ofNat 6 (w / 2^13)) (BitVec.ofNat 6 (w / 2^7)))
  | 0x9 => .ok (.sltu (BitVec.ofNat 6 (w / 2^19)) (BitVec.ofNat 6 (w / 2^13)) (BitVec.ofNat 6 (w / 2^7)))
  | 0xa => .ok (.min (BitVec.ofNat 6 (w / 2^19)) (BitVec.ofNat 6 (w / 2^13)) (BitVec.ofNat 6 (w / 2^7)))
  | 0xb => .ok (.max (BitVec.ofNat 6 (w / 2^19)) (BitVec.ofNat 6 (w / 2^13)) (BitVec.ofNat 6 (w / 2^7)))
  | 0xc => .ok (.minu (BitVec.ofNat 6 (w / 2^19)) (BitVec.ofNat 6 (w / 2^13)) (BitVec.ofNat 6 (w / 2^7)))
  | 0xd => .ok (.maxu (BitVec.ofNat 6 (w / 2^19)) (BitVec.ofNat 6 (w / 2^13)) (BitVec.ofNat 6 (w / 2^7)))
  | 0x10 => .ok (.mul (BitVec.ofNat 6 (w / 2^19)) (BitVec.ofNat 6 (w / 2^13)) (BitVec.ofNat 6 (w / 2^7)))
  | 0x11 => .ok (.mulhiSs (BitVec.ofNat 6 (w / 2^19)) (BitVec.ofNat 6 (w / 2^13)) (BitVec.ofNat 6 (w / 2^7)))
  | 0x12 => .ok (.mulhiUu (BitVec.ofNat 6 (w / 2^19)) (BitVec.ofNat 6 (w / 2^13)) (BitVec.ofNat 6 (w / 2^7)))
  | 0x13 => .ok (.mulhiSu (BitVec.ofNat 6 (w / 2^19)) (BitVec.ofNat 6 (w / 2^13)) (BitVec.ofNat 6 (w / 2^7)))
  | 0x14 => .ok (.div (BitVec.ofNat 6 (w / 2^19)) (BitVec.ofNat 6 (w / 2^13)) (BitVec.ofNat 6 (w / 2^7)))
  | 0x15 => .ok (.divu (BitVec.ofNat 6 (w / 2^19)) (BitVec.ofNat 6 (w / 2^13)) (BitVec.ofNat 6 (w / 2^7)))
  | 0x16 => .ok (.rem (BitVec.ofNat 6 (w / 2^19)) (BitVec.ofNat 6 (w / 2^13)) (BitVec.ofNat 6 (w / 2^7)))
  | 0x17 => .ok (.remu (BitVec.ofNat 6 (w / 2^19)) (BitVec.ofNat 6 (w / 2^13)) (BitVec.ofNat 6 (w / 2^7)))
  | 0x20 => .ok (.addw (BitVec.ofNat 6 (w / 2^19)) (BitVec.ofNat 6 (w / 2^13)) (BitVec.ofNat 6 (w / 2^7)))
  | 0x21 => .ok (.subw (BitVec.ofNat 6 (w / 2^19)) (BitVec.ofNat 6 (w / 2^13)) (BitVec.ofNat 6 (w / 2^7)))
  | 0x22 => .ok (.sllw (BitVec.ofNat 6 (w / 2^19)) (BitVec.ofNat 6 (w / 2^13)) (BitVec.ofNat 6 (w / 2^7)))
  | 0x23 => .ok (.srlw (BitVec.ofNat 6 (w / 2^19)) (BitVec.ofNat 6 (w / 2^13)) (BitVec.ofNat 6 (w / 2^7)))
  | 0x24 => .ok (.sraw (BitVec.ofNat 6 (w / 2^19)) (BitVec.ofNat 6 (w / 2^13)) (BitVec.ofNat 6 (w / 2^7)))
  | 0x25 => .ok (.mulw (BitVec.ofNat 6 (w / 2^19)) (BitVec.ofNat 6 (w / 2^13)) (BitVec.ofNat 6 (w / 2^7)))
  | 0x26 => .ok (.divw (BitVec.ofNat 6 (w / 2^19)) (BitVec.ofNat 6 (w / 2^13)) (BitVec.ofNat 6 (w / 2^7)))
  | 0x27 => .ok (.divuw (BitVec.ofNat 6 (w / 2^19)) (BitVec.ofNat 6 (w / 2^13)) (BitVec.ofNat 6 (w / 2^7)))
  | 0x28 => .ok (.remw (BitVec.ofNat 6 (w / 2^19)) (BitVec.ofNat 6 (w / 2^13)) (BitVec.ofNat 6 (w / 2^7)))
  | 0x29 => .ok (.remuw (BitVec.ofNat 6 (w / 2^19)) (BitVec.ofNat 6 (w / 2^13)) (BitVec.ofNat 6 (w / 2^7)))
  | _ => .error .reservedFunction

/-- Major 0x21 (R64). -/
def decodeAddi (w : Nat) : Except Reject Instr :=
  .ok (.addi (BitVec.ofNat 6 (w / 2^19)) (BitVec.ofNat 6 (w / 2^13)) (BitVec.ofNat 13 (w / 2^0)))

/-- Major 0x22 (R64). -/
def decodeAndi (w : Nat) : Except Reject Instr :=
  .ok (.andi (BitVec.ofNat 6 (w / 2^19)) (BitVec.ofNat 6 (w / 2^13)) (BitVec.ofNat 13 (w / 2^0)))

/-- Major 0x23 (R64). -/
def decodeOri (w : Nat) : Except Reject Instr :=
  .ok (.ori (BitVec.ofNat 6 (w / 2^19)) (BitVec.ofNat 6 (w / 2^13)) (BitVec.ofNat 13 (w / 2^0)))

/-- Major 0x24 (R64). -/
def decodeXori (w : Nat) : Except Reject Instr :=
  .ok (.xori (BitVec.ofNat 6 (w / 2^19)) (BitVec.ofNat 6 (w / 2^13)) (BitVec.ofNat 13 (w / 2^0)))

/-- Major 0x25 (R64). -/
def decodeSlti (w : Nat) : Except Reject Instr :=
  .ok (.slti (BitVec.ofNat 6 (w / 2^19)) (BitVec.ofNat 6 (w / 2^13)) (BitVec.ofNat 13 (w / 2^0)))

/-- Major 0x26 (R64). -/
def decodeSltiu (w : Nat) : Except Reject Instr :=
  .ok (.sltiu (BitVec.ofNat 6 (w / 2^19)) (BitVec.ofNat 6 (w / 2^13)) (BitVec.ofNat 13 (w / 2^0)))

/-- Major 0x27 (R64). -/
def decodeShifti (w : Nat) : Except Reject Instr :=
  match w / 2^6 % 128 with
  | 0x0 => .ok (.slli (BitVec.ofNat 6 (w / 2^19)) (BitVec.ofNat 6 (w / 2^13)) (BitVec.ofNat 6 (w / 2^0)))
  | 0x1 => .ok (.srli (BitVec.ofNat 6 (w / 2^19)) (BitVec.ofNat 6 (w / 2^13)) (BitVec.ofNat 6 (w / 2^0)))
  | 0x2 => .ok (.srai (BitVec.ofNat 6 (w / 2^19)) (BitVec.ofNat 6 (w / 2^13)) (BitVec.ofNat 6 (w / 2^0)))
  | 0x4 => if w / 2^5 % 2 = 0 then .ok (.slliw (BitVec.ofNat 6 (w / 2^19)) (BitVec.ofNat 6 (w / 2^13)) (BitVec.ofNat 5 (w / 2^0))) else .error .nonzeroField
  | 0x5 => if w / 2^5 % 2 = 0 then .ok (.srliw (BitVec.ofNat 6 (w / 2^19)) (BitVec.ofNat 6 (w / 2^13)) (BitVec.ofNat 5 (w / 2^0))) else .error .nonzeroField
  | 0x6 => if w / 2^5 % 2 = 0 then .ok (.sraiw (BitVec.ofNat 6 (w / 2^19)) (BitVec.ofNat 6 (w / 2^13)) (BitVec.ofNat 5 (w / 2^0))) else .error .nonzeroField
  | _ => .error .reservedFunction

/-- Major 0x28 (R64). -/
def decodeLui (w : Nat) : Except Reject Instr :=
  .ok (.lui (BitVec.ofNat 6 (w / 2^19)) (BitVec.ofNat 19 (w / 2^0)))

/-- Major 0x29 (R64). -/
def decodeAuipc (w : Nat) : Except Reject Instr :=
  .ok (.auipc (BitVec.ofNat 6 (w / 2^19)) (BitVec.ofNat 19 (w / 2^0)))

/-- Major 0x2a (R64). -/
def decodeBits (w : Nat) : Except Reject Instr :=
  match w % 128 with
  | 0x0 => if w / 2^7 % 64 = 0 then .ok (.clz (BitVec.ofNat 6 (w / 2^19)) (BitVec.ofNat 6 (w / 2^13))) else .error .nonzeroField
  | 0x1 => if w / 2^7 % 64 = 0 then .ok (.ctz (BitVec.ofNat 6 (w / 2^19)) (BitVec.ofNat 6 (w / 2^13))) else .error .nonzeroField
  | 0x2 => if w / 2^7 % 64 = 0 then .ok (.popc (BitVec.ofNat 6 (w / 2^19)) (BitVec.ofNat 6 (w / 2^13))) else .error .nonzeroField
  | 0x3 => .ok (.bext (BitVec.ofNat 6 (w / 2^19)) (BitVec.ofNat 6 (w / 2^13)) (BitVec.ofNat 6 (w / 2^7)))
  | 0x4 => .ok (.bins (BitVec.ofNat 6 (w / 2^19)) (BitVec.ofNat 6 (w / 2^13)) (BitVec.ofNat 6 (w / 2^7)))
  | 0x5 => .ok (.sext (BitVec.ofNat 6 (w / 2^19)) (BitVec.ofNat 6 (w / 2^13)) (BitVec.ofNat 6 (w / 2^7)))
  | 0x6 => .ok (.zext (BitVec.ofNat 6 (w / 2^19)) (BitVec.ofNat 6 (w / 2^13)) (BitVec.ofNat 6 (w / 2^7)))
  | 0x7 => .ok (.lea (BitVec.ofNat 6 (w / 2^19)) (BitVec.ofNat 6 (w / 2^13)) (BitVec.ofNat 6 (w / 2^7)))
  | 0x8 => .ok (.lea2 (BitVec.ofNat 6 (w / 2^19)) (BitVec.ofNat 6 (w / 2^13)) (BitVec.ofNat 6 (w / 2^7)))
  | 0x9 => .ok (.lea4 (BitVec.ofNat 6 (w / 2^19)) (BitVec.ofNat 6 (w / 2^13)) (BitVec.ofNat 6 (w / 2^7)))
  | 0xa => .ok (.lea8 (BitVec.ofNat 6 (w / 2^19)) (BitVec.ofNat 6 (w / 2^13)) (BitVec.ofNat 6 (w / 2^7)))
  | _ => .error .reservedFunction

/-- Major 0x2b (R64). -/
def decodeFlt (w : Nat) : Except Reject Instr :=
  match w / 2^3 % 16 with
  | 0x0 => match Rounding.ofCode? (w / 2^0) with | some rm => .ok (.fadd (BitVec.ofNat 6 (w / 2^19)) (BitVec.ofNat 6 (w / 2^13)) (BitVec.ofNat 6 (w / 2^7)) rm) | none => .error .reservedValue
  | 0x1 => match Rounding.ofCode? (w / 2^0) with | some rm => .ok (.fsub (BitVec.ofNat 6 (w / 2^19)) (BitVec.ofNat 6 (w / 2^13)) (BitVec.ofNat 6 (w / 2^7)) rm) | none => .error .reservedValue
  | 0x2 => match Rounding.ofCode? (w / 2^0) with | some rm => .ok (.fmul (BitVec.ofNat 6 (w / 2^19)) (BitVec.ofNat 6 (w / 2^13)) (BitVec.ofNat 6 (w / 2^7)) rm) | none => .error .reservedValue
  | 0x3 => match Rounding.ofCode? (w / 2^0) with | some rm => .ok (.fdiv (BitVec.ofNat 6 (w / 2^19)) (BitVec.ofNat 6 (w / 2^13)) (BitVec.ofNat 6 (w / 2^7)) rm) | none => .error .reservedValue
  | 0x4 => match Rounding.ofCode? (w / 2^0) with | some rm => if w / 2^7 % 64 = 0 then .ok (.fsqrt (BitVec.ofNat 6 (w / 2^19)) (BitVec.ofNat 6 (w / 2^13)) rm) else .error .nonzeroField | none => .error .reservedValue
  | 0x5 => if w / 2^0 % 8 = 0 then .ok (.fmin (BitVec.ofNat 6 (w / 2^19)) (BitVec.ofNat 6 (w / 2^13)) (BitVec.ofNat 6 (w / 2^7))) else .error .nonzeroField
  | 0x6 => if w / 2^0 % 8 = 0 then .ok (.fmax (BitVec.ofNat 6 (w / 2^19)) (BitVec.ofNat 6 (w / 2^13)) (BitVec.ofNat 6 (w / 2^7))) else .error .nonzeroField
  | 0x7 => if w / 2^0 % 8 = 0 then .ok (.feq (BitVec.ofNat 6 (w / 2^19)) (BitVec.ofNat 6 (w / 2^13)) (BitVec.ofNat 6 (w / 2^7))) else .error .nonzeroField
  | 0x8 => if w / 2^0 % 8 = 0 then .ok (.fclt (BitVec.ofNat 6 (w / 2^19)) (BitVec.ofNat 6 (w / 2^13)) (BitVec.ofNat 6 (w / 2^7))) else .error .nonzeroField
  | 0x9 => if w / 2^0 % 8 = 0 then .ok (.fcle (BitVec.ofNat 6 (w / 2^19)) (BitVec.ofNat 6 (w / 2^13)) (BitVec.ofNat 6 (w / 2^7))) else .error .nonzeroField
  | 0xa => match Rounding.ofCode? (w / 2^0) with | some rm => if w / 2^7 % 64 = 0 then .ok (.ftoiW (BitVec.ofNat 6 (w / 2^19)) (BitVec.ofNat 6 (w / 2^13)) rm) else .error .nonzeroField | none => .error .reservedValue
  | 0xb => match Rounding.ofCode? (w / 2^0) with | some rm => if w / 2^7 % 64 = 0 then .ok (.ftoiL (BitVec.ofNat 6 (w / 2^19)) (BitVec.ofNat 6 (w / 2^13)) rm) else .error .nonzeroField | none => .error .reservedValue
  | 0xc => match Rounding.ofCode? (w / 2^0) with | some rm => if w / 2^7 % 64 = 0 then .ok (.itofW (BitVec.ofNat 6 (w / 2^19)) (BitVec.ofNat 6 (w / 2^13)) rm) else .error .nonzeroField | none => .error .reservedValue
  | 0xd => match Rounding.ofCode? (w / 2^0) with | some rm => if w / 2^7 % 64 = 0 then .ok (.itofL (BitVec.ofNat 6 (w / 2^19)) (BitVec.ofNat 6 (w / 2^13)) rm) else .error .nonzeroField | none => .error .reservedValue
  | 0xe => if w / 2^0 % 8 = 0 then if w / 2^7 % 64 = 0 then .ok (.fabs (BitVec.ofNat 6 (w / 2^19)) (BitVec.ofNat 6 (w / 2^13))) else .error .nonzeroField else .error .nonzeroField
  | _ => if w / 2^0 % 8 = 0 then if w / 2^7 % 64 = 0 then .ok (.fneg (BitVec.ofNat 6 (w / 2^19)) (BitVec.ofNat 6 (w / 2^13))) else .error .nonzeroField else .error .nonzeroField

/-- Major 0x2c (R64). -/
def decodeFma (w : Nat) : Except Reject Instr :=
  match w % 2 with
  | 0x0 => .ok (.fmaS (BitVec.ofNat 6 (w / 2^19)) (BitVec.ofNat 6 (w / 2^13)) (BitVec.ofNat 6 (w / 2^7)) (BitVec.ofNat 6 (w / 2^1)))
  | _ => .ok (.fmsS (BitVec.ofNat 6 (w / 2^19)) (BitVec.ofNat 6 (w / 2^13)) (BitVec.ofNat 6 (w / 2^7)) (BitVec.ofNat 6 (w / 2^1)))

/-- Major 0x2d (R64). -/
def decodeVarith (w : Nat) : Except Reject Instr :=
  match w % 64 with
  | 0x0 => match FloatTy.ofCode? (w / 2^6) with | some ty => .ok (.varithVadd (BitVec.ofNat 5 (w / 2^20)) (BitVec.ofNat 5 (w / 2^15)) (BitVec.ofNat 5 (w / 2^10)) (w / 2^9 % 2 == 1) (w / 2^8 % 2 == 1) ty) | none => .error .reservedValue
  | 0x1 => match FloatTy.ofCode? (w / 2^6) with | some ty => .ok (.varithVsub (BitVec.ofNat 5 (w / 2^20)) (BitVec.ofNat 5 (w / 2^15)) (BitVec.ofNat 5 (w / 2^10)) (w / 2^9 % 2 == 1) (w / 2^8 % 2 == 1) ty) | none => .error .reservedValue
  | 0x2 => match FloatTy.ofCode? (w / 2^6) with | some ty => .ok (.varithVmul (BitVec.ofNat 5 (w / 2^20)) (BitVec.ofNat 5 (w / 2^15)) (BitVec.ofNat 5 (w / 2^10)) (w / 2^9 % 2 == 1) (w / 2^8 % 2 == 1) ty) | none => .error .reservedValue
  | 0x3 => match FloatTy.ofCode? (w / 2^6) with | some ty => .ok (.varithVmin (BitVec.ofNat 5 (w / 2^20)) (BitVec.ofNat 5 (w / 2^15)) (BitVec.ofNat 5 (w / 2^10)) (w / 2^9 % 2 == 1) (w / 2^8 % 2 == 1) ty) | none => .error .reservedValue
  | 0x4 => match FloatTy.ofCode? (w / 2^6) with | some ty => .ok (.varithVmax (BitVec.ofNat 5 (w / 2^20)) (BitVec.ofNat 5 (w / 2^15)) (BitVec.ofNat 5 (w / 2^10)) (w / 2^9 % 2 == 1) (w / 2^8 % 2 == 1) ty) | none => .error .reservedValue
  | 0x5 => match FloatTy.ofCode? (w / 2^6) with | some ty => if w / 2^8 % 2 = 0 then if w / 2^10 % 32 = 0 then .ok (.varithVabs (BitVec.ofNat 5 (w / 2^20)) (BitVec.ofNat 5 (w / 2^15)) (w / 2^9 % 2 == 1) ty) else .error .nonzeroField else .error .nonzeroField | none => .error .reservedValue
  | 0x6 => match FloatTy.ofCode? (w / 2^6) with | some ty => if w / 2^8 % 2 = 0 then if w / 2^10 % 32 = 0 then .ok (.varithVneg (BitVec.ofNat 5 (w / 2^20)) (BitVec.ofNat 5 (w / 2^15)) (w / 2^9 % 2 == 1) ty) else .error .nonzeroField else .error .nonzeroField | none => .error .reservedValue
  | _ => .error .reservedFunction

/-- Major 0x2e (R64). -/
def decodeVint (w : Nat) : Except Reject Instr :=
  match w % 64 with
  | 0x0 => match IntTy.ofCode? (w / 2^6) with | some ty => .ok (.vintVadd (BitVec.ofNat 5 (w / 2^20)) (BitVec.ofNat 5 (w / 2^15)) (BitVec.ofNat 5 (w / 2^10)) (w / 2^9 % 2 == 1) (w / 2^8 % 2 == 1) ty) | none => .error .reservedValue
  | 0x1 => match IntTy.ofCode? (w / 2^6) with | some ty => .ok (.vintVsub (BitVec.ofNat 5 (w / 2^20)) (BitVec.ofNat 5 (w / 2^15)) (BitVec.ofNat 5 (w / 2^10)) (w / 2^9 % 2 == 1) (w / 2^8 % 2 == 1) ty) | none => .error .reservedValue
  | 0x2 => match IntTy.ofCode? (w / 2^6) with | some ty => .ok (.vintVmul (BitVec.ofNat 5 (w / 2^20)) (BitVec.ofNat 5 (w / 2^15)) (BitVec.ofNat 5 (w / 2^10)) (w / 2^9 % 2 == 1) (w / 2^8 % 2 == 1) ty) | none => .error .reservedValue
  | 0x3 => match IntTy.ofCode? (w / 2^6) with | some ty => .ok (.vintVmin (BitVec.ofNat 5 (w / 2^20)) (BitVec.ofNat 5 (w / 2^15)) (BitVec.ofNat 5 (w / 2^10)) (w / 2^9 % 2 == 1) (w / 2^8 % 2 == 1) ty) | none => .error .reservedValue
  | 0x4 => match IntTy.ofCode? (w / 2^6) with | some ty => .ok (.vintVmax (BitVec.ofNat 5 (w / 2^20)) (BitVec.ofNat 5 (w / 2^15)) (BitVec.ofNat 5 (w / 2^10)) (w / 2^9 % 2 == 1) (w / 2^8 % 2 == 1) ty) | none => .error .reservedValue
  | 0x5 => match IntTy.ofCode? (w / 2^6) with | some ty => .ok (.vintVminu (BitVec.ofNat 5 (w / 2^20)) (BitVec.ofNat 5 (w / 2^15)) (BitVec.ofNat 5 (w / 2^10)) (w / 2^9 % 2 == 1) (w / 2^8 % 2 == 1) ty) | none => .error .reservedValue
  | 0x6 => match IntTy.ofCode? (w / 2^6) with | some ty => .ok (.vintVmaxu (BitVec.ofNat 5 (w / 2^20)) (BitVec.ofNat 5 (w / 2^15)) (BitVec.ofNat 5 (w / 2^10)) (w / 2^9 % 2 == 1) (w / 2^8 % 2 == 1) ty) | none => .error .reservedValue
  | 0x7 => match IntTy.ofCode? (w / 2^6) with | some ty => .ok (.vintVand (BitVec.ofNat 5 (w / 2^20)) (BitVec.ofNat 5 (w / 2^15)) (BitVec.ofNat 5 (w / 2^10)) (w / 2^9 % 2 == 1) (w / 2^8 % 2 == 1) ty) | none => .error .reservedValue
  | 0x8 => match IntTy.ofCode? (w / 2^6) with | some ty => .ok (.vintVor (BitVec.ofNat 5 (w / 2^20)) (BitVec.ofNat 5 (w / 2^15)) (BitVec.ofNat 5 (w / 2^10)) (w / 2^9 % 2 == 1) (w / 2^8 % 2 == 1) ty) | none => .error .reservedValue
  | 0x9 => match IntTy.ofCode? (w / 2^6) with | some ty => .ok (.vintVxor (BitVec.ofNat 5 (w / 2^20)) (BitVec.ofNat 5 (w / 2^15)) (BitVec.ofNat 5 (w / 2^10)) (w / 2^9 % 2 == 1) (w / 2^8 % 2 == 1) ty) | none => .error .reservedValue
  | 0xa => match IntTy.ofCode? (w / 2^6) with | some ty => .ok (.vintVsll (BitVec.ofNat 5 (w / 2^20)) (BitVec.ofNat 5 (w / 2^15)) (BitVec.ofNat 5 (w / 2^10)) (w / 2^9 % 2 == 1) (w / 2^8 % 2 == 1) ty) | none => .error .reservedValue
  | 0xb => match IntTy.ofCode? (w / 2^6) with | some ty => .ok (.vintVsrl (BitVec.ofNat 5 (w / 2^20)) (BitVec.ofNat 5 (w / 2^15)) (BitVec.ofNat 5 (w / 2^10)) (w / 2^9 % 2 == 1) (w / 2^8 % 2 == 1) ty) | none => .error .reservedValue
  | 0xc => match IntTy.ofCode? (w / 2^6) with | some ty => .ok (.vintVsra (BitVec.ofNat 5 (w / 2^20)) (BitVec.ofNat 5 (w / 2^15)) (BitVec.ofNat 5 (w / 2^10)) (w / 2^9 % 2 == 1) (w / 2^8 % 2 == 1) ty) | none => .error .reservedValue
  | 0xd => match IntTy.ofCode? (w / 2^6) with | some ty => .ok (.vintVadds (BitVec.ofNat 5 (w / 2^20)) (BitVec.ofNat 5 (w / 2^15)) (BitVec.ofNat 5 (w / 2^10)) (w / 2^9 % 2 == 1) (w / 2^8 % 2 == 1) ty) | none => .error .reservedValue
  | 0xe => match IntTy.ofCode? (w / 2^6) with | some ty => .ok (.vintVsubs (BitVec.ofNat 5 (w / 2^20)) (BitVec.ofNat 5 (w / 2^15)) (BitVec.ofNat 5 (w / 2^10)) (w / 2^9 % 2 == 1) (w / 2^8 % 2 == 1) ty) | none => .error .reservedValue
  | _ => .error .reservedFunction

/-- Major 0x2f (R64). -/
def decodeVcvt (w : Nat) : Except Reject Instr :=
  match w % 128 with
  | 0x0 => .ok (.vcvtBf16F32 (BitVec.ofNat 5 (w / 2^20)) (BitVec.ofNat 5 (w / 2^15)) (BitVec.ofNat 5 (w / 2^10)) (w / 2^9 % 2 == 1) (w / 2^8 % 2 == 1) (w / 2^7 % 2 == 1))
  | 0x1 => if w / 2^7 % 4 = 0 then if w / 2^10 % 32 = 0 then .ok (.vcvtF32Bf16Lo (BitVec.ofNat 5 (w / 2^20)) (BitVec.ofNat 5 (w / 2^15)) (w / 2^9 % 2 == 1)) else .error .nonzeroField else .error .nonzeroField
  | 0x2 => if w / 2^7 % 4 = 0 then if w / 2^10 % 32 = 0 then .ok (.vcvtF32Bf16Hi (BitVec.ofNat 5 (w / 2^20)) (BitVec.ofNat 5 (w / 2^15)) (w / 2^9 % 2 == 1)) else .error .nonzeroField else .error .nonzeroField
  | 0x3 => .ok (.vcvtF16F32 (BitVec.ofNat 5 (w / 2^20)) (BitVec.ofNat 5 (w / 2^15)) (BitVec.ofNat 5 (w / 2^10)) (w / 2^9 % 2 == 1) (w / 2^8 % 2 == 1) (w / 2^7 % 2 == 1))
  | 0x4 => if w / 2^7 % 4 = 0 then if w / 2^10 % 32 = 0 then .ok (.vcvtF32F16Lo (BitVec.ofNat 5 (w / 2^20)) (BitVec.ofNat 5 (w / 2^15)) (w / 2^9 % 2 == 1)) else .error .nonzeroField else .error .nonzeroField
  | 0x5 => if w / 2^7 % 4 = 0 then if w / 2^10 % 32 = 0 then .ok (.vcvtF32F16Hi (BitVec.ofNat 5 (w / 2^20)) (BitVec.ofNat 5 (w / 2^15)) (w / 2^9 % 2 == 1)) else .error .nonzeroField else .error .nonzeroField
  | 0x6 => if w / 2^7 % 4 = 0 then if w / 2^10 % 32 = 0 then .ok (.vcvtF32I32 (BitVec.ofNat 5 (w / 2^20)) (BitVec.ofNat 5 (w / 2^15)) (w / 2^9 % 2 == 1)) else .error .nonzeroField else .error .nonzeroField
  | 0x7 => if w / 2^7 % 4 = 0 then if w / 2^10 % 32 = 0 then .ok (.vcvtI32F32 (BitVec.ofNat 5 (w / 2^20)) (BitVec.ofNat 5 (w / 2^15)) (w / 2^9 % 2 == 1)) else .error .nonzeroField else .error .nonzeroField
  | 0x10 => if w / 2^7 % 4 = 0 then if w / 2^10 % 32 = 0 then .ok (.vunpkE2m1 (BitVec.ofNat 5 (w / 2^20)) (BitVec.ofNat 5 (w / 2^15)) (w / 2^9 % 2 == 1)) else .error .nonzeroField else .error .nonzeroField
  | 0x11 => if w / 2^7 % 4 = 0 then if w / 2^10 % 32 = 0 then .ok (.vunpkE3m2 (BitVec.ofNat 5 (w / 2^20)) (BitVec.ofNat 5 (w / 2^15)) (w / 2^9 % 2 == 1)) else .error .nonzeroField else .error .nonzeroField
  | 0x12 => if w / 2^7 % 4 = 0 then if w / 2^10 % 32 = 0 then .ok (.vunpkE2m3 (BitVec.ofNat 5 (w / 2^20)) (BitVec.ofNat 5 (w / 2^15)) (w / 2^9 % 2 == 1)) else .error .nonzeroField else .error .nonzeroField
  | 0x13 => if w / 2^7 % 4 = 0 then if w / 2^10 % 32 = 0 then .ok (.vunpkE4m3 (BitVec.ofNat 5 (w / 2^20)) (BitVec.ofNat 5 (w / 2^15)) (w / 2^9 % 2 == 1)) else .error .nonzeroField else .error .nonzeroField
  | 0x14 => if w / 2^7 % 4 = 0 then if w / 2^10 % 32 = 0 then .ok (.vunpkE5m2 (BitVec.ofNat 5 (w / 2^20)) (BitVec.ofNat 5 (w / 2^15)) (w / 2^9 % 2 == 1)) else .error .nonzeroField else .error .nonzeroField
  | 0x18 => if w / 2^8 % 2 = 0 then if w / 2^10 % 32 = 0 then .ok (.vpackE2m1 (BitVec.ofNat 5 (w / 2^20)) (BitVec.ofNat 5 (w / 2^15)) (w / 2^9 % 2 == 1) (w / 2^7 % 2 == 1)) else .error .nonzeroField else .error .nonzeroField
  | 0x19 => if w / 2^8 % 2 = 0 then if w / 2^10 % 32 = 0 then .ok (.vpackE3m2 (BitVec.ofNat 5 (w / 2^20)) (BitVec.ofNat 5 (w / 2^15)) (w / 2^9 % 2 == 1) (w / 2^7 % 2 == 1)) else .error .nonzeroField else .error .nonzeroField
  | 0x1a => if w / 2^8 % 2 = 0 then if w / 2^10 % 32 = 0 then .ok (.vpackE2m3 (BitVec.ofNat 5 (w / 2^20)) (BitVec.ofNat 5 (w / 2^15)) (w / 2^9 % 2 == 1) (w / 2^7 % 2 == 1)) else .error .nonzeroField else .error .nonzeroField
  | 0x1b => if w / 2^8 % 2 = 0 then if w / 2^10 % 32 = 0 then .ok (.vpackE4m3 (BitVec.ofNat 5 (w / 2^20)) (BitVec.ofNat 5 (w / 2^15)) (w / 2^9 % 2 == 1) (w / 2^7 % 2 == 1)) else .error .nonzeroField else .error .nonzeroField
  | 0x1c => if w / 2^8 % 2 = 0 then if w / 2^10 % 32 = 0 then .ok (.vpackE5m2 (BitVec.ofNat 5 (w / 2^20)) (BitVec.ofNat 5 (w / 2^15)) (w / 2^9 % 2 == 1) (w / 2^7 % 2 == 1)) else .error .nonzeroField else .error .nonzeroField
  | _ => .error .reservedFunction

/-- Major 0x30 (R64). -/
def decodeVred (w : Nat) : Except Reject Instr :=
  match w % 64 with
  | 0x0 => match RedTy.ofCode? (w / 2^6) with | some ty => if w / 2^8 % 2 = 0 then if w / 2^10 % 32 = 0 then .ok (.vrsum (BitVec.ofNat 5 (w / 2^20)) (BitVec.ofNat 5 (w / 2^15)) (w / 2^9 % 2 == 1) ty) else .error .nonzeroField else .error .nonzeroField | none => .error .reservedValue
  | 0x1 => match RedTy.ofCode? (w / 2^6) with | some ty => if w / 2^8 % 2 = 0 then if w / 2^10 % 32 = 0 then .ok (.vrmax (BitVec.ofNat 5 (w / 2^20)) (BitVec.ofNat 5 (w / 2^15)) (w / 2^9 % 2 == 1) ty) else .error .nonzeroField else .error .nonzeroField | none => .error .reservedValue
  | 0x2 => match RedTy.ofCode? (w / 2^6) with | some ty => if w / 2^8 % 2 = 0 then if w / 2^10 % 32 = 0 then .ok (.vrmin (BitVec.ofNat 5 (w / 2^20)) (BitVec.ofNat 5 (w / 2^15)) (w / 2^9 % 2 == 1) ty) else .error .nonzeroField else .error .nonzeroField | none => .error .reservedValue
  | 0x8 => match RedTy.ofCode? (w / 2^6) with | some ty => .ok (.vcmpeq (BitVec.ofNat 5 (w / 2^20)) (BitVec.ofNat 5 (w / 2^15)) (BitVec.ofNat 5 (w / 2^10)) (w / 2^9 % 2 == 1) (w / 2^8 % 2 == 1) ty) | none => .error .reservedValue
  | 0x9 => match RedTy.ofCode? (w / 2^6) with | some ty => .ok (.vcmplt (BitVec.ofNat 5 (w / 2^20)) (BitVec.ofNat 5 (w / 2^15)) (BitVec.ofNat 5 (w / 2^10)) (w / 2^9 % 2 == 1) (w / 2^8 % 2 == 1) ty) | none => .error .reservedValue
  | 0xa => match RedTy.ofCode? (w / 2^6) with | some ty => .ok (.vcmple (BitVec.ofNat 5 (w / 2^20)) (BitVec.ofNat 5 (w / 2^15)) (BitVec.ofNat 5 (w / 2^10)) (w / 2^9 % 2 == 1) (w / 2^8 % 2 == 1) ty) | none => .error .reservedValue
  | 0xb => match MoveTy.ofCode? (w / 2^6) with | some ty => .ok (.vsel (BitVec.ofNat 5 (w / 2^20)) (BitVec.ofNat 5 (w / 2^15)) (BitVec.ofNat 5 (w / 2^10)) (w / 2^9 % 2 == 1) (w / 2^8 % 2 == 1) ty) | none => .error .reservedValue
  | 0x10 => match MoveTy.ofCode? (w / 2^6) with | some ty => .ok (.vshuf (BitVec.ofNat 5 (w / 2^20)) (BitVec.ofNat 5 (w / 2^15)) (BitVec.ofNat 5 (w / 2^10)) (w / 2^9 % 2 == 1) (w / 2^8 % 2 == 1) ty) | none => .error .reservedValue
  | 0x11 => match MoveTy.ofCode? (w / 2^6) with | some ty => if w / 2^8 % 2 = 0 then if w / 2^10 % 32 = 0 then .ok (.vbcast (BitVec.ofNat 5 (w / 2^20)) (BitVec.ofNat 5 (w / 2^15)) (w / 2^9 % 2 == 1) ty) else .error .nonzeroField else .error .nonzeroField | none => .error .reservedValue
  | _ => .error .reservedFunction

/-- Major 0x31 (R64). -/
def decodeVsfu (w : Nat) : Except Reject Instr :=
  match w % 256 with
  | 0x0 => if w / 2^8 % 2 = 0 then if w / 2^10 % 32 = 0 then .ok (.vrcp (BitVec.ofNat 5 (w / 2^20)) (BitVec.ofNat 5 (w / 2^15)) (w / 2^9 % 2 == 1)) else .error .nonzeroField else .error .nonzeroField
  | 0x1 => if w / 2^8 % 2 = 0 then if w / 2^10 % 32 = 0 then .ok (.vrsqrt (BitVec.ofNat 5 (w / 2^20)) (BitVec.ofNat 5 (w / 2^15)) (w / 2^9 % 2 == 1)) else .error .nonzeroField else .error .nonzeroField
  | 0x2 => if w / 2^8 % 2 = 0 then if w / 2^10 % 32 = 0 then .ok (.vsqrt (BitVec.ofNat 5 (w / 2^20)) (BitVec.ofNat 5 (w / 2^15)) (w / 2^9 % 2 == 1)) else .error .nonzeroField else .error .nonzeroField
  | 0x3 => if w / 2^8 % 2 = 0 then if w / 2^10 % 32 = 0 then .ok (.vexp2 (BitVec.ofNat 5 (w / 2^20)) (BitVec.ofNat 5 (w / 2^15)) (w / 2^9 % 2 == 1)) else .error .nonzeroField else .error .nonzeroField
  | 0x4 => if w / 2^8 % 2 = 0 then if w / 2^10 % 32 = 0 then .ok (.vlog2 (BitVec.ofNat 5 (w / 2^20)) (BitVec.ofNat 5 (w / 2^15)) (w / 2^9 % 2 == 1)) else .error .nonzeroField else .error .nonzeroField
  | _ => .error .reservedFunction

/-- Major 0x32 (R64). -/
def decodeVfma (w : Nat) : Except Reject Instr :=
  match w % 64 with
  | 0x0 => match FloatTy.ofCode? (w / 2^6) with | some ty => .ok (.vfma (BitVec.ofNat 5 (w / 2^20)) (BitVec.ofNat 5 (w / 2^15)) (BitVec.ofNat 5 (w / 2^10)) (w / 2^9 % 2 == 1) (w / 2^8 % 2 == 1) ty) | none => .error .reservedValue
  | 0x1 => match FloatTy.ofCode? (w / 2^6) with | some ty => .ok (.vfms (BitVec.ofNat 5 (w / 2^20)) (BitVec.ofNat 5 (w / 2^15)) (BitVec.ofNat 5 (w / 2^10)) (w / 2^9 % 2 == 1) (w / 2^8 % 2 == 1) ty) | none => .error .reservedValue
  | 0x2 => match FloatTy.ofCode? (w / 2^6) with | some ty => .ok (.vfnma (BitVec.ofNat 5 (w / 2^20)) (BitVec.ofNat 5 (w / 2^15)) (BitVec.ofNat 5 (w / 2^10)) (w / 2^9 % 2 == 1) (w / 2^8 % 2 == 1) ty) | none => .error .reservedValue
  | _ => .error .reservedFunction

/-- R50, R58, R64: the instruction that bits 30:0 of a word stand for, by its major. Bit 31 is the bundle's (R55). -/
def decodeWord (w : Nat) : Except Reject Instr :=
  match w / 2^25 % 64 with
  | 0x0 => decodeSys w
  | 0x1 => decodeCsr w
  | 0x2 => decodeJal w
  | 0x3 => decodeJalr w
  | 0x4 => decodeBeq w
  | 0x5 => decodeBne w
  | 0x6 => decodeBlt w
  | 0x7 => decodeBge w
  | 0x8 => decodeBltu w
  | 0x9 => decodeBgeu w
  | 0xa => decodeLoop w
  | 0xb => decodeLoad w
  | 0xc => decodeStore w
  | 0xd => decodeLdaStl w
  | 0xe => decodeAmo w
  | 0xf => decodeGetrPutr w
  | 0x10 => decodeCopy w
  | 0x11 => decodeMsg w
  | 0x12 => decodeBar w
  | 0x13 => decodeWeir w
  | 0x14 => decodeFlume w
  | 0x15 => decodeResv w
  | 0x16 => decodeSpore w
  | 0x17 => decodeLaunch w
  | 0x18 => decodeVmem w
  | 0x19 => decodeVctl w
  | 0x20 => decodeInt w
  | 0x21 => decodeAddi w
  | 0x22 => decodeAndi w
  | 0x23 => decodeOri w
  | 0x24 => decodeXori w
  | 0x25 => decodeSlti w
  | 0x26 => decodeSltiu w
  | 0x27 => decodeShifti w
  | 0x28 => decodeLui w
  | 0x29 => decodeAuipc w
  | 0x2a => decodeBits w
  | 0x2b => decodeFlt w
  | 0x2c => decodeFma w
  | 0x2d => decodeVarith w
  | 0x2e => decodeVint w
  | 0x2f => decodeVcvt w
  | 0x30 => decodeVred w
  | 0x31 => decodeVsfu w
  | 0x32 => decodeVfma w
  | _ => .error .reservedMajor

/-- What a word writes: a scalar register or a vector register. -/
inductive Dest where
  | scalar (r : Reg)
  | vector (v : VReg)
  deriving DecidableEq, Repr

/-- The register an instruction word writes (R55, R349). -/
def Instr.dest : Instr → Option Dest
  | .csrrw rd _ _ => some (.scalar rd)
  | .csrrs rd _ _ => some (.scalar rd)
  | .jal rd _ => some (.scalar rd)
  | .jalr rd _ _ => some (.scalar rd)
  | .load rd _ _ _ _ _ => some (.scalar rd)
  | .lda rd _ _ _ _ => some (.scalar rd)
  | .amoAdd rd _ _ _ _ => some (.scalar rd)
  | .amoAnd rd _ _ _ _ => some (.scalar rd)
  | .amoOr rd _ _ _ _ => some (.scalar rd)
  | .amoXor rd _ _ _ _ => some (.scalar rd)
  | .amoMin rd _ _ _ _ => some (.scalar rd)
  | .amoMax rd _ _ _ _ => some (.scalar rd)
  | .amoMinu rd _ _ _ _ => some (.scalar rd)
  | .amoMaxu rd _ _ _ _ => some (.scalar rd)
  | .amoSwap rd _ _ _ _ => some (.scalar rd)
  | .amoCas rd _ _ _ _ => some (.scalar rd)
  | .getr rd _ _ => some (.scalar rd)
  | .get rd _ _ => some (.scalar rd)
  | .put rd _ _ _ => some (.scalar rd)
  | .cpop rd _ => some (.scalar rd)
  | .recv rd _ _ => some (.scalar rd)
  | .rpoll rd _ _ => some (.scalar rd)
  | .bdom rd _ _ => some (.scalar rd)
  | .weirCadd rd _ _ => some (.scalar rd)
  | .weirCread rd _ => some (.scalar rd)
  | .weirCswap rd _ _ => some (.scalar rd)
  | .weirStry rd _ => some (.scalar rd)
  | .frd rd _ => some (.scalar rd)
  | .rsv rd _ => some (.scalar rd)
  | .rsvW rd _ => some (.scalar rd)
  | .rsvP rd _ => some (.scalar rd)
  | .rsvWP rd _ => some (.scalar rd)
  | .rrel rd => some (.scalar rd)
  | .rfill rd => some (.scalar rd)
  | .spore rd _ => some (.scalar rd)
  | .larm rd _ => some (.scalar rd)
  | .lpatchPrio rd _ _ => some (.scalar rd)
  | .lpatchArg rd _ _ => some (.scalar rd)
  | .lpatchCount rd _ _ => some (.scalar rd)
  | .lpatchDone rd _ _ => some (.scalar rd)
  | .vld vd _ _ _ => some (.vector vd)
  | .vlds vd _ _ _ => some (.vector vd)
  | .vldf vd _ _ _ => some (.vector vd)
  | .vsetl rd _ => some (.scalar rd)
  | .vmovxXv rd _ _ => some (.scalar rd)
  | .vmovxVx vd _ _ => some (.vector vd)
  | .add rd _ _ => some (.scalar rd)
  | .sub rd _ _ => some (.scalar rd)
  | .and rd _ _ => some (.scalar rd)
  | .or rd _ _ => some (.scalar rd)
  | .xor rd _ _ => some (.scalar rd)
  | .sll rd _ _ => some (.scalar rd)
  | .srl rd _ _ => some (.scalar rd)
  | .sra rd _ _ => some (.scalar rd)
  | .slt rd _ _ => some (.scalar rd)
  | .sltu rd _ _ => some (.scalar rd)
  | .min rd _ _ => some (.scalar rd)
  | .max rd _ _ => some (.scalar rd)
  | .minu rd _ _ => some (.scalar rd)
  | .maxu rd _ _ => some (.scalar rd)
  | .mul rd _ _ => some (.scalar rd)
  | .mulhiSs rd _ _ => some (.scalar rd)
  | .mulhiUu rd _ _ => some (.scalar rd)
  | .mulhiSu rd _ _ => some (.scalar rd)
  | .div rd _ _ => some (.scalar rd)
  | .divu rd _ _ => some (.scalar rd)
  | .rem rd _ _ => some (.scalar rd)
  | .remu rd _ _ => some (.scalar rd)
  | .addw rd _ _ => some (.scalar rd)
  | .subw rd _ _ => some (.scalar rd)
  | .sllw rd _ _ => some (.scalar rd)
  | .srlw rd _ _ => some (.scalar rd)
  | .sraw rd _ _ => some (.scalar rd)
  | .mulw rd _ _ => some (.scalar rd)
  | .divw rd _ _ => some (.scalar rd)
  | .divuw rd _ _ => some (.scalar rd)
  | .remw rd _ _ => some (.scalar rd)
  | .remuw rd _ _ => some (.scalar rd)
  | .addi rd _ _ => some (.scalar rd)
  | .andi rd _ _ => some (.scalar rd)
  | .ori rd _ _ => some (.scalar rd)
  | .xori rd _ _ => some (.scalar rd)
  | .slti rd _ _ => some (.scalar rd)
  | .sltiu rd _ _ => some (.scalar rd)
  | .slli rd _ _ => some (.scalar rd)
  | .srli rd _ _ => some (.scalar rd)
  | .srai rd _ _ => some (.scalar rd)
  | .slliw rd _ _ => some (.scalar rd)
  | .srliw rd _ _ => some (.scalar rd)
  | .sraiw rd _ _ => some (.scalar rd)
  | .lui rd _ => some (.scalar rd)
  | .auipc rd _ => some (.scalar rd)
  | .clz rd _ => some (.scalar rd)
  | .ctz rd _ => some (.scalar rd)
  | .popc rd _ => some (.scalar rd)
  | .bext rd _ _ => some (.scalar rd)
  | .bins rd _ _ => some (.scalar rd)
  | .sext rd _ _ => some (.scalar rd)
  | .zext rd _ _ => some (.scalar rd)
  | .lea rd _ _ => some (.scalar rd)
  | .lea2 rd _ _ => some (.scalar rd)
  | .lea4 rd _ _ => some (.scalar rd)
  | .lea8 rd _ _ => some (.scalar rd)
  | .fadd rd _ _ _ => some (.scalar rd)
  | .fsub rd _ _ _ => some (.scalar rd)
  | .fmul rd _ _ _ => some (.scalar rd)
  | .fdiv rd _ _ _ => some (.scalar rd)
  | .fsqrt rd _ _ => some (.scalar rd)
  | .fmin rd _ _ => some (.scalar rd)
  | .fmax rd _ _ => some (.scalar rd)
  | .feq rd _ _ => some (.scalar rd)
  | .fclt rd _ _ => some (.scalar rd)
  | .fcle rd _ _ => some (.scalar rd)
  | .ftoiW rd _ _ => some (.scalar rd)
  | .ftoiL rd _ _ => some (.scalar rd)
  | .itofW rd _ _ => some (.scalar rd)
  | .itofL rd _ _ => some (.scalar rd)
  | .fabs rd _ => some (.scalar rd)
  | .fneg rd _ => some (.scalar rd)
  | .fmaS rd _ _ _ => some (.scalar rd)
  | .fmsS rd _ _ _ => some (.scalar rd)
  | .varithVadd vd _ _ _ _ _ => some (.vector vd)
  | .varithVsub vd _ _ _ _ _ => some (.vector vd)
  | .varithVmul vd _ _ _ _ _ => some (.vector vd)
  | .varithVmin vd _ _ _ _ _ => some (.vector vd)
  | .varithVmax vd _ _ _ _ _ => some (.vector vd)
  | .varithVabs vd _ _ _ => some (.vector vd)
  | .varithVneg vd _ _ _ => some (.vector vd)
  | .vintVadd vd _ _ _ _ _ => some (.vector vd)
  | .vintVsub vd _ _ _ _ _ => some (.vector vd)
  | .vintVmul vd _ _ _ _ _ => some (.vector vd)
  | .vintVmin vd _ _ _ _ _ => some (.vector vd)
  | .vintVmax vd _ _ _ _ _ => some (.vector vd)
  | .vintVminu vd _ _ _ _ _ => some (.vector vd)
  | .vintVmaxu vd _ _ _ _ _ => some (.vector vd)
  | .vintVand vd _ _ _ _ _ => some (.vector vd)
  | .vintVor vd _ _ _ _ _ => some (.vector vd)
  | .vintVxor vd _ _ _ _ _ => some (.vector vd)
  | .vintVsll vd _ _ _ _ _ => some (.vector vd)
  | .vintVsrl vd _ _ _ _ _ => some (.vector vd)
  | .vintVsra vd _ _ _ _ _ => some (.vector vd)
  | .vintVadds vd _ _ _ _ _ => some (.vector vd)
  | .vintVsubs vd _ _ _ _ _ => some (.vector vd)
  | .vcvtBf16F32 vd _ _ _ _ _ => some (.vector vd)
  | .vcvtF32Bf16Lo vd _ _ => some (.vector vd)
  | .vcvtF32Bf16Hi vd _ _ => some (.vector vd)
  | .vcvtF16F32 vd _ _ _ _ _ => some (.vector vd)
  | .vcvtF32F16Lo vd _ _ => some (.vector vd)
  | .vcvtF32F16Hi vd _ _ => some (.vector vd)
  | .vcvtF32I32 vd _ _ => some (.vector vd)
  | .vcvtI32F32 vd _ _ => some (.vector vd)
  | .vunpkE2m1 vd _ _ => some (.vector vd)
  | .vunpkE3m2 vd _ _ => some (.vector vd)
  | .vunpkE2m3 vd _ _ => some (.vector vd)
  | .vunpkE4m3 vd _ _ => some (.vector vd)
  | .vunpkE5m2 vd _ _ => some (.vector vd)
  | .vpackE2m1 vd _ _ _ => some (.vector vd)
  | .vpackE3m2 vd _ _ _ => some (.vector vd)
  | .vpackE2m3 vd _ _ _ => some (.vector vd)
  | .vpackE4m3 vd _ _ _ => some (.vector vd)
  | .vpackE5m2 vd _ _ _ => some (.vector vd)
  | .vrsum vd _ _ _ => some (.vector vd)
  | .vrmax vd _ _ _ => some (.vector vd)
  | .vrmin vd _ _ _ => some (.vector vd)
  | .vcmpeq vd _ _ _ _ _ => some (.vector vd)
  | .vcmplt vd _ _ _ _ _ => some (.vector vd)
  | .vcmple vd _ _ _ _ _ => some (.vector vd)
  | .vsel vd _ _ _ _ _ => some (.vector vd)
  | .vshuf vd _ _ _ _ _ => some (.vector vd)
  | .vbcast vd _ _ _ => some (.vector vd)
  | .vrcp vd _ _ => some (.vector vd)
  | .vrsqrt vd _ _ => some (.vector vd)
  | .vsqrt vd _ _ => some (.vector vd)
  | .vexp2 vd _ _ => some (.vector vd)
  | .vlog2 vd _ _ => some (.vector vd)
  | .vfma vd _ _ _ _ _ => some (.vector vd)
  | .vfms vd _ _ _ _ _ => some (.vector vd)
  | .vfnma vd _ _ _ _ _ => some (.vector vd)
  | _ => none

/-- R349: the numbers of the registers an instruction word reads, in field order; a vector register n counts as
64 + n. -/
def Instr.reads : Instr → List Nat
  | .tsleep ra => [ra.toNat]
  | .twake ra => [ra.toNat]
  | .csrrw _ ra _ => [ra.toNat]
  | .csrrs _ ra _ => [ra.toNat]
  | .jalr _ ra _ => [ra.toNat]
  | .beq ra rb _ => [ra.toNat, rb.toNat]
  | .bne ra rb _ => [ra.toNat, rb.toNat]
  | .blt ra rb _ => [ra.toNat, rb.toNat]
  | .bge ra rb _ => [ra.toNat, rb.toNat]
  | .bltu ra rb _ => [ra.toNat, rb.toNat]
  | .bgeu ra rb _ => [ra.toNat, rb.toNat]
  | .loop ra _ => [ra.toNat]
  | .load _ ra _ _ _ _ => [ra.toNat]
  | .store rs ra _ _ _ _ => [rs.toNat, ra.toNat]
  | .lda _ ra _ _ _ => [ra.toNat]
  | .stl rs ra _ _ _ _ => [rs.toNat, ra.toNat]
  | .amoAdd _ ra rb _ _ => [ra.toNat, rb.toNat]
  | .amoAnd _ ra rb _ _ => [ra.toNat, rb.toNat]
  | .amoOr _ ra rb _ _ => [ra.toNat, rb.toNat]
  | .amoXor _ ra rb _ _ => [ra.toNat, rb.toNat]
  | .amoMin _ ra rb _ _ => [ra.toNat, rb.toNat]
  | .amoMax _ ra rb _ _ => [ra.toNat, rb.toNat]
  | .amoMinu _ ra rb _ _ => [ra.toNat, rb.toNat]
  | .amoMaxu _ ra rb _ _ => [ra.toNat, rb.toNat]
  | .amoSwap _ ra rb _ _ => [ra.toNat, rb.toNat]
  | .amoCas rd ra rb _ _ => [rd.toNat, ra.toNat, rb.toNat]
  | .getr _ ra _ => [ra.toNat]
  | .putr ra rb _ _ => [ra.toNat, rb.toNat]
  | .get rd ra rb => [rd.toNat, ra.toNat, rb.toNat]
  | .put rd ra rb _ => [rd.toNat, ra.toNat, rb.toNat]
  | .cpop _ ra => [ra.toNat]
  | .send rs ra _ => [rs.toNat, ra.toNat]
  | .recv _ ra _ => [ra.toNat]
  | .rpoll _ ra _ => [ra.toNat]
  | .bdom _ ra _ => [ra.toNat]
  | .weirCadd _ ra rb => [ra.toNat, rb.toNat]
  | .weirCread _ ra => [ra.toNat]
  | .weirCswap rd ra rb => [rd.toNat, ra.toNat, rb.toNat]
  | .weirSwait ra => [ra.toNat]
  | .weirSpost ra => [ra.toNat]
  | .weirStry _ ra => [ra.toNat]
  | .fcfg ra _ => [ra.toNat]
  | .fwaitf ra _ => [ra.toNat]
  | .fwaite ra _ => [ra.toNat]
  | .fprod ra _ => [ra.toNat]
  | .fcons ra _ => [ra.toNat]
  | .rsv _ ra => [ra.toNat]
  | .rsvW _ ra => [ra.toNat]
  | .rsvP _ ra => [ra.toNat]
  | .rsvWP _ ra => [ra.toNat]
  | .spnd ra => [ra.toNat]
  | .rwait ra => [ra.toNat]
  | .spore _ ra => [ra.toNat]
  | .larm _ ra => [ra.toNat]
  | .lpatchPrio _ ra rb => [ra.toNat, rb.toNat]
  | .lpatchArg _ ra rb => [ra.toNat, rb.toNat]
  | .lpatchCount _ ra rb => [ra.toNat, rb.toNat]
  | .lpatchDone _ ra rb => [ra.toNat, rb.toNat]
  | .vld _ ra rb _ => [ra.toNat, rb.toNat]
  | .vlds _ ra rb _ => [ra.toNat, rb.toNat]
  | .vldf _ ra rb _ => [ra.toNat, rb.toNat]
  | .vst vd ra rb _ => [64 + vd.toNat, ra.toNat, rb.toNat]
  | .vsts vd ra rb _ => [64 + vd.toNat, ra.toNat, rb.toNat]
  | .vstf vd ra rb _ => [64 + vd.toNat, ra.toNat, rb.toNat]
  | .vsetl _ ra => [ra.toNat]
  | .vloop ra _ => [ra.toNat]
  | .sbind _ ra _ => [ra.toNat]
  | .vmovxXv _ ra vb => [ra.toNat, 64 + vb.toNat]
  | .vmovxVx _ ra rb => [ra.toNat, rb.toNat]
  | .add _ ra rb => [ra.toNat, rb.toNat]
  | .sub _ ra rb => [ra.toNat, rb.toNat]
  | .and _ ra rb => [ra.toNat, rb.toNat]
  | .or _ ra rb => [ra.toNat, rb.toNat]
  | .xor _ ra rb => [ra.toNat, rb.toNat]
  | .sll _ ra rb => [ra.toNat, rb.toNat]
  | .srl _ ra rb => [ra.toNat, rb.toNat]
  | .sra _ ra rb => [ra.toNat, rb.toNat]
  | .slt _ ra rb => [ra.toNat, rb.toNat]
  | .sltu _ ra rb => [ra.toNat, rb.toNat]
  | .min _ ra rb => [ra.toNat, rb.toNat]
  | .max _ ra rb => [ra.toNat, rb.toNat]
  | .minu _ ra rb => [ra.toNat, rb.toNat]
  | .maxu _ ra rb => [ra.toNat, rb.toNat]
  | .mul _ ra rb => [ra.toNat, rb.toNat]
  | .mulhiSs _ ra rb => [ra.toNat, rb.toNat]
  | .mulhiUu _ ra rb => [ra.toNat, rb.toNat]
  | .mulhiSu _ ra rb => [ra.toNat, rb.toNat]
  | .div _ ra rb => [ra.toNat, rb.toNat]
  | .divu _ ra rb => [ra.toNat, rb.toNat]
  | .rem _ ra rb => [ra.toNat, rb.toNat]
  | .remu _ ra rb => [ra.toNat, rb.toNat]
  | .addw _ ra rb => [ra.toNat, rb.toNat]
  | .subw _ ra rb => [ra.toNat, rb.toNat]
  | .sllw _ ra rb => [ra.toNat, rb.toNat]
  | .srlw _ ra rb => [ra.toNat, rb.toNat]
  | .sraw _ ra rb => [ra.toNat, rb.toNat]
  | .mulw _ ra rb => [ra.toNat, rb.toNat]
  | .divw _ ra rb => [ra.toNat, rb.toNat]
  | .divuw _ ra rb => [ra.toNat, rb.toNat]
  | .remw _ ra rb => [ra.toNat, rb.toNat]
  | .remuw _ ra rb => [ra.toNat, rb.toNat]
  | .addi _ ra _ => [ra.toNat]
  | .andi _ ra _ => [ra.toNat]
  | .ori _ ra _ => [ra.toNat]
  | .xori _ ra _ => [ra.toNat]
  | .slti _ ra _ => [ra.toNat]
  | .sltiu _ ra _ => [ra.toNat]
  | .slli _ ra _ => [ra.toNat]
  | .srli _ ra _ => [ra.toNat]
  | .srai _ ra _ => [ra.toNat]
  | .slliw _ ra _ => [ra.toNat]
  | .srliw _ ra _ => [ra.toNat]
  | .sraiw _ ra _ => [ra.toNat]
  | .clz _ ra => [ra.toNat]
  | .ctz _ ra => [ra.toNat]
  | .popc _ ra => [ra.toNat]
  | .bext _ ra rb => [ra.toNat, rb.toNat]
  | .bins rd ra rb => [rd.toNat, ra.toNat, rb.toNat]
  | .sext _ ra rb => [ra.toNat, rb.toNat]
  | .zext _ ra rb => [ra.toNat, rb.toNat]
  | .lea _ ra rb => [ra.toNat, rb.toNat]
  | .lea2 _ ra rb => [ra.toNat, rb.toNat]
  | .lea4 _ ra rb => [ra.toNat, rb.toNat]
  | .lea8 _ ra rb => [ra.toNat, rb.toNat]
  | .fadd _ ra rb _ => [ra.toNat, rb.toNat]
  | .fsub _ ra rb _ => [ra.toNat, rb.toNat]
  | .fmul _ ra rb _ => [ra.toNat, rb.toNat]
  | .fdiv _ ra rb _ => [ra.toNat, rb.toNat]
  | .fsqrt _ ra _ => [ra.toNat]
  | .fmin _ ra rb => [ra.toNat, rb.toNat]
  | .fmax _ ra rb => [ra.toNat, rb.toNat]
  | .feq _ ra rb => [ra.toNat, rb.toNat]
  | .fclt _ ra rb => [ra.toNat, rb.toNat]
  | .fcle _ ra rb => [ra.toNat, rb.toNat]
  | .ftoiW _ ra _ => [ra.toNat]
  | .ftoiL _ ra _ => [ra.toNat]
  | .itofW _ ra _ => [ra.toNat]
  | .itofL _ ra _ => [ra.toNat]
  | .fabs _ ra => [ra.toNat]
  | .fneg _ ra => [ra.toNat]
  | .fmaS _ ra rb rc => [ra.toNat, rb.toNat, rc.toNat]
  | .fmsS _ ra rb rc => [ra.toNat, rb.toNat, rc.toNat]
  | .varithVadd _ va vb _ _ _ => [64 + va.toNat, 64 + vb.toNat]
  | .varithVsub _ va vb _ _ _ => [64 + va.toNat, 64 + vb.toNat]
  | .varithVmul _ va vb _ _ _ => [64 + va.toNat, 64 + vb.toNat]
  | .varithVmin _ va vb _ _ _ => [64 + va.toNat, 64 + vb.toNat]
  | .varithVmax _ va vb _ _ _ => [64 + va.toNat, 64 + vb.toNat]
  | .varithVabs _ va _ _ => [64 + va.toNat]
  | .varithVneg _ va _ _ => [64 + va.toNat]
  | .vintVadd _ va vb _ _ _ => [64 + va.toNat, 64 + vb.toNat]
  | .vintVsub _ va vb _ _ _ => [64 + va.toNat, 64 + vb.toNat]
  | .vintVmul _ va vb _ _ _ => [64 + va.toNat, 64 + vb.toNat]
  | .vintVmin _ va vb _ _ _ => [64 + va.toNat, 64 + vb.toNat]
  | .vintVmax _ va vb _ _ _ => [64 + va.toNat, 64 + vb.toNat]
  | .vintVminu _ va vb _ _ _ => [64 + va.toNat, 64 + vb.toNat]
  | .vintVmaxu _ va vb _ _ _ => [64 + va.toNat, 64 + vb.toNat]
  | .vintVand _ va vb _ _ _ => [64 + va.toNat, 64 + vb.toNat]
  | .vintVor _ va vb _ _ _ => [64 + va.toNat, 64 + vb.toNat]
  | .vintVxor _ va vb _ _ _ => [64 + va.toNat, 64 + vb.toNat]
  | .vintVsll _ va vb _ _ _ => [64 + va.toNat, 64 + vb.toNat]
  | .vintVsrl _ va vb _ _ _ => [64 + va.toNat, 64 + vb.toNat]
  | .vintVsra _ va vb _ _ _ => [64 + va.toNat, 64 + vb.toNat]
  | .vintVadds _ va vb _ _ _ => [64 + va.toNat, 64 + vb.toNat]
  | .vintVsubs _ va vb _ _ _ => [64 + va.toNat, 64 + vb.toNat]
  | .vcvtBf16F32 _ va vb _ _ _ => [64 + va.toNat, 64 + vb.toNat]
  | .vcvtF32Bf16Lo _ va _ => [64 + va.toNat]
  | .vcvtF32Bf16Hi _ va _ => [64 + va.toNat]
  | .vcvtF16F32 _ va vb _ _ _ => [64 + va.toNat, 64 + vb.toNat]
  | .vcvtF32F16Lo _ va _ => [64 + va.toNat]
  | .vcvtF32F16Hi _ va _ => [64 + va.toNat]
  | .vcvtF32I32 _ va _ => [64 + va.toNat]
  | .vcvtI32F32 _ va _ => [64 + va.toNat]
  | .vunpkE2m1 _ va _ => [64 + va.toNat]
  | .vunpkE3m2 _ va _ => [64 + va.toNat]
  | .vunpkE2m3 _ va _ => [64 + va.toNat]
  | .vunpkE4m3 _ va _ => [64 + va.toNat]
  | .vunpkE5m2 _ va _ => [64 + va.toNat]
  | .vpackE2m1 _ va _ _ => [64 + va.toNat]
  | .vpackE3m2 _ va _ _ => [64 + va.toNat]
  | .vpackE2m3 _ va _ _ => [64 + va.toNat]
  | .vpackE4m3 _ va _ _ => [64 + va.toNat]
  | .vpackE5m2 _ va _ _ => [64 + va.toNat]
  | .vrsum _ va _ _ => [64 + va.toNat]
  | .vrmax _ va _ _ => [64 + va.toNat]
  | .vrmin _ va _ _ => [64 + va.toNat]
  | .vcmpeq _ va vb _ _ _ => [64 + va.toNat, 64 + vb.toNat]
  | .vcmplt _ va vb _ _ _ => [64 + va.toNat, 64 + vb.toNat]
  | .vcmple _ va vb _ _ _ => [64 + va.toNat, 64 + vb.toNat]
  | .vsel vd va vb _ _ _ => [64 + vd.toNat, 64 + va.toNat, 64 + vb.toNat]
  | .vshuf _ va vb _ _ _ => [64 + va.toNat, 64 + vb.toNat]
  | .vbcast _ va _ _ => [64 + va.toNat]
  | .vrcp _ va _ => [64 + va.toNat]
  | .vrsqrt _ va _ => [64 + va.toNat]
  | .vsqrt _ va _ => [64 + va.toNat]
  | .vexp2 _ va _ => [64 + va.toNat]
  | .vlog2 _ va _ => [64 + va.toNat]
  | .vfma vd va vb _ _ _ => [64 + vd.toNat, 64 + va.toNat, 64 + vb.toNat]
  | .vfms vd va vb _ _ _ => [64 + vd.toNat, 64 + va.toNat, 64 + vb.toNat]
  | .vfnma vd va vb _ _ _ => [64 + vd.toNat, 64 + va.toNat, 64 + vb.toNat]
  | _ => []

/-- R349: the number of the register an instruction word writes, 0 when it writes none. -/
def Instr.writesNumber (i : Instr) : Nat :=
  match i.dest with
  | some (.scalar r) => r.toNat
  | some (.vector v) => 64 + v.toNat
  | none => 0

/-- R141: the SYS words that may not stand in the first word of a pair. -/
def Instr.sysLoneOnly : Instr → Bool
  | .halt | .eret | .brk | .tyield => true
  | .trap _ | .tsleep _ | .twake _ | .sigchk _ => true
  | _ => false

/-- R53: NOP counts as an A-class word in the second slot of a pair. -/
def Instr.isNop : Instr → Bool
  | .nop => true
  | _ => false

/-- A fetched bundle after R55's checks. -/
inductive Bundle where
  /-- L = 0: the two words issue together (R51) -/
  | pair (first second : Instr)
  /-- L = 1: two lone words (R52) -/
  | lone (first second : Instr)
  /-- ILLEGAL: the offending word's slot, the word, the sub-code of R148 -/
  | illegal (slot : Nat) (word : BitVec 32) (sub : BitVec 8)
  deriving DecidableEq, Repr

/-- R55: two words of a pair write one register. -/
def sameDest (i j : Instr) : Bool :=
  match i.dest, j.dest with
  | some (.scalar a), some (.scalar b) => a == b && a != 0
  | some (.vector a), some (.vector b) => a == b
  | _, _ => false

/-- R55: a word that decodes writes the register that i writes. -/
def sameDestWord (i : Instr) (w1 : BitVec 32) : Bool :=
  match decodeWord w1.toNat with
  | .ok j => sameDest i j
  | .error _ => false

/-- R126: LOOP's end bundle lies off words on from its word; an end that is its own bundle is ILLEGAL at decode. -/
def loopEndsHere (slot : Nat) : Instr → Bool
  | .loop _ off => (slot + off.toNat) / 2 == 0
  | _ => false

/-- R55: the second word of a bundle, decoded alone. -/
def decodeSecond (w1 : BitVec 32) : Option Instr :=
  if w1.toNat / 2^31 = 1 then none
  else match decodeWord w1.toNat with
    | .ok j => if loopEndsHere 1 j then none else some j
    | .error _ => none

/-- R55: the whole bundle of words w0 (lower address) and w1, decoded before either executes. Where both words offend, by
writing one register, the first is reported, whatever else the second does. -/
def decodeBundle (w0 w1 : BitVec 32) : Bundle :=
  let m0 := w0.toNat / 2^25 % 64
  let m1 := w1.toNat / 2^25 % 64
  let isLone := w0.toNat / 2^31 = 1
  match decodeWord w0.toNat with
  | .error _ => .illegal 0 w0 0
  | .ok i =>
    if loopEndsHere 0 i then .illegal 0 w0 0
    else if ¬ isLone ∧ 32 ≤ m0 then .illegal 0 w0 0
    else if ¬ isLone ∧ i.sysLoneOnly then .illegal 0 w0 4
    else if ¬ isLone ∧ sameDestWord i w1 then .illegal 0 w0 0
    else match decodeSecond w1 with
      | none => .illegal 1 w1 0
      | some j =>
        if isLone then .lone i j
        else if m1 < 32 ∧ ¬ j.isNop then .illegal 1 w1 0
        else .pair i j

/-- R56: a word's constant bits plus its fields, each a value and the bit it begins at. -/
def pack (constant : Nat) (fields : List (Nat × Nat)) : Nat :=
  fields.foldl (fun acc f => acc + f.1 * 2 ^ f.2) constant

/-- Bits 30:0 of the word of an instruction, by the formats of R56 and the maps of R58 to R66; none for a step, which has
no word. -/
def encodeWord : Instr → Option Nat
  | .nop => some (pack 0x0 [])
  | .halt => some (pack 0x1 [])
  | .trap code => some (pack 0x2 [(code.toNat, 7)])
  | .eret => some (pack 0x3 [])
  | .brk => some (pack 0x4 [])
  | .tyield => some (pack 0x8 [])
  | .tsleep ra => some (pack 0x9 [(ra.toNat, 13)])
  | .twake ra => some (pack 0xa [(ra.toNat, 13)])
  | .sigchk sig => some (pack 0xc [(sig.toNat, 7)])
  | .fenceCore => some (pack 0x10 [])
  | .fenceDie => some (pack 0x11 [])
  | .fencePkg => some (pack 0x12 [])
  | .fenceSys => some (pack 0x13 [])
  | .csrrw rd ra csr => some (pack 0x2000000 [(rd.toNat, 19), (ra.toNat, 13), (csr.toNat, 1)])
  | .csrrs rd ra csr => some (pack 0x2000001 [(rd.toNat, 19), (ra.toNat, 13), (csr.toNat, 1)])
  | .jal rd off => some (pack 0x4000000 [(rd.toNat, 19), (off.toNat, 0)])
  | .jalr rd ra imm => some (pack 0x6000000 [(rd.toNat, 19), (ra.toNat, 13), (imm.toNat, 0)])
  | .beq ra rb off => some (pack 0x8000000 [(ra.toNat, 19), (rb.toNat, 13), (off.toNat, 0)])
  | .bne ra rb off => some (pack 0xa000000 [(ra.toNat, 19), (rb.toNat, 13), (off.toNat, 0)])
  | .blt ra rb off => some (pack 0xc000000 [(ra.toNat, 19), (rb.toNat, 13), (off.toNat, 0)])
  | .bge ra rb off => some (pack 0xe000000 [(ra.toNat, 19), (rb.toNat, 13), (off.toNat, 0)])
  | .bltu ra rb off => some (pack 0x10000000 [(ra.toNat, 19), (rb.toNat, 13), (off.toNat, 0)])
  | .bgeu ra rb off => some (pack 0x12000000 [(ra.toNat, 19), (rb.toNat, 13), (off.toNat, 0)])
  | .loop ra off => some (pack 0x14000000 [(ra.toNat, 19), (off.toNat, 0)])
  | .load rd ra imm sz nt z => some (pack 0x16000000 [(rd.toNat, 19), (ra.toNat, 13), (imm.toNat, 4), (sz.code, 2), (nt.toNat, 1), (z.toNat, 0)])
  | .store rs ra imm sz nt g => some (pack 0x18000000 [(rs.toNat, 19), (ra.toNat, 13), (imm.toNat, 4), (sz.code, 2), (nt.toNat, 1), (g.toNat, 0)])
  | .lda rd ra imm sz scope => some (pack 0x1a000000 [(rd.toNat, 19), (ra.toNat, 13), (imm.toNat, 4), (sz.code, 2), (scope.code, 0)])
  | .stl rs ra g imm sz scope => some (pack 0x1a001000 [(rs.toNat, 19), (ra.toNat, 13), (g.toNat, 11), (imm.toNat, 4), (sz.code, 2), (scope.code, 0)])
  | .amoAdd rd ra rb ty g => some (pack 0x1c000000 [(rd.toNat, 19), (ra.toNat, 13), (rb.toNat, 7), (ty.code, 1), (g.toNat, 0)])
  | .amoAnd rd ra rb ty g => some (pack 0x1c000008 [(rd.toNat, 19), (ra.toNat, 13), (rb.toNat, 7), (ty.code, 1), (g.toNat, 0)])
  | .amoOr rd ra rb ty g => some (pack 0x1c000010 [(rd.toNat, 19), (ra.toNat, 13), (rb.toNat, 7), (ty.code, 1), (g.toNat, 0)])
  | .amoXor rd ra rb ty g => some (pack 0x1c000018 [(rd.toNat, 19), (ra.toNat, 13), (rb.toNat, 7), (ty.code, 1), (g.toNat, 0)])
  | .amoMin rd ra rb ty g => some (pack 0x1c000020 [(rd.toNat, 19), (ra.toNat, 13), (rb.toNat, 7), (ty.code, 1), (g.toNat, 0)])
  | .amoMax rd ra rb ty g => some (pack 0x1c000028 [(rd.toNat, 19), (ra.toNat, 13), (rb.toNat, 7), (ty.code, 1), (g.toNat, 0)])
  | .amoMinu rd ra rb ty g => some (pack 0x1c000030 [(rd.toNat, 19), (ra.toNat, 13), (rb.toNat, 7), (ty.code, 1), (g.toNat, 0)])
  | .amoMaxu rd ra rb ty g => some (pack 0x1c000038 [(rd.toNat, 19), (ra.toNat, 13), (rb.toNat, 7), (ty.code, 1), (g.toNat, 0)])
  | .amoSwap rd ra rb ty g => some (pack 0x1c000040 [(rd.toNat, 19), (ra.toNat, 13), (rb.toNat, 7), (ty.code, 1), (g.toNat, 0)])
  | .amoCas rd ra rb ty g => some (pack 0x1c000048 [(rd.toNat, 19), (ra.toNat, 13), (rb.toNat, 7), (ty.code, 1), (g.toNat, 0)])
  | .getr rd ra ty => some (pack 0x1e000000 [(rd.toNat, 19), (ra.toNat, 13), (ty.code, 1)])
  | .putr ra rb ty g => some (pack 0x1e000008 [(ra.toNat, 13), (rb.toNat, 7), (ty.code, 1), (g.toNat, 0)])
  | .get rd ra rb => some (pack 0x20000000 [(rd.toNat, 19), (ra.toNat, 13), (rb.toNat, 7)])
  | .put rd ra rb g => some (pack 0x20000008 [(rd.toNat, 19), (ra.toNat, 13), (rb.toNat, 7), (g.toNat, 0)])
  | .cpop rd ra => some (pack 0x20000010 [(rd.toNat, 19), (ra.toNat, 13)])
  | .cwait => some (pack 0x20000018 [])
  | .send rs ra ch => some (pack 0x22000000 [(rs.toNat, 19), (ra.toNat, 13), (ch.toNat, 7)])
  | .recv rd ra ch => some (pack 0x22000001 [(rd.toNat, 19), (ra.toNat, 13), (ch.toNat, 7)])
  | .rpoll rd ra ch => some (pack 0x22000002 [(rd.toNat, 19), (ra.toNat, 13), (ch.toNat, 7)])
  | .bar dom => some (pack 0x24000000 [(dom.toNat, 7)])
  | .step dom => some (pack 0x24000001 [(dom.toNat, 7)])
  | .bdom rd ra dom => some (pack 0x24000002 [(rd.toNat, 19), (ra.toNat, 13), (dom.toNat, 7)])
  | .weirCadd rd ra rb => some (pack 0x26000000 [(rd.toNat, 19), (ra.toNat, 13), (rb.toNat, 7)])
  | .weirCread rd ra => some (pack 0x26000001 [(rd.toNat, 19), (ra.toNat, 13)])
  | .weirCswap rd ra rb => some (pack 0x26000002 [(rd.toNat, 19), (ra.toNat, 13), (rb.toNat, 7)])
  | .weirSwait ra => some (pack 0x26000008 [(ra.toNat, 13)])
  | .weirSpost ra => some (pack 0x26000009 [(ra.toNat, 13)])
  | .weirStry rd ra => some (pack 0x2600000a [(rd.toNat, 19), (ra.toNat, 13)])
  | .fcfg ra fl => some (pack 0x28000000 [(ra.toNat, 13), (fl.toNat, 7)])
  | .fwaitf ra fl => some (pack 0x28000001 [(ra.toNat, 13), (fl.toNat, 7)])
  | .fwaite ra fl => some (pack 0x28000002 [(ra.toNat, 13), (fl.toNat, 7)])
  | .fprod ra fl => some (pack 0x28000003 [(ra.toNat, 13), (fl.toNat, 7)])
  | .fcons ra fl => some (pack 0x28000004 [(ra.toNat, 13), (fl.toNat, 7)])
  | .frd rd fl => some (pack 0x28000005 [(rd.toNat, 19), (fl.toNat, 7)])
  | .rsv rd ra => some (pack 0x2a000000 [(rd.toNat, 19), (ra.toNat, 13)])
  | .rsvW rd ra => some (pack 0x2a000001 [(rd.toNat, 19), (ra.toNat, 13)])
  | .rsvP rd ra => some (pack 0x2a000002 [(rd.toNat, 19), (ra.toNat, 13)])
  | .rsvWP rd ra => some (pack 0x2a000003 [(rd.toNat, 19), (ra.toNat, 13)])
  | .spnd ra => some (pack 0x2a000004 [(ra.toNat, 13)])
  | .rrel rd => some (pack 0x2a000005 [(rd.toNat, 19)])
  | .rfill rd => some (pack 0x2a000006 [(rd.toNat, 19)])
  | .rwait ra => some (pack 0x2a000007 [(ra.toNat, 13)])
  | .sprint level => some (pack 0x2a000008 [(level.toNat, 7)])
  | .spore rd ra => some (pack 0x2c000000 [(rd.toNat, 19), (ra.toNat, 13)])
  | .larm rd ra => some (pack 0x2e000000 [(rd.toNat, 19), (ra.toNat, 13)])
  | .lpatchPrio rd ra rb => some (pack 0x2e000001 [(rd.toNat, 19), (ra.toNat, 13), (rb.toNat, 7)])
  | .lpatchArg rd ra rb => some (pack 0x2e000002 [(rd.toNat, 19), (ra.toNat, 13), (rb.toNat, 7)])
  | .lpatchCount rd ra rb => some (pack 0x2e000003 [(rd.toNat, 19), (ra.toNat, 13), (rb.toNat, 7)])
  | .lpatchDone rd ra rb => some (pack 0x2e000004 [(rd.toNat, 19), (ra.toNat, 13), (rb.toNat, 7)])
  | .vld vd ra rb e => some (pack 0x30000000 [(vd.toNat, 20), (ra.toNat, 14), (rb.toNat, 8), (e.code, 3)])
  | .vlds vd ra rb e => some (pack 0x30000020 [(vd.toNat, 20), (ra.toNat, 14), (rb.toNat, 8), (e.code, 3)])
  | .vldf vd ra rb e => some (pack 0x30000040 [(vd.toNat, 20), (ra.toNat, 14), (rb.toNat, 8), (e.code, 3)])
  | .vst vd ra rb e => some (pack 0x30000080 [(vd.toNat, 20), (ra.toNat, 14), (rb.toNat, 8), (e.code, 3)])
  | .vsts vd ra rb e => some (pack 0x300000a0 [(vd.toNat, 20), (ra.toNat, 14), (rb.toNat, 8), (e.code, 3)])
  | .vstf vd ra rb e => some (pack 0x300000c0 [(vd.toNat, 20), (ra.toNat, 14), (rb.toNat, 8), (e.code, 3)])
  | .vsetl rd ra => some (pack 0x32000000 [(rd.toNat, 19), (ra.toNat, 13)])
  | .vloop ra k => some (pack 0x32000001 [(ra.toNat, 13), (k.toNat, 7)])
  | .sbind v ra fl => some (pack 0x32e00002 [(v.toNat, 19), (ra.toNat, 13), (fl.toNat, 7)])
  | .sunbind v => some (pack 0x32e00003 [(v.toNat, 19)])
  | .vmovxXv rd ra vb => some (pack 0x32000004 [(rd.toNat, 19), (ra.toNat, 13), (vb.toNat, 7)])
  | .vmovxVx vd ra rb => some (pack 0x32000005 [(vd.toNat, 19), (ra.toNat, 13), (rb.toNat, 7)])
  | .add rd ra rb => some (pack 0x40000000 [(rd.toNat, 19), (ra.toNat, 13), (rb.toNat, 7)])
  | .sub rd ra rb => some (pack 0x40000001 [(rd.toNat, 19), (ra.toNat, 13), (rb.toNat, 7)])
  | .and rd ra rb => some (pack 0x40000002 [(rd.toNat, 19), (ra.toNat, 13), (rb.toNat, 7)])
  | .or rd ra rb => some (pack 0x40000003 [(rd.toNat, 19), (ra.toNat, 13), (rb.toNat, 7)])
  | .xor rd ra rb => some (pack 0x40000004 [(rd.toNat, 19), (ra.toNat, 13), (rb.toNat, 7)])
  | .sll rd ra rb => some (pack 0x40000005 [(rd.toNat, 19), (ra.toNat, 13), (rb.toNat, 7)])
  | .srl rd ra rb => some (pack 0x40000006 [(rd.toNat, 19), (ra.toNat, 13), (rb.toNat, 7)])
  | .sra rd ra rb => some (pack 0x40000007 [(rd.toNat, 19), (ra.toNat, 13), (rb.toNat, 7)])
  | .slt rd ra rb => some (pack 0x40000008 [(rd.toNat, 19), (ra.toNat, 13), (rb.toNat, 7)])
  | .sltu rd ra rb => some (pack 0x40000009 [(rd.toNat, 19), (ra.toNat, 13), (rb.toNat, 7)])
  | .min rd ra rb => some (pack 0x4000000a [(rd.toNat, 19), (ra.toNat, 13), (rb.toNat, 7)])
  | .max rd ra rb => some (pack 0x4000000b [(rd.toNat, 19), (ra.toNat, 13), (rb.toNat, 7)])
  | .minu rd ra rb => some (pack 0x4000000c [(rd.toNat, 19), (ra.toNat, 13), (rb.toNat, 7)])
  | .maxu rd ra rb => some (pack 0x4000000d [(rd.toNat, 19), (ra.toNat, 13), (rb.toNat, 7)])
  | .mul rd ra rb => some (pack 0x40000010 [(rd.toNat, 19), (ra.toNat, 13), (rb.toNat, 7)])
  | .mulhiSs rd ra rb => some (pack 0x40000011 [(rd.toNat, 19), (ra.toNat, 13), (rb.toNat, 7)])
  | .mulhiUu rd ra rb => some (pack 0x40000012 [(rd.toNat, 19), (ra.toNat, 13), (rb.toNat, 7)])
  | .mulhiSu rd ra rb => some (pack 0x40000013 [(rd.toNat, 19), (ra.toNat, 13), (rb.toNat, 7)])
  | .div rd ra rb => some (pack 0x40000014 [(rd.toNat, 19), (ra.toNat, 13), (rb.toNat, 7)])
  | .divu rd ra rb => some (pack 0x40000015 [(rd.toNat, 19), (ra.toNat, 13), (rb.toNat, 7)])
  | .rem rd ra rb => some (pack 0x40000016 [(rd.toNat, 19), (ra.toNat, 13), (rb.toNat, 7)])
  | .remu rd ra rb => some (pack 0x40000017 [(rd.toNat, 19), (ra.toNat, 13), (rb.toNat, 7)])
  | .addw rd ra rb => some (pack 0x40000020 [(rd.toNat, 19), (ra.toNat, 13), (rb.toNat, 7)])
  | .subw rd ra rb => some (pack 0x40000021 [(rd.toNat, 19), (ra.toNat, 13), (rb.toNat, 7)])
  | .sllw rd ra rb => some (pack 0x40000022 [(rd.toNat, 19), (ra.toNat, 13), (rb.toNat, 7)])
  | .srlw rd ra rb => some (pack 0x40000023 [(rd.toNat, 19), (ra.toNat, 13), (rb.toNat, 7)])
  | .sraw rd ra rb => some (pack 0x40000024 [(rd.toNat, 19), (ra.toNat, 13), (rb.toNat, 7)])
  | .mulw rd ra rb => some (pack 0x40000025 [(rd.toNat, 19), (ra.toNat, 13), (rb.toNat, 7)])
  | .divw rd ra rb => some (pack 0x40000026 [(rd.toNat, 19), (ra.toNat, 13), (rb.toNat, 7)])
  | .divuw rd ra rb => some (pack 0x40000027 [(rd.toNat, 19), (ra.toNat, 13), (rb.toNat, 7)])
  | .remw rd ra rb => some (pack 0x40000028 [(rd.toNat, 19), (ra.toNat, 13), (rb.toNat, 7)])
  | .remuw rd ra rb => some (pack 0x40000029 [(rd.toNat, 19), (ra.toNat, 13), (rb.toNat, 7)])
  | .addi rd ra imm => some (pack 0x42000000 [(rd.toNat, 19), (ra.toNat, 13), (imm.toNat, 0)])
  | .andi rd ra imm => some (pack 0x44000000 [(rd.toNat, 19), (ra.toNat, 13), (imm.toNat, 0)])
  | .ori rd ra imm => some (pack 0x46000000 [(rd.toNat, 19), (ra.toNat, 13), (imm.toNat, 0)])
  | .xori rd ra imm => some (pack 0x48000000 [(rd.toNat, 19), (ra.toNat, 13), (imm.toNat, 0)])
  | .slti rd ra imm => some (pack 0x4a000000 [(rd.toNat, 19), (ra.toNat, 13), (imm.toNat, 0)])
  | .sltiu rd ra imm => some (pack 0x4c000000 [(rd.toNat, 19), (ra.toNat, 13), (imm.toNat, 0)])
  | .slli rd ra sh => some (pack 0x4e000000 [(rd.toNat, 19), (ra.toNat, 13), (sh.toNat, 0)])
  | .srli rd ra sh => some (pack 0x4e000040 [(rd.toNat, 19), (ra.toNat, 13), (sh.toNat, 0)])
  | .srai rd ra sh => some (pack 0x4e000080 [(rd.toNat, 19), (ra.toNat, 13), (sh.toNat, 0)])
  | .slliw rd ra sh => some (pack 0x4e000100 [(rd.toNat, 19), (ra.toNat, 13), (sh.toNat, 0)])
  | .srliw rd ra sh => some (pack 0x4e000140 [(rd.toNat, 19), (ra.toNat, 13), (sh.toNat, 0)])
  | .sraiw rd ra sh => some (pack 0x4e000180 [(rd.toNat, 19), (ra.toNat, 13), (sh.toNat, 0)])
  | .lui rd imm => some (pack 0x50000000 [(rd.toNat, 19), (imm.toNat, 0)])
  | .auipc rd imm => some (pack 0x52000000 [(rd.toNat, 19), (imm.toNat, 0)])
  | .clz rd ra => some (pack 0x54000000 [(rd.toNat, 19), (ra.toNat, 13)])
  | .ctz rd ra => some (pack 0x54000001 [(rd.toNat, 19), (ra.toNat, 13)])
  | .popc rd ra => some (pack 0x54000002 [(rd.toNat, 19), (ra.toNat, 13)])
  | .bext rd ra rb => some (pack 0x54000003 [(rd.toNat, 19), (ra.toNat, 13), (rb.toNat, 7)])
  | .bins rd ra rb => some (pack 0x54000004 [(rd.toNat, 19), (ra.toNat, 13), (rb.toNat, 7)])
  | .sext rd ra rb => some (pack 0x54000005 [(rd.toNat, 19), (ra.toNat, 13), (rb.toNat, 7)])
  | .zext rd ra rb => some (pack 0x54000006 [(rd.toNat, 19), (ra.toNat, 13), (rb.toNat, 7)])
  | .lea rd ra rb => some (pack 0x54000007 [(rd.toNat, 19), (ra.toNat, 13), (rb.toNat, 7)])
  | .lea2 rd ra rb => some (pack 0x54000008 [(rd.toNat, 19), (ra.toNat, 13), (rb.toNat, 7)])
  | .lea4 rd ra rb => some (pack 0x54000009 [(rd.toNat, 19), (ra.toNat, 13), (rb.toNat, 7)])
  | .lea8 rd ra rb => some (pack 0x5400000a [(rd.toNat, 19), (ra.toNat, 13), (rb.toNat, 7)])
  | .fadd rd ra rb rm => some (pack 0x56000000 [(rd.toNat, 19), (ra.toNat, 13), (rb.toNat, 7), (rm.code, 0)])
  | .fsub rd ra rb rm => some (pack 0x56000008 [(rd.toNat, 19), (ra.toNat, 13), (rb.toNat, 7), (rm.code, 0)])
  | .fmul rd ra rb rm => some (pack 0x56000010 [(rd.toNat, 19), (ra.toNat, 13), (rb.toNat, 7), (rm.code, 0)])
  | .fdiv rd ra rb rm => some (pack 0x56000018 [(rd.toNat, 19), (ra.toNat, 13), (rb.toNat, 7), (rm.code, 0)])
  | .fsqrt rd ra rm => some (pack 0x56000020 [(rd.toNat, 19), (ra.toNat, 13), (rm.code, 0)])
  | .fmin rd ra rb => some (pack 0x56000028 [(rd.toNat, 19), (ra.toNat, 13), (rb.toNat, 7)])
  | .fmax rd ra rb => some (pack 0x56000030 [(rd.toNat, 19), (ra.toNat, 13), (rb.toNat, 7)])
  | .feq rd ra rb => some (pack 0x56000038 [(rd.toNat, 19), (ra.toNat, 13), (rb.toNat, 7)])
  | .fclt rd ra rb => some (pack 0x56000040 [(rd.toNat, 19), (ra.toNat, 13), (rb.toNat, 7)])
  | .fcle rd ra rb => some (pack 0x56000048 [(rd.toNat, 19), (ra.toNat, 13), (rb.toNat, 7)])
  | .ftoiW rd ra rm => some (pack 0x56000050 [(rd.toNat, 19), (ra.toNat, 13), (rm.code, 0)])
  | .ftoiL rd ra rm => some (pack 0x56000058 [(rd.toNat, 19), (ra.toNat, 13), (rm.code, 0)])
  | .itofW rd ra rm => some (pack 0x56000060 [(rd.toNat, 19), (ra.toNat, 13), (rm.code, 0)])
  | .itofL rd ra rm => some (pack 0x56000068 [(rd.toNat, 19), (ra.toNat, 13), (rm.code, 0)])
  | .fabs rd ra => some (pack 0x56000070 [(rd.toNat, 19), (ra.toNat, 13)])
  | .fneg rd ra => some (pack 0x56000078 [(rd.toNat, 19), (ra.toNat, 13)])
  | .fmaS rd ra rb rc => some (pack 0x58000000 [(rd.toNat, 19), (ra.toNat, 13), (rb.toNat, 7), (rc.toNat, 1)])
  | .fmsS rd ra rb rc => some (pack 0x58000001 [(rd.toNat, 19), (ra.toNat, 13), (rb.toNat, 7), (rc.toNat, 1)])
  | .varithVadd vd va vb ha hb ty => some (pack 0x5a000000 [(vd.toNat, 20), (va.toNat, 15), (vb.toNat, 10), (ha.toNat, 9), (hb.toNat, 8), (ty.code, 6)])
  | .varithVsub vd va vb ha hb ty => some (pack 0x5a000001 [(vd.toNat, 20), (va.toNat, 15), (vb.toNat, 10), (ha.toNat, 9), (hb.toNat, 8), (ty.code, 6)])
  | .varithVmul vd va vb ha hb ty => some (pack 0x5a000002 [(vd.toNat, 20), (va.toNat, 15), (vb.toNat, 10), (ha.toNat, 9), (hb.toNat, 8), (ty.code, 6)])
  | .varithVmin vd va vb ha hb ty => some (pack 0x5a000003 [(vd.toNat, 20), (va.toNat, 15), (vb.toNat, 10), (ha.toNat, 9), (hb.toNat, 8), (ty.code, 6)])
  | .varithVmax vd va vb ha hb ty => some (pack 0x5a000004 [(vd.toNat, 20), (va.toNat, 15), (vb.toNat, 10), (ha.toNat, 9), (hb.toNat, 8), (ty.code, 6)])
  | .varithVabs vd va ha ty => some (pack 0x5a000005 [(vd.toNat, 20), (va.toNat, 15), (ha.toNat, 9), (ty.code, 6)])
  | .varithVneg vd va ha ty => some (pack 0x5a000006 [(vd.toNat, 20), (va.toNat, 15), (ha.toNat, 9), (ty.code, 6)])
  | .vintVadd vd va vb ha hb ty => some (pack 0x5c000000 [(vd.toNat, 20), (va.toNat, 15), (vb.toNat, 10), (ha.toNat, 9), (hb.toNat, 8), (ty.code, 6)])
  | .vintVsub vd va vb ha hb ty => some (pack 0x5c000001 [(vd.toNat, 20), (va.toNat, 15), (vb.toNat, 10), (ha.toNat, 9), (hb.toNat, 8), (ty.code, 6)])
  | .vintVmul vd va vb ha hb ty => some (pack 0x5c000002 [(vd.toNat, 20), (va.toNat, 15), (vb.toNat, 10), (ha.toNat, 9), (hb.toNat, 8), (ty.code, 6)])
  | .vintVmin vd va vb ha hb ty => some (pack 0x5c000003 [(vd.toNat, 20), (va.toNat, 15), (vb.toNat, 10), (ha.toNat, 9), (hb.toNat, 8), (ty.code, 6)])
  | .vintVmax vd va vb ha hb ty => some (pack 0x5c000004 [(vd.toNat, 20), (va.toNat, 15), (vb.toNat, 10), (ha.toNat, 9), (hb.toNat, 8), (ty.code, 6)])
  | .vintVminu vd va vb ha hb ty => some (pack 0x5c000005 [(vd.toNat, 20), (va.toNat, 15), (vb.toNat, 10), (ha.toNat, 9), (hb.toNat, 8), (ty.code, 6)])
  | .vintVmaxu vd va vb ha hb ty => some (pack 0x5c000006 [(vd.toNat, 20), (va.toNat, 15), (vb.toNat, 10), (ha.toNat, 9), (hb.toNat, 8), (ty.code, 6)])
  | .vintVand vd va vb ha hb ty => some (pack 0x5c000007 [(vd.toNat, 20), (va.toNat, 15), (vb.toNat, 10), (ha.toNat, 9), (hb.toNat, 8), (ty.code, 6)])
  | .vintVor vd va vb ha hb ty => some (pack 0x5c000008 [(vd.toNat, 20), (va.toNat, 15), (vb.toNat, 10), (ha.toNat, 9), (hb.toNat, 8), (ty.code, 6)])
  | .vintVxor vd va vb ha hb ty => some (pack 0x5c000009 [(vd.toNat, 20), (va.toNat, 15), (vb.toNat, 10), (ha.toNat, 9), (hb.toNat, 8), (ty.code, 6)])
  | .vintVsll vd va vb ha hb ty => some (pack 0x5c00000a [(vd.toNat, 20), (va.toNat, 15), (vb.toNat, 10), (ha.toNat, 9), (hb.toNat, 8), (ty.code, 6)])
  | .vintVsrl vd va vb ha hb ty => some (pack 0x5c00000b [(vd.toNat, 20), (va.toNat, 15), (vb.toNat, 10), (ha.toNat, 9), (hb.toNat, 8), (ty.code, 6)])
  | .vintVsra vd va vb ha hb ty => some (pack 0x5c00000c [(vd.toNat, 20), (va.toNat, 15), (vb.toNat, 10), (ha.toNat, 9), (hb.toNat, 8), (ty.code, 6)])
  | .vintVadds vd va vb ha hb ty => some (pack 0x5c00000d [(vd.toNat, 20), (va.toNat, 15), (vb.toNat, 10), (ha.toNat, 9), (hb.toNat, 8), (ty.code, 6)])
  | .vintVsubs vd va vb ha hb ty => some (pack 0x5c00000e [(vd.toNat, 20), (va.toNat, 15), (vb.toNat, 10), (ha.toNat, 9), (hb.toNat, 8), (ty.code, 6)])
  | .vcvtBf16F32 vd va vb ha hb sr => some (pack 0x5e000000 [(vd.toNat, 20), (va.toNat, 15), (vb.toNat, 10), (ha.toNat, 9), (hb.toNat, 8), (sr.toNat, 7)])
  | .vcvtF32Bf16Lo vd va ha => some (pack 0x5e000001 [(vd.toNat, 20), (va.toNat, 15), (ha.toNat, 9)])
  | .vcvtF32Bf16Hi vd va ha => some (pack 0x5e000002 [(vd.toNat, 20), (va.toNat, 15), (ha.toNat, 9)])
  | .vcvtF16F32 vd va vb ha hb sr => some (pack 0x5e000003 [(vd.toNat, 20), (va.toNat, 15), (vb.toNat, 10), (ha.toNat, 9), (hb.toNat, 8), (sr.toNat, 7)])
  | .vcvtF32F16Lo vd va ha => some (pack 0x5e000004 [(vd.toNat, 20), (va.toNat, 15), (ha.toNat, 9)])
  | .vcvtF32F16Hi vd va ha => some (pack 0x5e000005 [(vd.toNat, 20), (va.toNat, 15), (ha.toNat, 9)])
  | .vcvtF32I32 vd va ha => some (pack 0x5e000006 [(vd.toNat, 20), (va.toNat, 15), (ha.toNat, 9)])
  | .vcvtI32F32 vd va ha => some (pack 0x5e000007 [(vd.toNat, 20), (va.toNat, 15), (ha.toNat, 9)])
  | .vunpkE2m1 vd va ha => some (pack 0x5e000010 [(vd.toNat, 20), (va.toNat, 15), (ha.toNat, 9)])
  | .vunpkE3m2 vd va ha => some (pack 0x5e000011 [(vd.toNat, 20), (va.toNat, 15), (ha.toNat, 9)])
  | .vunpkE2m3 vd va ha => some (pack 0x5e000012 [(vd.toNat, 20), (va.toNat, 15), (ha.toNat, 9)])
  | .vunpkE4m3 vd va ha => some (pack 0x5e000013 [(vd.toNat, 20), (va.toNat, 15), (ha.toNat, 9)])
  | .vunpkE5m2 vd va ha => some (pack 0x5e000014 [(vd.toNat, 20), (va.toNat, 15), (ha.toNat, 9)])
  | .vpackE2m1 vd va ha sr => some (pack 0x5e000018 [(vd.toNat, 20), (va.toNat, 15), (ha.toNat, 9), (sr.toNat, 7)])
  | .vpackE3m2 vd va ha sr => some (pack 0x5e000019 [(vd.toNat, 20), (va.toNat, 15), (ha.toNat, 9), (sr.toNat, 7)])
  | .vpackE2m3 vd va ha sr => some (pack 0x5e00001a [(vd.toNat, 20), (va.toNat, 15), (ha.toNat, 9), (sr.toNat, 7)])
  | .vpackE4m3 vd va ha sr => some (pack 0x5e00001b [(vd.toNat, 20), (va.toNat, 15), (ha.toNat, 9), (sr.toNat, 7)])
  | .vpackE5m2 vd va ha sr => some (pack 0x5e00001c [(vd.toNat, 20), (va.toNat, 15), (ha.toNat, 9), (sr.toNat, 7)])
  | .vrsum vd va ha ty => some (pack 0x60000000 [(vd.toNat, 20), (va.toNat, 15), (ha.toNat, 9), (ty.code, 6)])
  | .vrmax vd va ha ty => some (pack 0x60000001 [(vd.toNat, 20), (va.toNat, 15), (ha.toNat, 9), (ty.code, 6)])
  | .vrmin vd va ha ty => some (pack 0x60000002 [(vd.toNat, 20), (va.toNat, 15), (ha.toNat, 9), (ty.code, 6)])
  | .vcmpeq vd va vb ha hb ty => some (pack 0x60000008 [(vd.toNat, 20), (va.toNat, 15), (vb.toNat, 10), (ha.toNat, 9), (hb.toNat, 8), (ty.code, 6)])
  | .vcmplt vd va vb ha hb ty => some (pack 0x60000009 [(vd.toNat, 20), (va.toNat, 15), (vb.toNat, 10), (ha.toNat, 9), (hb.toNat, 8), (ty.code, 6)])
  | .vcmple vd va vb ha hb ty => some (pack 0x6000000a [(vd.toNat, 20), (va.toNat, 15), (vb.toNat, 10), (ha.toNat, 9), (hb.toNat, 8), (ty.code, 6)])
  | .vsel vd va vb ha hb ty => some (pack 0x6000000b [(vd.toNat, 20), (va.toNat, 15), (vb.toNat, 10), (ha.toNat, 9), (hb.toNat, 8), (ty.code, 6)])
  | .vshuf vd va vb ha hb ty => some (pack 0x60000010 [(vd.toNat, 20), (va.toNat, 15), (vb.toNat, 10), (ha.toNat, 9), (hb.toNat, 8), (ty.code, 6)])
  | .vbcast vd va ha ty => some (pack 0x60000011 [(vd.toNat, 20), (va.toNat, 15), (ha.toNat, 9), (ty.code, 6)])
  | .vrcp vd va ha => some (pack 0x62000000 [(vd.toNat, 20), (va.toNat, 15), (ha.toNat, 9)])
  | .vrsqrt vd va ha => some (pack 0x62000001 [(vd.toNat, 20), (va.toNat, 15), (ha.toNat, 9)])
  | .vsqrt vd va ha => some (pack 0x62000002 [(vd.toNat, 20), (va.toNat, 15), (ha.toNat, 9)])
  | .vexp2 vd va ha => some (pack 0x62000003 [(vd.toNat, 20), (va.toNat, 15), (ha.toNat, 9)])
  | .vlog2 vd va ha => some (pack 0x62000004 [(vd.toNat, 20), (va.toNat, 15), (ha.toNat, 9)])
  | .vfma vd va vb ha hb ty => some (pack 0x64000000 [(vd.toNat, 20), (va.toNat, 15), (vb.toNat, 10), (ha.toNat, 9), (hb.toNat, 8), (ty.code, 6)])
  | .vfms vd va vb ha hb ty => some (pack 0x64000001 [(vd.toNat, 20), (va.toNat, 15), (vb.toNat, 10), (ha.toNat, 9), (hb.toNat, 8), (ty.code, 6)])
  | .vfnma vd va vb ha hb ty => some (pack 0x64000002 [(vd.toNat, 20), (va.toNat, 15), (vb.toNat, 10), (ha.toNat, 9), (hb.toNat, 8), (ty.code, 6)])
  | _ => none

/-- The instruction that the decoder reads from the 32 bits w of one word, bit 0 least significant (R2, R50). -/
def decodeTableWord (nbits w : Nat) : Option Instr :=
  if nbits = 0 ∨ 32 < nbits then none
  else match decodeWord (w % 2^32) with
    | .ok i => some i
    | .error _ => none

end Sys2Proof
end

