-- ==== Sys2Proof/Machine/State.lean ====
section
/-!
DEFINITION. The state of the package as plain data, the reasons a step can stop, and the state after reset.
Tables are sparse: an entry that is not listed holds the default named beside its field. Numbering: thread t = 4*core +
thread, core c = 128*die + logical core (R14, R15).
-/
namespace Sys2Proof.Machine

/-- A step stops with a fault only when the model's own agenda names something the part does not have. -/
inductive Fault where
  /-- Raised by `step` when the agenda's head is an ill-formed term (`Instr.wf` fails, or a thread or core number is out of
  range). No program raises it. Safe: the machine stops where the part has no such agent (log entry 2). -/
  | noSuchAgent
  deriving DecidableEq, Repr

/-- An instruction without a meaning. -/
inductive Refusal where
  /-- Raised by an arm of `exec` for an instruction whose meaning is not written yet. Safe. -/
  | notModelled (mnemonic : String)
  deriving DecidableEq, Repr

/-- The trap causes of R6 and R147, with the debug and software forms of R133. -/
inductive Cause where
  | illegal | misalign | page1 | page2 | access | farord | typ | acklost | retryexp | scope | tag | slot
  | barmemb | bartwice | barcount | flume | mxq | spill | cut | nores | overrun | sig | ue | watchdog | spore
  | brk
  | watch (n : Fin 4)
  | software (code : BitVec 12)
  deriving DecidableEq, Repr

/-- What failed in a containment (R348, R352, R358, R362): nothing, a register, an entry of a queue, a scratchpad granule of the
core (flumes among them), an accumulator, the MXU's datapath, the cluster's vector unit or SFU, a scratchpad granule of another
core, a sector of memory, a link, or data elsewhere. -/
inductive Datum where
  | none
  | register
  | queue
  | spad (a : Nat)
  | accumulator (n : Nat)
  | datapath
  | unit
  | peer (a : Nat)
  | sector (a : Nat)
  | link
  | elsewhere
  deriving DecidableEq, Repr

/-- A pending asynchronous cause with what it records (R134, R147), and what failed (R348). -/
structure Async where
  cause : Cause
  tval : Word
  tval2 : Word
  datum : Datum
  deriving DecidableEq, Repr

/-- The access kinds of R148 and R333. -/
inductive Access where
  | fetch | load | store | atomic | getr | putr
  deriving DecidableEq, Repr

/-- The AMO operations of R59. -/
inductive AmoOp where
  | add | and | or | xor | min | max | minu | maxu | swap | cas
  deriving DecidableEq, Repr

/-- The waits of R19: what a BLOCKED thread waits for. -/
inductive Wait where
  /-- an instruction fetch (R19) -/
  | fetch
  /-- the monitor's answer to a walk request for an address (R328) -/
  | walk (va : Word)
  /-- the copy of the held page at a host address (R152, R374) -/
  | storeMiss (a : Nat)
  /-- the store buffer holds 16 stores (R152) -/
  | bufferRoom
  /-- a buffered store, put or vector access overlaps these bytes (R151, R163, R215) -/
  | overlap (a size : Nat)
  /-- every earlier access performed at a scope (R154), and with `vector` every earlier vector memory entry retired
  (R215) -/
  | performed (scope : Scope) (vector : Bool)
  /-- the store buffer is empty (R159) -/
  | bufferEmpty
  /-- the NI holds 32 PUTRs of the thread (R164) -/
  | putRoom
  /-- the response of request r (R159, R163) -/
  | reply (r : Nat)
  /-- 64 completion entries reserved or held (R165, R253) -/
  | fifoRoom
  /-- an entry of the completion FIFO (R170) -/
  | completion
  /-- a credit of channel ch of core c for a message of len bytes to a rank, with the slot row that it matched (R39) -/
  | credit (c ch rank len : Nat) (row : Option Nat)
  /-- a message on channel ch of the thread's core (R172) -/
  | recv (ch : Nat)
  /-- n filled, or n free, slots of a flume (R183) -/
  | filled (fl n : Nat)
  | free (fl n : Nat)
  /-- completion of generation `gen` of domain `key` (R174) -/
  | barrier (key gen : Nat)
  /-- a unit of a semaphore (R179) -/
  | semaphore (i : Nat)
  /-- a wake, or the cycle at which the sleep ends (R145) -/
  | sleep (until? : Option Nat)
  /-- a grant of the sluice (R272) -/
  | reservation
  /-- floor(PF) at most a bound (R277) -/
  | fill (bound : Nat)
  /-- room in the core's vector queue (R219) -/
  | queueRoom (n : Nat)
  /-- no entry queued before entry number `before` writes v (R229) -/
  | vwriter (v before : Nat)
  /-- no queued entry names v (R232, R233) -/
  | streamIdle (v : Nat)
  /-- the thread's vector operations retired (R96) -/
  | vectorRetired
  /-- room in the MXU queue (R253) -/
  | mxRoom
  /-- the conditions of HALT (R142) -/
  | halt
  /-- the thread's vector memory entries retired (R215) -/
  | vectorMemory
  /-- rank entry IN TRANSIT with 16 messages held (R40) -/
  | inTransit (rank : Nat)
  /-- the Basin holds reads of a line (R201, R212) -/
  | held (line : Nat)
  /-- an entry of the NI's hazard table (R210) or, for an atomic that acts as a global write, of the die's forward table
  (R202) -/
  | forward (line : Nat) (wide : Bool)
  /-- a buffered store, a PUTR in the NI or a vector access overlaps these bytes (R163, R215) -/
  | putsDone (a size : Nat)
  /-- the thread's stores and PUTRs, before it reads tables (R296, R305) -/
  | writesDone
  /-- the coordinating Weir's answer to a descriptor (R367) -/
  | spore (bs : List Byte)
  deriving DecidableEq, Repr

/-- Why a thread is PARKED: a second-stage fault (R344) or a containment without a launch (R352). -/
inductive ParkReason where
  | page2 | contained
  deriving DecidableEq, Repr

/-- The thread states of R19; a wait carries the time since which it lasts (R188). -/
inductive Status where
  | free
  | ready
  | blocked (w : Wait) (since : Nat)
  | suspended
  | parked (why : ParkReason)
  | halted
  deriving DecidableEq, Repr

/-- How the word under execution left the thread; the model's own field (log entry 2). -/
inductive Flow where
  | falls
  | taken (target : Word)
  | returned (target : Word)
  | trapped
  | waits
  deriving DecidableEq, Repr

/-- Where a buffered store goes: a byte key of the memory, or the thread's MXU staging buffer (R252). -/
inductive Place where
  | mem (a : Nat)
  | staging (off : Nat)
  deriving DecidableEq, Repr

/-- A store in a thread's store buffer (R152, R153). `sent` marks a global store on its way to the Basin, `committed` one that
the Basin has committed and whose acknowledgement is outstanding (R201, R212). -/
structure Store where
  id : Nat
  va : Word
  place : Place
  size : Nat
  data : Word
  g : Bool
  sent : Bool
  sentAt : Nat
  committed : Bool
  deriving DecidableEq, Repr

/-- The stages of a PUTR in the NI (R164): queued, sent, and performed where its path leads, or committed at the Basin (R201),
with its acknowledgement outstanding; or lost on its way to a fabric node without a lane (R406), where it may have `reached`
the node unless it left after the last lane had failed. -/
inductive PutStage where
  | queued | sent | performed
  | lost (reached : Bool)
  deriving DecidableEq, Repr

/-- A PUTR in the NI, held until it is performed at PKG (R164). -/
structure Put where
  id : Nat
  va : Word
  a : Nat
  size : Nat
  data : Word
  g : Bool
  stage : PutStage
  sentAt : Nat
  deriving DecidableEq, Repr

/-- A completion entry of 16 bytes (R169, R264), as two doubles. -/
structure Completion where
  lo : Word
  hi : Word
  deriving DecidableEq, Repr

/-- What an AMO, GETR or SPORE got back (R162, R188, R367). -/
inductive Reply where
  | value (v : Word)
  | retryexp (va num : Word)
  | dropped
  | fault (va : Word)
  deriving DecidableEq, Repr

/-- The binding of a stream register (R231), with the launch that made it (R233). -/
structure Bind where
  fl : BitVec 4
  bound : Nat
  ro : Nat
  wo : Nat
  launch : Option Nat
  deriving DecidableEq, Repr

/-- A vector queue entry (R220): its word, its thread, the length in force, the scalar values it captured (of ra and rb,
for VMOVX.VX the value and the lane), its element addresses as memory keys, the bindings of v28-v31 it saw, for the second word
of a pair whose first word created an entry the contents that its sources had before that entry wrote (R222; empty until
then), the generator from which the second word of a pair draws when the first writes LFSRSEED (R130), the stream elements it
has popped, by source position (0 vd, 1 va, 2 vb), and the elements of a vector load or store that it has read or written
(R190), with whether one of them held an error. -/
structure VEntry where
  word : Instr
  thread : Nat
  len : Nat
  xa : Word
  xb : Word
  addrs : List Nat
  binds : List (Option Bind)
  old : Option (List (Nat × BitVec 1024))
  seed : Option (BitVec 32)
  got : List (Nat × BitVec 1024)
  part : List Nat
  ue : Bool
  deriving DecidableEq, Repr

/-- A slot of the vector queue: an entry, or a loop entry (R228) with its body, the passes left and the position in the
pass. `begun` marks an entry of which an element, or a loop of which an entry, has been popped, moved or executed (R224), `done`
what has executed and not retired, `sent` what the SFU has accepted (R250); `flags` gathers the float
flags (R223); `age` is its number among the accesses (R215); `since` is the time it has headed the queue (R223). -/
structure VItem where
  body : List VEntry
  isLoop : Bool
  passes : Nat
  pos : Nat
  begun : Bool
  done : Bool
  sent : Bool
  flags : BitVec 5
  age : Nat
  since : Nat
  thread : Nat
  deriving DecidableEq, Repr

/-- A held operand (R69, R226): its source position, its register, its value and the reuses left. -/
structure Held where
  position : Nat
  v : VReg
  value : BitVec 1024
  uses : Nat
  deriving DecidableEq, Repr

/-- A flume (R181). -/
structure Flume where
  base : Nat
  k : Nat
  size : Nat
  head : Nat
  tail : Nat
  filled : Nat
  configured : Bool
  launch : Option Nat
  deriving DecidableEq, Repr

/-- An MXU command in the queue: its record (R256), thread, sampled CSRs (R253), ticket, and the sequencer's progress
(R259). -/
structure MxCmd where
  code : Nat
  nc : Bool
  fl : Bool
  tag : Nat
  acc : Nat
  fa : Nat
  fb : Nat
  ks : Nat
  qbase : Nat
  row0 : Nat
  rows : Nat
  off : Nat
  thread : Nat
  fmtA : Nat
  fmtB : Nat
  out : Nat
  bandA : Word
  bandB : Word
  ticket : BitVec 16
  begun : Bool
  headA : Nat
  headB : Nat
  step : Nat
  finished : Bool
  flags : BitVec 5
  ue : Bool
  since : Nat
  deriving DecidableEq, Repr

/-- The thread's suppressed commands since its last MX.FENCE (R262). -/
structure Tally where
  flags : BitVec 5
  count : Nat
  status : Nat
  deriving DecidableEq, Repr

/-- The four loop CSRs (R125). -/
structure LoopRegs where
  start : Word
  stop : Word
  count : BitVec 32
  outer : Word
  deriving DecidableEq, Repr

/-- A hardware thread (R15, R19, R68, R71). `skip` holds the bundles that a zero-count LOOP leaves for another place, with that
place (R126); `loopHeld` the loop CSRs in force for a bundle that has written some of them, `loopWritten` which (R125); `again`
counts the request numbers that a rollback makes it repeat (R355). -/
structure Thread where
  status : Status
  regs : Vector Word 64
  pc : Word
  from? : Option Word
  second : Option (BitVec 32)
  flow : Flow
  skip : List (Word × Word)
  tstat : Word
  tcause : Word
  tval : Word
  tval2 : Word
  tepc : Word
  tvec : Word
  tscratch : Word
  fcsr : BitVec 11
  lpstart : Word
  lpend : Word
  lpcount : BitVec 32
  lpouter : Word
  loopHeld : Option LoopRegs
  loopWritten : BitVec 4
  clip : Bool
  clipTrap : Bool
  mxfmta : BitVec 4
  mxfmtb : BitVec 4
  mxout : BitVec 4
  mxbanda : Word
  mxbandb : Word
  resv : Nat
  req : BitVec 2
  dc : Nat
  mc : Nat
  grantAge : Nat
  met : Bool
  rclass : BitVec 3
  rmargin : Nat
  vl : Nat
  sigEn : Bool
  sigMis : Bool
  chkC : BitVec 9
  chkD : BitVec 9
  lfsr : BitVec 32
  watchA : Vector Word 4
  watchM : Vector Word 4
  watchOnce : Option Word
  watchTrap : Option Word
  fetched : Option (BitVec 32 × BitVec 32)
  wake : Bool
  buffer : List Store
  dirty : List Nat
  puts : List Put
  ticket : BitVec 16
  reqno : BitVec 16
  again : Nat
  reply : Option Reply
  woke : Option Wait
  fifo : List Completion
  reserved : Nat
  staging : Vector Word 8
  tally : Tally
  replay : List VEntry
  pending : List Async
  launch : Option Nat
  index : Nat
  permits : List Word
  deriving DecidableEq, Repr

/-- The old values that the second word of a pair reads (R51, R222), and the length of the vector queue before the pair;
`seed` is the generator when the first word writes LFSRSEED (R130), `got` the stream elements that the second word has popped
before a first word that moves a flume's head (R51). -/
structure PairView where
  regs : Vector Word 64
  fcsr : BitVec 11
  seed : Option (BitVec 32)
  vl : Nat
  binds : Vector (Option Bind) 4
  queued : Nat
  got : List (Nat × BitVec 1024)
  deriving DecidableEq, Repr

/-- A message entry (R36): its header and payload, 64 bytes. -/
structure Message where
  header : Word
  payload : List Byte
  sender : Nat
  deriving DecidableEq, Repr

/-- What asks for a credit (R39): a thread whose SEND waits, or a message that its NI held for an entry IN TRANSIT (R40). -/
inductive Asker where
  | thread (t : Nat)
  | packet (k : Nat)
  deriving DecidableEq, Repr

/-- A receive channel (R36, R39): messages held, credits promised, what waits for a credit in the order of the
requests, credits granted to sends that have not used them, RECV waiters longest first, and messages taken by a waiter. -/
structure Channel where
  queue : List Message
  promised : Nat
  asking : List Asker
  granted : List Nat
  waiting : List Nat
  claimed : List (Nat × Message)
  deriving DecidableEq, Repr

/-- A row of a slot table (R303) and the bytes sent in it (R301). -/
structure SlotRow where
  start : Nat
  stop : Nat
  rank : Nat
  channel : Nat
  limit : Nat
  sent : Nat
  deriving DecidableEq, Repr

/-- A core (R15): everything its four threads share. `accsWritten` are the accumulators written in the superstep (R353),
`slotHeld` holds the sends that have counted in a slot row and not left (thread, row, bytes; R29, R171). -/
structure Core where
  vregs : Vector (BitVec 1024) 32
  binds : Vector (Option Bind) 4
  holds : List Held
  vqueue : List VItem
  flumes : Vector Flume 16
  accs : Sparse (BitVec 32)
  accsWritten : List Nat
  mxqueue : List MxCmd
  channels : Sparse Channel
  comm : Bool
  phaseStart : Nat
  rows : List SlotRow
  slotBase : Word
  slotCur : Option Nat
  slotNext : Option (Word × List SlotRow)
  slotHeld : List (Nat × Nat × Nat)
  cycle : Nat
  vshare : BitVec 4
  level : BitVec 2
  clock : BitVec 2
  residue : Nat
  chargedLast : Nat
  meterRate : Nat
  issuedLast : Nat
  yields : List (Nat × List Nat)
  rank : Nat
  deriving DecidableEq, Repr

/-- The targets that execute requests and keep replay windows (R160, R162). -/
inductive Agent where
  | basin
  | weir
  | slice (die n : Nat)
  | ni (c : Nat)
  | hostIO
  | optical
  deriving DecidableEq, Repr

/-- An entry of a replay window (R162). -/
structure Replayed where
  agent : Agent
  thread : Nat
  num : BitVec 16
  value : Word
  time : Nat
  deriving DecidableEq, Repr

/-- The stages of a request: on its way, executed with its answer, found expired (R162), dropped for its tag (R188), or met
by an uncorrectable error (R348). -/
inductive Stage where
  | sent
  | executed (v : Word)
  | expired
  | dropped
  | faulted
  deriving DecidableEq, Repr

/-- An AMO or GETR on its way (R159, R162, R163); `op` is none for GETR. `a` is the byte's key, `rank` the target of a
rank-space access; `ahead` counts the thread's numbers from its own on that were used before a rollback (R355), 0 for a new one;
`first` is the time of its first send. -/
structure Request where
  id : Nat
  thread : Nat
  va : Word
  a : Nat
  size : Nat
  op : Option AmoOp
  float : Bool
  b : Word
  cmp : Word
  g : Bool
  num : BitVec 16
  agent : Agent
  rank : Option Nat
  stage : Stage
  resends : Nat
  lastSend : Nat
  ahead : Nat
  first : Nat
  deriving DecidableEq, Repr

/-- What a packet on a link carries. -/
inductive Cargo where
  | message (ch : Nat) (m : Message)
  | wake (thread : Nat)
  | request (r : Nat)
  | put (w : Nat)
  deriving DecidableEq, Repr

/-- A packet bound for a core (R27, R38, R307). `dest` is the core that its rank named when it left; `stamp` orders it after
its thread's earlier accesses (R171); `held` tells that its NI holds it for an entry IN TRANSIT (R40), `credit` that a credit
of its channel is promised to it (R39), `ejected` that it has passed the router's tag compare, `ring` that a resumed core
replays it from its spill ring (R316); `cut` is the epoch of the last spore cut that its sender had made (R377). -/
structure Packet where
  id : Nat
  cargo : Cargo
  source : Nat
  rank : Nat
  dest : Nat
  tag : Nat
  stamp : Nat
  release : Bool
  held : Bool
  credit : Bool
  ejected : Bool
  ring : Bool
  phase : Bool
  cut : Nat
  pkg : Nat
  deriving DecidableEq, Repr

/-- A dirty notice on its way to the Basin or waiting for its acknowledgement (R153, R203); `engine` marks one of a copy command's
write, which is no access of its thread (R154). -/
structure Notice where
  id : Nat
  line : Nat
  thread : Nat
  va : Word
  origin : Nat
  arrived : Bool
  sentAt : Nat
  engine : Bool
  deriving DecidableEq, Repr

/-- The life of an entry of a forward table (R202, R203, R212): its write is on its way, has committed in the home die's L2,
is seen through the Basin too, or has lost the acknowledgement of its notice. -/
inductive ForwardStage where
  | pending | committed | covered | lost
  deriving DecidableEq, Repr

/-- An entry of a die's forward table (R202): one early write to another die's window. -/
structure Forward where
  id : Nat
  die : Nat
  a : Nat
  size : Nat
  data : Word
  stage : ForwardStage
  deriving DecidableEq, Repr

/-- A 64 KiB page that a copy command has entered, as translated then (R339): its virtual base, its host base, its leaf and the
leaf's entry. -/
structure EnteredPage where
  va : Nat
  a : Nat
  leaf : Nat
  entry : Word
  deriving DecidableEq, Repr

/-- A copy command (R165, R324); `supervisor` is its thread's privilege at issue (R333). `begun` tells that an engine has
taken it before, `sources` and `dests` are the pages that it has entered to read and to write, `early` holds the bytes of units
that it has read ahead and `written` the units that it has written ahead, by their offset (R166), `writes` are its writes whose
acknowledgements are outstanding, and `lost` the address of the first one that was lost (R166, R169). -/
structure Copy where
  id : Nat
  thread : Nat
  part : Nat
  supervisor : Bool
  die : Nat
  put : Bool
  g : Bool
  n : Nat
  loc : Word
  rem : Word
  ticket : BitVec 16
  running : Bool
  done : Nat
  begun : Bool
  sources : List EnteredPage
  dests : List EnteredPage
  early : List (Nat × List Byte)
  written : List Nat
  writes : List Put
  lost : Option Word
  deriving DecidableEq, Repr

/-- A line whose reads the Basin holds (R201, R212): for a request or a write, since a time. -/
structure HeldLine where
  line : Nat
  owner : Nat
  since : Nat
  deriving DecidableEq, Repr

/-- A barrier domain (R31, R35, R175, R176): its image, with the cores of a cluster-level one as cores of the die, its
generation number, the members that have arrived in the open generation, the generation each member's next arrival belongs to
where it differs from the domain's at install, and at package level the arrivals of generations after the open one, each with
its generation. -/
structure Domain where
  level : Nat
  threads : BitVec 4
  weir : Nat
  count : Nat
  cores : BitVec 128
  part : Option Nat
  launch : Option Nat
  gen : Nat
  base : Nat
  arrived : List Nat
  left : Sparse Nat
  early : List (Nat × Nat)
  deriving DecidableEq, Repr

/-- A Weir barrier (R31, R34): its count, the arrivals of its open generation and the generations completed. -/
structure WeirBarrier where
  count : Nat
  arrived : Nat
  gen : Nat
  deriving DecidableEq, Repr

/-- A Weir semaphore (R179): value, waiting threads longest first, threads granted a unit. -/
structure Semaphore where
  value : Nat
  waiting : List Nat
  granted : List Nat
  deriving DecidableEq, Repr

/-- A request of the sluice queue (R272, R273); without `waits` it is a plain RSV or RSV.p whose grant the monitor makes
(R274); `assisted` tells that admission was host-assisted when it was made (R328). -/
structure Waiting where
  thread : Nat
  part : Nat
  n : Nat
  partial? : Bool
  waits : Bool
  cls : Nat
  age : Nat
  assisted : Bool
  deriving DecidableEq, Repr

/-- The states of a rank-table entry (R40); VALID names the logical core that now stands for the rank, IN TRANSIT the one that
its thread leaves. -/
inductive RankEntry where
  | invalid
  | valid (c : Nat)
  | inTransit (c : Nat)
  deriving DecidableEq, Repr

/-- A fault-queue slot's record (R340). -/
structure FaultRecord where
  thread : Nat
  tcause : Word
  tval : Word
  tval2 : Word
  tepc : Word
  info : Word
  time : Word
  deriving DecidableEq, Repr

/-- The pages of a partition on a die (R309, R340, R292, R396), as GPAs, and its SERVICE word. -/
structure DiePages where
  info : Nat
  sched : Nat
  faults : Nat
  telemetry : Nat
  service : Word
  deriving DecidableEq, Repr

/-- A page held by a spore (R373, R374): its address, its leaf, whether it is a sub-page of a 512 MiB leaf, whether it is
copied, where, whether it is all zero, its digest, and whether the leaf's SP was 11. -/
structure HeldPage where
  va : Nat
  leaf : Nat
  entry : Word
  sub : Bool
  copied : Bool
  saved : Nat
  zero : Bool
  digest : List Byte
  refused : Bool
  deriving DecidableEq, Repr

/-- A channel-log record (R383). -/
structure LogRecord where
  receiver : Nat
  wake : Bool
  channel : Nat
  pkg : Nat
  seq : Nat
  entry : List Byte
  deriving DecidableEq, Repr

/-- The states of a spore (R368, R369). -/
inductive SporeState where
  | idle | armed | capture | sealing | committed | failed
  deriving DecidableEq, Repr

/-- A core's state as it stands in a step log or a save area: the core, its threads, and its scratchpad's cells and poisoned
granules (R348). -/
structure Snapshot where
  core : Nat
  state : Core
  threads : List (Nat × Thread)
  cells : List Host.Cell
  poison : List Nat
  deriving DecidableEq, Repr

/-- A partition's job and spore (R364 to R386). `peers` are the NIs of the job on other packages (package index, core), `cuts`
the epoch of the last cut that this package has made (R377), `record` the pool record of the launch (R381), and `boundary`
tells that the launch's step log is the one that the cut opened (R380); `byHost` tells that the monitor writes the manifest
(R328). -/
structure Spore where
  job : Nat
  pkg : Nat
  packages : Nat
  nodes : List Nat
  peers : List (Nat × Nat)
  cuts : Nat
  record : Nat
  boundary : Bool
  state : SporeState
  fail : Nat
  cur : Nat
  last : Nat
  issued : Nat
  restarted : Bool
  lastManifest : Nat
  epoch : Nat
  parent : Nat
  domain : Nat
  manifest : Word
  manifestLen : Word
  image : Word
  imageLen : Word
  statusAddr : Word
  launch : Option Nat
  cutGen : Nat
  cutTime : Nat
  nextIndex : Nat
  halted : Nat
  used : Nat
  pages : List HeldPage
  snaps : List Snapshot
  capturing : List Nat
  blocks : List (Nat × Nat × List Byte × BitVec 4)
  markers : List (Nat × Nat × Nat)
  log : List LogRecord
  weirRecords : List (List Byte)
  ready : Bool
  byHost : Bool
  deriving DecidableEq, Repr

/-- A partition (R26, R267, R306, R309). `occupancy` and `softLimits` are, for the L2 of die 0-7 and for the Basin (8), the
lines that the counter shows and its soft limit (R308); `handsTo` is the partition of the ring to which its core set is being
handed, core by core (R315). -/
structure Partition where
  priority : Nat
  cores : List Nat
  pcap : Nat
  share : Nat
  fixed : Bool
  rate : Nat
  k : Nat
  allowance : Nat
  pf : Nat
  po : Nat
  ceiling : Scope
  counters : Nat × Nat
  semaphores : Nat × Nat
  barriers : Nat × Nat
  s1root : Option Nat
  s2 : Sparse Word
  pages : Sparse DiePages
  slots : Sparse FaultRecord
  unrecorded : List FaultRecord
  trapVector : Word
  pstart : Option (Word × Word × Word)
  pool : Sparse Word
  ranks : Sparse RankEntry
  slice : Nat
  debt : Nat
  next : Option Nat
  handsTo : Option Nat
  sliceUntil : Nat
  sliceEnded : Option Nat
  refill : Nat
  budget : Sparse Nat
  refilled : Sparse Nat
  regions : Sparse Nat
  regionWait : Bool
  resize : Option (List Nat × BitVec 32)
  occupancy : Sparse Nat
  softLimits : Sparse Nat
  spore : Spore
  deriving DecidableEq, Repr

/-- A saved context (R315) with its spill ring (R319), the log blocks written in the superstep (R356) and the replay windows
of its threads (R162). -/
structure Saved where
  tag : Nat
  snapshot : Snapshot
  ring : List Packet
  blocks : List Nat
  windows : List Replayed
  deriving DecidableEq, Repr

/-- A launch that is queued or running (R298, R299, R43 to R47). `held` tells that its members are held in STEP (R314),
`ending` that it has ended with a status and waits for its cores' captures (R372); `assisted` that its election is
host-assisted (R328); `lost` the members that it has lost with their cores (R46, R47). -/
structure Launch where
  id : Nat
  part : Nat
  record : Nat
  words : List Word
  order : Nat
  members : List Nat
  lost : List Nat
  dies : List Nat
  installed : List Nat
  ballots : List (Nat × Bool)
  firstBallot : Option Nat
  closed : Bool
  leader : Option Nat
  postedAt : Nat
  counter : Nat
  block : Nat × Nat
  halted : Nat
  abandoned : List Nat
  restarted : List Nat
  waiting : List Nat
  asked : Bool
  assisted : Bool
  rollbacks : Nat
  log : List Snapshot
  rollbackEntry : Bool
  held : Bool
  ending : Option Nat
  deriving DecidableEq, Repr

/-- The states of a 2 MiB frame (R326). -/
inductive Frame where
  | scrubbing
  | clean
  | assigned (p : Nat)
  | shared
  deriving DecidableEq, Repr

/-- An event for a function's ring (R395): type, tag, host tag, status, payload. -/
structure Event where
  type : Nat
  tag : Nat
  htag : BitVec 32
  status : Word
  payload : List Word
  deriving DecidableEq, Repr

/-- A function of the Mbaek link (R389): its register window, the events held while its ring is full (R395), and the
command the device has read and not finished (R392). -/
structure Function where
  cqbase : Word
  cqlog : Nat
  cqtail : Nat
  cqhead : Nat
  eqbase : Word
  eqlog : Nat
  eqhead : Nat
  eqtail : Nat
  phase : Bool
  held : List Event
  reading : Option (Nat × Cmd)
  deriving DecidableEq, Repr

/-- One choice of the environment or of the hardware's own timing (log entry 2): a step of another agent, the core that issues
next, cycles that pass on a core without issue, nanoseconds that pass, a fetch that misses, an upset of a stored granule, a
launch record that the host builds (R42, R297), the outcome of the next rewrite test (R358), bytes of host or fabric memory
that change, an error that the storage corrects (R346, R347), and an uncorrectable error that the next word of a thread meets
in a register or a queue, or in the Weir (R180, R348), that the head vector entry of a core meets in a register (R223) or in
the cluster's vector unit or SFU (R358), that its head MXU command meets after some rows in an accumulator's granule (row, pair
of columns) or in the datapath (R265), or that a spore's capture of a core meets (R385). A `wordError` of register 0 is one in
a queue entry. Then one event of an MXU command, of a vector memory entry or of a copy command (R190), a PUTR that leaves its
NI (R164), the soft limit of an occupancy counter that the monitor sets and the count that the counter shows (R308), and what
other packages of a job send: a message or a wake (R378), the NIs that they have in it (R369), a spore's start, and the answer
to a descriptor (R367). A copy command can read or write the unit at its byte k ahead of its others (R166); the monitor writes
an entry of an optical die's route table (R405), and a lane fails (R406). -/
inductive Turn where
  | event (i : Instr)
  | issue (c : Nat)
  | cycles (c n : Nat)
  | time (ns : Nat)
  | fetchMiss (t : Nat)
  | upset (a : Nat)
  | record (p n : Nat) (words : List Word)
  | rewrite (fails : Bool)
  | memory (a : Nat) (data : List Byte)
  | corrected (src die tag unit : Nat) (addr : Word)
  | wordError (t : Nat) (r : Reg)
  | weirError (t : Nat)
  | laneError (c : Nat) (v : VReg)
  | unitError (c : Nat)
  | mxError (c rows : Nat) (cell : Option (Nat × Nat))
  | captureError (c : Nat)
  | mxEvent (c : Nat)
  | elementEvent (c : Nat)
  | copyUnit (q : Nat)
  | put (t id : Nat)
  | softLimit (p k n : Nat)
  | occupancy (p k n : Nat)
  | peerPacket (p pkg source rank : Nat) (cargo : Cargo)
  | peers (p : Nat) (nis : List (Nat × Nat))
  | copyRead (q k : Nat)
  | copyWrite (q k : Nat)
  | route (die node : Nat) (fibres : BitVec 16) (waves : List (BitVec 16))
  | laneFails (die fibre wave : Nat)
  | sporeStart (p epoch : Nat) (words : List Word)
  | sporeAnswer (p t : Nat) (v : Word)
  deriving DecidableEq, Repr

/-- A quarantine under way (R358): the half of a die, the failed core, and the thread whose containment goes on when the
cluster has moved, with its TCAUSE. `whole` tells that the whole cluster has failed, `named` that its spare is known, which in
host-assisted mode the monitor says (R328, R359); the cluster moves once its healthy cores have drained (R217, R321). -/
structure SpareWait where
  key : Nat
  core : Nat
  thread : Nat
  tcause : Word
  whole : Bool
  named : Bool
  deriving DecidableEq, Repr

/-- An entry of an optical die's route table (R405): the transmit fibres that lead to a node, and the wavelengths in use on
each. -/
structure Route where
  fibres : BitVec 16
  waves : List (BitVec 16)
  deriving DecidableEq, Repr

/-- The functions of R328 and R393 FMODE, by number. -/
abbrev Modes := BitVec 6

/-- The package. `hostScrubs` are the frames whose scrub began in host-assisted mode (R328), `cutTest` the µs of the last cut
test with the meter rates that it has cut (R404), `voltages` the output in mV of each domain's regulator, 700 where none is
listed (R402), `routes` the route tables of the optical dies (by 4096 * die + node), `failedLanes` the lanes that have failed
(by 256 * die + 16 * fibre + wavelength; R405, R406), `retiring` the dead cores that keep their tag until their capture is done
(R372), `basinDirty` the lines of which the Basin's copy may be newer than the stack's (R362). -/
structure State where
  threads : Sparse Thread
  cores : Sparse Core
  mem : List Host.Cell
  stale : Sparse Byte
  noticed : List Nat
  basinDirty : List Nat
  notices : List Notice
  heldLines : List HeldLine
  forwards : List Forward
  requests : Sparse Request
  windows : List Replayed
  packets : List Packet
  poison : List Nat
  blocks : List Nat
  counters : Sparse Word
  sems : Sparse Semaphore
  weirBars : Sparse WeirBarrier
  domains : Sparse Domain
  tags : Sparse Nat
  physical : Sparse Nat
  quarantined : List Nat
  usedSpares : List Nat
  retiring : List Nat
  recentErrors : List (Nat × Nat)
  testFails : List Bool
  pendingSpare : List SpareWait
  parts : Sparse Partition
  launches : Sparse Launch
  copies : List Copy
  sfu : List (Nat × Nat)
  frames : Sparse Frame
  hostScrubs : List Nat
  bootScrubbed : Bool
  telemetry : Sparse (Nat × Nat)
  fill : Nat
  drain : Nat
  sluiceClosed : Bool
  cutTest : Nat × Nat
  voltages : Sparse Nat
  sluice : List Waiting
  modes : Modes
  functions : Sparse Function
  hostReply : Option (List Byte)
  now : Nat
  ptpLocked : Bool
  timeSet : Bool
  anyStart : Bool
  errors : List (List Byte)
  errorCount : Nat
  dropLog : List (Nat × Nat × Nat × Nat)
  mctp : List (List Byte)
  i3c : Option Nat
  version : Nat
  firmware : List Byte
  staged : Option (List Byte)
  stagesUp : Nat
  droop : List Nat
  limited : List Nat
  routes : Sparse Route
  failedLanes : List Nat
  saved : List Saved
  pair : Option PairView
  cur : Nat
  turn : Nat
  nextId : Nat
  freeCount : Nat
  agenda : List Turn
  deriving DecidableEq, Repr

/-- A thread at reset: FREE (R397, R27), with the launch values of R43, R94, R104, R132, R158, R221, R254, R269, R270,
R349 and R360 in its CSRs and zero elsewhere. The spec gives these values at launch; holding them at reset is a DESIGN
CHOICE (log entry 4). -/
def Thread.reset : Thread where
  status := .free
  regs := Vector.replicate 64 0
  pc := 0
  from? := none
  second := none
  flow := .falls
  skip := []
  tstat := 0x0000000000FF0000
  tcause := 0
  tval := 0
  tval2 := 0
  tepc := 0
  tvec := 0
  tscratch := 0
  fcsr := 0
  lpstart := 0
  lpend := 0
  lpcount := 0
  lpouter := 0
  loopHeld := none
  loopWritten := 0
  clip := false
  clipTrap := false
  mxfmta := 0
  mxfmtb := 0
  mxout := 12
  mxbanda := 0
  mxbandb := 0
  resv := 0
  req := 0
  dc := 0
  mc := 0
  grantAge := 0
  met := false
  rclass := 0
  rmargin := 64
  vl := 32
  sigEn := true
  sigMis := false
  chkC := 0
  chkD := 0
  lfsr := 1
  watchA := Vector.replicate 4 0
  watchM := Vector.replicate 4 0
  watchOnce := none
  watchTrap := none
  fetched := none
  wake := false
  buffer := []
  dirty := []
  puts := []
  ticket := 0
  reqno := 0
  again := 0
  reply := none
  woke := none
  fifo := []
  reserved := 0
  staging := Vector.replicate 8 0
  tally := ⟨0, 0, 0⟩
  replay := []
  pending := []
  launch := none
  index := 0
  permits := []

/-- An unconfigured flume (R181). -/
def Flume.reset : Flume := ⟨0, 0, 0, 0, 0, 0, false, none⟩

/-- An empty channel with its 16 credits free (R39). -/
def Channel.reset : Channel := ⟨[], 0, [], [], [], []⟩

/-- A core at die reset: flumes unconfigured (R181), accumulators zero (R251), VSHARE 8 (R225), compute phase (R28);
vector registers and the slot base zero by DESIGN CHOICE (log entry 5). The core stands for rank 0 until a table says
otherwise; `State.coreAt` reads the default with the core's own number (R14). -/
def Core.reset : Core where
  vregs := Vector.replicate 32 0
  binds := Vector.replicate 4 none
  holds := []
  vqueue := []
  flumes := Vector.replicate 16 Flume.reset
  accs := []
  accsWritten := []
  mxqueue := []
  channels := []
  comm := false
  phaseStart := 0
  rows := []
  slotBase := 0
  slotCur := none
  slotNext := none
  slotHeld := []
  cycle := 0
  vshare := 8
  level := 0
  clock := 0
  residue := 0
  chargedLast := 3
  meterRate := 0
  issuedLast := 3
  yields := []
  rank := 0

/-- A disabled domain at generation 0 (R176; disabled by DESIGN CHOICE, log entry 5). -/
def Domain.reset : Domain := ⟨0, 0, 0, 0, 0, none, none, 0, 0, [], [], []⟩

/-- No job, no spore (R364, R365, R368). -/
def Spore.reset : Spore where
  job := 0
  pkg := 0
  packages := 1
  nodes := []
  peers := []
  cuts := 0
  record := 0
  boundary := false
  state := .idle
  fail := 0
  cur := 0
  last := 0
  issued := 0
  restarted := false
  lastManifest := 0
  epoch := 0
  parent := 0
  domain := 0
  manifest := 0
  manifestLen := 0
  image := 0
  imageLen := 0
  statusAddr := 0
  launch := none
  cutGen := 0
  cutTime := 0
  nextIndex := 0
  halted := 0
  used := 0
  pages := []
  snaps := []
  capturing := []
  blocks := []
  markers := []
  log := []
  weirRecords := []
  ready := false
  byHost := false

/-- A partition as PCREATE leaves it (R158, R309, R364, R398), before its core set and priority are set. -/
def Partition.reset : Partition where
  priority := 0
  cores := []
  pcap := 0
  share := 0
  fixed := false
  rate := 0
  k := 0
  allowance := 0
  pf := 0
  po := 0
  ceiling := .sys
  counters := (0, 0)
  semaphores := (0, 0)
  barriers := (0, 0)
  s1root := none
  s2 := []
  pages := []
  slots := []
  unrecorded := []
  trapVector := 0
  pstart := none
  pool := []
  ranks := []
  slice := 1000000
  debt := 0
  next := none
  handsTo := none
  sliceUntil := 0
  sliceEnded := none
  refill := 0
  budget := []
  refilled := []
  regions := []
  regionWait := false
  resize := none
  occupancy := []
  softLimits := []
  spore := Spore.reset

/-- A function whose rings are not configured (DESIGN CHOICE 0, log entry 5). -/
def Function.reset : Function := ⟨0, 0, 0, 0, 0, 0, 0, 0, true, [], none⟩

/-- The package right after cold reset: no partition exists, every core carries tag 63 and every thread is FREE (R397,
R27), memory lists nothing, every HBM frame is SCRUBBING (R326), the Weir is empty. Values the spec does not give are
those of log entries 4, 5 and 6. -/
def State.reset : State where
  threads := []
  cores := []
  mem := []
  stale := []
  noticed := []
  basinDirty := []
  notices := []
  heldLines := []
  forwards := []
  requests := []
  windows := []
  packets := []
  poison := []
  blocks := []
  counters := []
  sems := []
  weirBars := []
  domains := []
  tags := []
  physical := []
  quarantined := []
  usedSpares := []
  retiring := []
  recentErrors := []
  testFails := []
  pendingSpare := []
  parts := []
  launches := []
  copies := []
  sfu := []
  frames := []
  hostScrubs := []
  bootScrubbed := false
  telemetry := []
  fill := 0
  drain := 0
  sluiceClosed := false
  cutTest := (0, 0)
  voltages := []
  sluice := []
  modes := 0
  functions := []
  hostReply := none
  now := 0
  ptpLocked := false
  timeSet := false
  anyStart := false
  errors := []
  errorCount := 0
  dropLog := []
  mctp := []
  i3c := none
  version := 0
  firmware := []
  staged := none
  stagesUp := 6
  droop := []
  limited := []
  routes := []
  failedLanes := []
  saved := []
  pair := none
  cur := 0
  turn := 0
  nextId := 0
  freeCount := 0
  agenda := []

end Sys2Proof.Machine
end

