-- ==== Sys2Proof/Machine/Sparse.lean ====
section
/-!
DEFINITION. The operations over the state's tables.
-/
namespace Sys2Proof

/-- The entry of key k, if it is listed. -/
def Sparse.find? {α : Type} (m : Sparse α) (k : Nat) : Option α := (List.find? (fun e => e.1 == k) m).map Prod.snd

/-- The entry of key k, or the table's default. -/
def Sparse.get {α : Type} (m : Sparse α) (k : Nat) (d : α) : α := (Sparse.find? m k).getD d

/-- The table with entry k set to v, its keys in rising order. -/
def Sparse.set {α : Type} : Sparse α → Nat → α → Sparse α
  | [], k, v => [(k, v)]
  | e :: r, k, v =>
    match compare e.1 k with
    | .lt => e :: Sparse.set r k v
    | .eq => (k, v) :: r
    | .gt => (k, v) :: e :: r

/-- The table without entry k. -/
def Sparse.erase {α : Type} (m : Sparse α) (k : Nat) : Sparse α :=
  m.filter (fun e => e.1 != k)

/-- The table without the entries whose key lies in lo .. lo+n-1. -/
def Sparse.eraseRange {α : Type} (m : Sparse α) (lo n : Nat) : Sparse α :=
  m.filter (fun e => !(decide (lo ≤ e.1) && decide (e.1 < lo + n)))

/-- The listed keys. -/
def Sparse.keys {α : Type} (m : Sparse α) : List Nat := m.map (·.1)

/-- The table with every entry changed by f. -/
def Sparse.mapValues {α : Type} (m : Sparse α) (f : Nat → α → α) : Sparse α :=
  m.map (fun e => (e.1, f e.1 e.2))

end Sys2Proof
end

