-- ==== Sys2Proof/Machine/Memory.lean ====
section
/-!
DEFINITION. Memory as a list of cells in one canonical form. Keys: a 52-bit host physical address (R336) for HBM, host
memory and fabric devices; 2^52 + 2^20 * core + offset for the scratchpad of a core (R15, R74). A byte that is not listed
reads as zero: in HBM by the scrub (R326), in a scratchpad by R306; in host and fabric memory a DESIGN CHOICE (log
entry 6).
-/
namespace Sys2Proof.Machine

/-- What a byte that is not listed reads as. -/
def Memory.unlisted : Byte := 0

/-- The byte at key a. -/
def Memory.read (m : List Host.Cell) (a : Nat) : Byte := Sparse.get m a Memory.unlisted

/-- The cells with byte a set to b, in canonical form: rising keys, no cell that reads as unlisted. -/
def Memory.write (m : List Host.Cell) (a : Nat) (b : Byte) : List Host.Cell :=
  if b = Memory.unlisted then Sparse.erase m a else Sparse.set m a b

/-- Every key of the cells lies above lo. -/
def Memory.above (lo : Nat) (m : List Host.Cell) : Bool :=
  match m with
  | [] => true
  | (k, b) :: r => decide (lo < k) && decide (b ≠ Memory.unlisted) && Memory.above k r

/-- The canonical form: keys strictly rising, no cell equal to what an unlisted key reads as. -/
def Memory.wf (m : List Host.Cell) : Bool :=
  match m with
  | [] => true
  | (k, b) :: r => decide (b ≠ Memory.unlisted) && Memory.above k r

/-- n bytes from key a, lowest address first. -/
def Memory.readBytes (m : List Host.Cell) (a : Nat) : Nat → List Byte
  | 0 => []
  | n + 1 => Memory.read m a :: Memory.readBytes m (a + 1) n

/-- Writes bytes from key a upward. -/
def Memory.writeBytes (m : List Host.Cell) (a : Nat) : List Byte → List Host.Cell
  | [] => m
  | b :: bs => Memory.writeBytes (Memory.write m a b) (a + 1) bs

/-- Clears the keys a .. a+n-1. -/
def Memory.clear (m : List Host.Cell) (a n : Nat) : List Host.Cell :=
  m.filter (fun c => !(decide (a ≤ c.1) && decide (c.1 < a + n)))

/-- The cells with key a .. a+n-1. -/
def Memory.slice (m : List Host.Cell) (a n : Nat) : List Host.Cell :=
  m.filter (fun c => decide (a ≤ c.1) && decide (c.1 < a + n))

/-- Puts cells back, one by one. -/
def Memory.restore (m : List Host.Cell) : List Host.Cell → List Host.Cell
  | [] => m
  | c :: cs => Memory.restore (Memory.write m c.1 c.2) cs

/-- R2: a little-endian value of a list of bytes. -/
def leValue : List Byte → Nat
  | [] => 0
  | b :: bs => b.toNat + 256 * leValue bs

/-- R2: the n little-endian bytes of a value. -/
def leBytes (v : Nat) : Nat → List Byte
  | 0 => []
  | n + 1 => BitVec.ofNat 8 v :: leBytes (v / 256) n

/-- The key of offset off of core c's scratchpad. -/
def spadKey (c off : Nat) : Nat := 2^52 + c * 2^20 + off

/-- The 64-byte line of a key (R190). -/
def lineOf (a : Nat) : Nat := a / 64

/-- Two byte ranges overlap. -/
def overlaps (a m b n : Nat) : Bool := decide (a < b + n) && decide (b < a + m)

end Sys2Proof.Machine
end

