-- ==== Sys2Proof/Machine/Ops.lean ====
section
/-!
DEFINITION. The named operations over registers, threads, cores and memory, with taking an exception (R135) and the return
from one (R138).
-/
namespace Sys2Proof.Machine

/-! Threads, cores, partitions. -/

/-- Thread t (R15). -/
def State.thread (s : State) (t : Nat) : Thread := Sparse.get s.threads t Thread.reset

/-- The state with thread t set. -/
def State.setThread (s : State) (t : Nat) (v : Thread) : State := { s with threads := Sparse.set s.threads t v }

/-- The state with thread t changed by f. -/
def State.modThread (s : State) (t : Nat) (f : Thread → Thread) : State := s.setThread t (f (s.thread t))

/-- The thread whose word executes. -/
def State.me (s : State) : Thread := s.thread s.cur

/-- The state with the executing thread changed by f. -/
def State.modMe (s : State) (f : Thread → Thread) : State := s.modThread s.cur f

/-- The core of a thread (R15). -/
def coreOf (t : Nat) : Nat := t / 4

/-- The die of a core (R14, R18). -/
def dieOf (c : Nat) : Nat := c / 128

/-- Core c; a core that is not listed is as at reset and stands for its own rank (R14). -/
def State.coreAt (s : State) (c : Nat) : Core := Sparse.get s.cores c { Core.reset with rank := c }

/-- The state with core c set. -/
def State.setCore (s : State) (c : Nat) (v : Core) : State := { s with cores := Sparse.set s.cores c v }

/-- The state with core c changed by f. -/
def State.modCore (s : State) (c : Nat) (f : Core → Core) : State := s.setCore c (f (s.coreAt c))

/-- The core of the executing thread. -/
def State.here (s : State) : Nat := coreOf s.cur

/-- R13: the physical core 8*column + row that stands for logical core c of its die; at reset its own number. -/
def State.physicalOf (s : State) (c : Nat) : Nat := Sparse.get s.physical c (c % 128)

/-- The key of a core's tag: its die and its physical core (R27). -/
def State.tagKey (s : State) (c : Nat) : Nat := dieOf c * 136 + s.physicalOf c

/-- R27: the partition tag of the physical core that stands for c, 63 at reset. -/
def State.tagOf (s : State) (c : Nat) : Nat := Sparse.get s.tags (s.tagKey c) 63

/-- The partition of tag p; a partition that does not exist reads as one without cores. -/
def State.part (s : State) (p : Nat) : Partition := Sparse.get s.parts p Partition.reset

/-- Partition p exists (R26). -/
def State.partExists (s : State) (p : Nat) : Bool := (Sparse.find? s.parts p).isSome

/-- The state with partition p set. -/
def State.setPart (s : State) (p : Nat) (v : Partition) : State := { s with parts := Sparse.set s.parts p v }

/-- The state with partition p changed by f, when it exists. -/
def State.modPart (s : State) (p : Nat) (f : Partition → Partition) : State :=
  if s.partExists p then s.setPart p (f (s.part p)) else s

/-- The partition of a thread: the tag of its core. -/
def State.partOf (s : State) (t : Nat) : Nat := s.tagOf (coreOf t)

/-- Thread t has stores in its buffer or PUTRs in the NI. -/
def State.writesBusy (s : State) (t : Nat) : Bool := !(s.thread t).buffer.isEmpty || !(s.thread t).puts.isEmpty

/-- A number no other access, packet or command carries: program order over a thread's accesses. -/
def State.bump (s : State) : State := { s with nextId := s.nextId + 1 }

/-! Rank tables (R40). -/

/-- R40: the core that an entry's coordinates name, or that its thread leaves. -/
def RankEntry.core? : RankEntry → Option Nat
  | .valid c | .inTransit c => some c
  | .invalid => none

/-- R40: an entry holds its messages back. -/
def RankEntry.holds : RankEntry → Bool
  | .inTransit _ => true
  | .valid _ | .invalid => false

/-- R40: the entry of a rank in the table of every NI of partition p. -/
def State.rankEntry (s : State) (p r : Nat) : RankEntry := Sparse.get (s.part p).ranks r .invalid

/-- R40: the NI of core c holds 16 messages for a rank's entry. -/
def State.holdFull (s : State) (p r c : Nat) : Bool :=
  decide (16 ≤ (s.packets.filter (fun k => k.held && k.tag == p && k.rank == r && coreOf k.source == c)).length)

/-! What a partition holds on a core that another partition's tag now names (R315, R319). -/

/-- The saved context of a core for a tag (R315, R319). -/
def State.savedFor (s : State) (p c : Nat) : Option Saved := s.saved.find? (fun v => v.tag == p && v.snapshot.core == c)

/-- Partition p's context of core c is saved and not resumed yet (R316). -/
def State.away (s : State) (p c : Nat) : Bool := (s.savedFor p c).isSome

/-- The state with partition p's saved context of core c changed. -/
def State.modSaved (s : State) (p c : Nat) (f : Saved → Saved) : State :=
  { s with saved := s.saved.map (fun v => if v.tag = p ∧ v.snapshot.core = c then f v else v) }

/-- Core c of partition p, where its state lives; none when p holds nothing there. -/
def State.coreFor (s : State) (p c : Nat) : Option Core :=
  match s.savedFor p c with
  | some v => some v.snapshot.state
  | none => if s.tagOf c = p then some (s.coreAt c) else none

/-- A snapshot with one of its threads changed. -/
def Snapshot.modThread (g : Snapshot) (t : Nat) (f : Thread → Thread) : Snapshot :=
  { g with threads := g.threads.map (fun e => if e.1 = t then (t, f e.2) else e) }

/-- Thread t of partition p, where it lives (R315). -/
def State.threadFor (s : State) (p t : Nat) : Thread :=
  if s.away p (coreOf t) then
    match s.savedFor p (coreOf t) with
    | some v =>
      (match List.find? (fun (e : Nat × Thread) => e.1 == t) v.snapshot.threads with
       | some e => e.2
       | none => Thread.reset)
    | none => Thread.reset
  else s.thread t

/-- Thread t of partition p changed, where it lives (R315). -/
def State.modThreadFor (s : State) (p t : Nat) (f : Thread → Thread) : State :=
  if s.away p (coreOf t) then s.modSaved p (coreOf t) (fun v => { v with snapshot := v.snapshot.modThread t f })
  else s.modThread t f

/-! Scalar registers (R68). -/

/-- x[r]: 0 for x0; the second word of a pair reads what stood before the pair (R7, R51, R68). -/
def State.x (s : State) (r : Reg) : Word :=
  if r = 0 then 0
  else match s.pair with
    | some p => p.regs.get r.toFin
    | none => s.me.regs.get r.toFin

/-- Thread t's record with x[r] := v; a write to x0 is discarded (R7, R68). -/
def Thread.setX (t : Thread) (r : Reg) (v : Word) : Thread :=
  if r = 0 then t else { t with regs := t.regs.set r.toNat v r.isLt }

/-- x[r] := v for the executing thread. -/
def State.setX (s : State) (r : Reg) (v : Word) : State := s.modMe (fun t => t.setX r v)

/-! Status fields (R132). -/

/-- TSTAT.PRIV: true at supervisor privilege (R132). -/
def Thread.supervisor (t : Thread) : Bool := t.tstat.getLsbD 8

/-- TSTAT.INH (R132). -/
def Thread.inh (t : Thread) : Bool := t.tstat.getLsbD 7

/-- TSTAT.LH (R129, R132). -/
def Thread.lh (t : Thread) : Bool := t.tstat.getLsbD 6

/-- A word of TSTAT with field values: SUB, LANE, PRV, PRIV, INH, LH (R132). -/
def tstatWord (sub lane : BitVec 8) (prv priv inh lh : Bool) : Word :=
  BitVec.ofNat 64 (sub.toNat * 2^24 + lane.toNat * 2^16 + prv.toNat * 2^9 + priv.toNat * 2^8 + inh.toNat * 2^7
    + lh.toNat * 2^6)

/-- SUB of a TSTAT (R132). -/
def subOf (w : Word) : BitVec 8 := w.extractLsb' 24 8

/-- LANE of a TSTAT (R132). -/
def laneOf (w : Word) : BitVec 8 := w.extractLsb' 16 8

/-- The address of the bundle that holds a word (R50). -/
def bundleOf (a : Word) : Word := a &&& 0xFFFFFFFFFFFFFFF8

/-- Bits 1:0 of an address zeroed (R71 TEPC). -/
def wordAligned (a : Word) : Word := a &&& 0xFFFFFFFFFFFFFFFC

/-- The TCAUSE value of a cause (R133, R147). -/
def Cause.code : Cause → Word
  | .illegal => 0x01 | .misalign => 0x02 | .page1 => 0x03 | .page2 => 0x04 | .access => 0x05 | .farord => 0x06
  | .typ => 0x07 | .acklost => 0x08 | .retryexp => 0x09 | .scope => 0x0A | .tag => 0x0B | .slot => 0x0C
  | .barmemb => 0x0D | .bartwice => 0x0E | .barcount => 0x0F | .flume => 0x10 | .mxq => 0x11 | .spill => 0x12
  | .cut => 0x13 | .nores => 0x14 | .overrun => 0x15 | .sig => 0x16 | .ue => 0x17 | .watchdog => 0x18
  | .spore => 0x19 | .brk => 0x4000
  | .watch n => 0x4001 + BitVec.ofNat 64 n.val
  | .software c => 0x8000 + c.setWidth 64

/-- What a trap records (R135): cause, TVAL, TVAL2, the sub-code of R148 and the lane. -/
structure Trap where
  cause : Cause
  tval : Word
  tval2 : Word
  sub : BitVec 8
  lane : BitVec 8
  deriving DecidableEq, Repr

/-- A trap without sub-code and lane (R147, R148). -/
def Trap.plain (c : Cause) (tval tval2 : Word) : Trap := ⟨c, tval, tval2, 0, 0xFF⟩

/-- R134, R135: the recording part of a trap entry, which a thread that becomes SUSPENDED or PARKED makes as well. -/
def Thread.record (t : Thread) (tr : Trap) (epc : Word) : Thread :=
  { t with
    tcause := tr.cause.code
    tval := tr.tval
    tval2 := tr.tval2
    tepc := wordAligned epc
    tstat := tstatWord tr.sub tr.lane (t.tstat.getLsbD 9) t.supervisor t.inh t.lh
    second := none
    fetched := none
    permits := []
    woke := none
    loopHeld := none
    loopWritten := 0
    flow := .trapped }

/-- R135: taking an exception. The thread records the cause, TVAL, TVAL2, TEPC, SUB and LANE, saves PRIV in PRV, becomes
supervisor with INH and LH set, and goes on at TVEC. No scalar register and no loop CSR changes. -/
def Thread.enterHandler (t : Thread) (tr : Trap) (epc : Word) : Thread :=
  { t.record tr epc with
    tstat := tstatWord tr.sub tr.lane t.supervisor true true true
    pc := bundleOf t.tvec
    from? := none
    status := .ready }

/-- R138: the return from an exception: PRIV := PRV, INH := 0, LH := 0 and the thread goes on at TEPC. A TEPC with bits
1:0 set is refused before (MISALIGN at the ERET). An ERET to the TEPC of a watch match runs that word once without watch
matching (R361). -/
def Thread.leaveHandler (t : Thread) : Thread :=
  { t with
    tstat := tstatWord (subOf t.tstat) (laneOf t.tstat) (t.tstat.getLsbD 9) (t.tstat.getLsbD 9) false false
    flow := .returned t.tepc
    watchOnce := if t.watchTrap = some t.tepc then t.watchTrap else none
    watchTrap := none }

/-- R137: a pending asynchronous cause is added; a cause that is already pending with the same values stays one: the spec
does not say whether a second equal one is taken again (DESIGN CHOICE, log entry 61). -/
def Thread.pendAs (t : Thread) (a : Async) : Thread :=
  { t with pending := if t.pending.contains a then t.pending else t.pending ++ [a] }

/-- R137: a pending cause that no data failed for. -/
def Thread.pend (t : Thread) (c : Cause) (tval tval2 : Word) : Thread := t.pendAs ⟨c, tval, tval2, .none⟩

/-- A cause becomes pending in thread t. -/
def State.pend (s : State) (t : Nat) (c : Cause) (tval tval2 : Word) : State := s.modThread t (fun x => x.pend c tval tval2)

/-- R348: UE becomes pending in thread t for what failed. -/
def State.pendUe (s : State) (t : Nat) (tval : Word) (d : Datum) : State := s.modThread t (fun x => x.pendAs ⟨.ue, tval, 0, d⟩)

/-! Waiting (R19). -/

/-- R143: thread t has stopped being READY: no TYIELD passes over its thread for t any more. -/
def State.stopsReady (s : State) (t : Nat) : State :=
  if (s.coreAt (coreOf t)).yields.isEmpty then s
  else s.modCore (coreOf t) (fun k => { k with yields := k.yields.map (fun y => (y.1, y.2.filter (· != t))) })

/-- The executing thread waits; its word executes again when the wait is over. -/
def State.wait (s : State) (w : Wait) : State :=
  s.modMe (fun t => { t with status := .blocked w s.now, flow := .waits })

/-- The executing thread's word falls through. -/
def State.flowTo (s : State) (f : Flow) : State := s.modMe (fun t => { t with flow := f })

/-! Memory at its coherence points (R190, R194). -/

/-- The bytes a .. a+n-1, as a value (R2). -/
def State.readAt (s : State) (a n : Nat) : Nat := leValue (Memory.readBytes s.mem a n)

/-- The granule or sector that a byte's error protection covers (R346): 8 bytes in a scratchpad, 32 elsewhere. -/
def granuleSize (a : Nat) : Nat := if 2^52 ≤ a then 8 else 32

/-- R348: some byte of a .. a+n-1 lies in a poisoned granule. -/
def State.poisoned (s : State) (a n : Nat) : Bool :=
  s.poison.any (fun g => overlaps a n g (granuleSize g))

/-- A key of a scratchpad. -/
def isSpad (a : Nat) : Bool := decide (2^52 ≤ a)

/-- R353: the 256-byte log blocks of a scratchpad that a write of n bytes at a touches, added to a list. -/
def addBlocks (bl : List Nat) (a n : Nat) : List Nat :=
  if isSpad a && n != 0 then
    ((List.range ((a + n - 1) / 256 - a / 256 + 1)).map (· + a / 256)).foldl
      (fun l b => if l.contains b then l else b :: l) bl
  else bl

/-- Bytes are written at their coherence point; a granule that the write covers whole is no longer poisoned (R348), and a
scratchpad's log blocks count as written (R353). -/
def State.writeBytesAt (s : State) (a : Nat) (bs : List Byte) : State :=
  { s with
    mem := Memory.writeBytes s.mem a bs
    blocks := addBlocks s.blocks a bs.length
    poison := s.poison.filter (fun g => !(decide (a ≤ g) && decide (g + granuleSize g ≤ a + bs.length))) }

/-- The n little-endian bytes of a value are written at their coherence point. -/
def State.writeAt (s : State) (a n v : Nat) : State := s.writeBytesAt a (leBytes v n)

/-- A forward entry lies in a line (R202). -/
def Forward.inLine (f : Forward) (line : Nat) : Bool := decide (lineOf f.a ≤ line) && decide (line ≤ lineOf (f.a + f.size - 1))

/-- R201 to R203: whoever reads a line through the Basin from now on sees every write that its home die has committed: a
committed entry of a forward table stands back behind it, and one whose notice was lost ends. -/
def Forward.cover (f : Forward) (line : Nat) : Option Forward :=
  if f.inLine line then
    match f.stage with
    | .committed => some { f with stage := .covered }
    | .lost => none
    | .pending | .covered => some f
  else some f

/-- The forward tables once a line's committed writes are seen through the Basin. -/
def State.coverLine (s : State) (line : Nat) : State := { s with forwards := s.forwards.filterMap (fun f => f.cover line) }

/-- R203: the Basin recalls a line; its own copy is then the newest value and it holds no notice for it. An HBM line is then one
that the Basin may hold dirty (R346). -/
def State.recall (s : State) (line : Nat) : State :=
  { s.coverLine line with
    basinDirty := if line < 2^33 ∧ !s.basinDirty.contains line then line :: s.basinDirty else s.basinDirty
    stale := Sparse.eraseRange s.stale (line * 64) 64
    noticed := s.noticed.filter (· != line) }

/-- Recalls the lines of a list. -/
def State.recallAll (s : State) : List Nat → State
  | [] => s
  | l :: ls => (s.recall l).recallAll ls

/-- The lines of a .. a+n-1. -/
def linesOf (a n : Nat) : List Nat := (List.range (lineOf (a + n - 1) - lineOf a + 1)).map (· + lineOf a)

/-- R201, R212: the Basin holds reads of some line of a .. a+n-1. -/
def State.lineHeld (s : State) (a n : Nat) : Option Nat :=
  (linesOf a n).find? (fun l => s.heldLines.any (fun h => h.line == l))

/-- R194: a write that commits at the Basin: the line is recalled first, so that the Basin's copy holds it. -/
def State.writeGlobal (s : State) (a : Nat) (bs : List Byte) : State :=
  (s.recallAll (linesOf a bs.length)).writeBytesAt a bs

/-- The Basin's own copy keeps what it held of the bytes a .. a+n-1 (R203, R204). -/
def State.keepStale (s : State) (a : Nat) : Nat → State
  | 0 => s
  | n + 1 =>
    let s := match Sparse.find? s.stale a with
      | some _ => s
      | none => { s with stale := Sparse.set s.stale a (Memory.read s.mem a) }
    s.keepStale (a + 1) n

/-- R201 to R203: an early write commits in the home die's L2: the newest value stands there, the Basin keeps its older
copy, a dirty notice for the line goes out, and an entry of a forward table for it is committed. -/
def State.commitEarly (s : State) (t origin : Nat) (va : Word) (a : Nat) (bs : List Byte) (engine : Bool) : State :=
  let s := (s.keepStale a bs.length).writeBytesAt a bs
  { s with
    forwards := s.forwards.map (fun f => if f.id = origin then { f with stage := .committed } else f)
    notices := s.notices ++ [⟨s.nextId, lineOf a, t, va, origin, false, s.now, engine⟩]
    nextId := s.nextId + 1 }

/-- A line that a thread has written early (R154, R207). -/
def Thread.wrote (t : Thread) (a : Nat) : Thread :=
  { t with dirty := if t.dirty.contains (lineOf a) then t.dirty else lineOf a :: t.dirty }

/-- R201, R203: an early write of thread t commits; its line is one that a release at SYS writes back. -/
def State.writeEarly (s : State) (t origin : Nat) (va : Word) (a : Nat) (bs : List Byte) : State :=
  (s.commitEarly t origin va a bs false).modThread t (fun x => x.wrote a)

/-- A byte of the Basin's own copy (R204). -/
def State.basinByte (s : State) (a : Nat) : Byte := Sparse.get s.stale a (Memory.read s.mem a)

/-- n bytes of the Basin's own copy (R204): what a host read, and a third die's read before the notice, return. -/
def State.basinBytes (s : State) (a : Nat) : Nat → List Byte
  | 0 => []
  | n + 1 => s.basinByte a :: s.basinBytes (a + 1) n

/-- R203: for a read by another die or a fabric device, the lines whose dirty notice the Basin holds are recalled first. -/
def State.recallNoticed (s : State) (a n : Nat) : State :=
  s.recallAll ((linesOf a n).filter (fun l => s.noticed.contains l))

/-- The class of a host physical address (R336); keys from 2^52 up are scratchpads. -/
def classOf (a : Nat) : Nat := a / 2^48

/-- The compute die whose window holds an HBM address (R11, R336). -/
def stackOf (a : Nat) : Nat := a / 2^36 % 8

/-- A key of HBM (R336). -/
def isHbm (a : Nat) : Bool := decide (a < 2^39)

/-- The core whose scratchpad holds a key. -/
def spadCore (a : Nat) : Nat := (a - 2^52) / 2^20

/-- The key of a host address: class 8 (R336, R389). -/
def hostKey (a : Nat) : Nat := 8 * 2^48 + a % 2^48

/-- The 64-bit value of a natural number. -/
def word (n : Nat) : Word := BitVec.ofNat 64 n

/-- Bit field n bits wide from bit lo of a value. -/
def field (v lo n : Nat) : Nat := v / 2^lo % 2^n

/-- A set bit as 1. -/
def bit (b : Bool) : Nat := b.toNat

/-! Reading memory from a die. -/

/-- The bytes of an early write of the forward table (R202). -/
def Forward.byteAt (f : Forward) (a : Nat) : Option Byte :=
  if f.a ≤ a ∧ a < f.a + f.size then some (BitVec.ofNat 8 (f.data.toNat / 256^(a - f.a))) else none

/-- R201, R202: the newest byte that a die's forward table holds; an entry that the Basin's copy covers is seen there. -/
def State.forwardByte (s : State) (die a : Nat) : Option Byte :=
  (s.forwards.reverse.filter (fun f => f.die == die && f.stage != .covered)).findSome? (fun f => f.byteAt a)

/-- R202 to R204: n bytes as die d reads them: its own window at the coherence point, another window from its forward table
or from the Basin's copy, which has recalled the lines it holds notices for. -/
def State.dieBytes (s : State) (die a : Nat) : Nat → List Byte
  | 0 => []
  | n + 1 =>
    (if isHbm a && stackOf a != die then (s.forwardByte die a).getD (s.basinByte a) else Memory.read s.mem a)
      :: s.dieBytes die (a + 1) n

/-- R203: the state in which die d's read of n bytes is served. -/
def State.readySource (s : State) (die a n : Nat) : State :=
  if isHbm a && stackOf a != die then s.recallNoticed a n else s

/-- n bytes at a as a die reads them, with the lines recalled for it; without a die, at their coherence points. -/
def State.source (s : State) (die : Option Nat) (a n : Nat) : State × List Byte :=
  match die with
  | none => (s, Memory.readBytes s.mem a n)
  | some d =>
    let s := s.readySource d a n
    (s, s.dieBytes d a n)

end Sys2Proof.Machine
end

