-- ==== Sys2Proof/Machine/Float.lean ====
section
/-!
DEFINITION. Number formats (R87 to R109): exact values, the one rounding of R93 and R97 with the flags of R95, conversions
(R98), stochastic rounding (R105), block records (R99 to R102) and the special functions (R249).
-/
namespace Sys2Proof.Machine

/-- The float flags in FCSR's order (R94): IV 0, ZD 1, OV 2, UN 3, IX 4. -/
abbrev Flags := BitVec 5

/-- R94 bit 0. -/
def Flags.iv : Flags := 1
/-- R94 bit 1. -/
def Flags.zd : Flags := 2
/-- R94 bit 2. -/
def Flags.ov : Flags := 4
/-- R94 bit 3. -/
def Flags.un : Flags := 8
/-- R94 bit 4. -/
def Flags.ix : Flags := 16

/-- A flag raised on a condition. -/
def Flags.when (c : Bool) (f : Flags) : Flags := if c then f else 0

/-- The rounding modes of R97. -/
inductive RMode where
  | rne | rup | rdn | rtz | rna
  deriving DecidableEq, Repr

/-- A floating-point format (R88): exponent and mantissa widths, bias, whether it has infinity, the encoding of its
largest finite magnitude, and its canonical NaN (R90); 0 for a format without NaN. -/
structure Fmt where
  ew : Nat
  mw : Nat
  bias : Int
  inf : Bool
  max : Nat
  nan : Nat
  deriving DecidableEq, Repr

/-- FP32 (R88). -/
def Fmt.f32 : Fmt := ⟨8, 23, 127, true, 0x7F7FFFFF, 0x7FC00000⟩
/-- FP16 (R88). -/
def Fmt.f16 : Fmt := ⟨5, 10, 15, true, 0x7BFF, 0x7E00⟩
/-- BF16 (R88). -/
def Fmt.bf16 : Fmt := ⟨8, 7, 127, true, 0x7F7F, 0x7FC0⟩
/-- FP8 E5M2 (R88). -/
def Fmt.e5m2 : Fmt := ⟨5, 2, 15, true, 0x7B, 0x7E⟩
/-- FP8 E4M3 (R88). -/
def Fmt.e4m3 : Fmt := ⟨4, 3, 7, false, 0x7E, 0x7F⟩
/-- FP6 E3M2 (R88). -/
def Fmt.e3m2 : Fmt := ⟨3, 2, 3, false, 0x1F, 0⟩
/-- FP6 E2M3 (R88). -/
def Fmt.e2m3 : Fmt := ⟨2, 3, 1, false, 0x1F, 0⟩
/-- FP4 E2M1 (R88). -/
def Fmt.e2m1 : Fmt := ⟨2, 1, 1, false, 0x7, 0⟩

/-- The bits of an encoding. -/
def Fmt.width (f : Fmt) : Nat := 1 + f.ew + f.mw

/-- An exact value: NaN, infinity, or (-1)^neg * m * 2^e (R89). -/
inductive FVal where
  | nan (signalling : Bool)
  | inf (neg : Bool)
  | fin (neg : Bool) (m : Nat) (e : Int)
  deriving DecidableEq, Repr

/-- R88 to R90: the value of an encoding. -/
def Fmt.decode (f : Fmt) (bits : Nat) : FVal :=
  let neg := bits / 2^(f.ew + f.mw) % 2 == 1
  let e := bits / 2^f.mw % 2^f.ew
  let m := bits % 2^f.mw
  if f.inf && e == 2^f.ew - 1 then
    (if m = 0 then .inf neg else .nan (m / 2^(f.mw - 1) == 0))
  else if !f.inf && f.nan != 0 && bits % 2^(f.ew + f.mw) == f.nan then .nan false
  else if e = 0 then .fin neg m (1 - f.bias - f.mw)
  else .fin neg (2^f.mw + m) ((e : Int) - f.bias - f.mw)

/-- The sign bit of an encoding. -/
def Fmt.signBit (f : Fmt) (neg : Bool) : Nat := if neg then 2^(f.ew + f.mw) else 0

/-- The encoding of infinity. -/
def Fmt.infinity (f : Fmt) : Nat := (2^f.ew - 1) * 2^f.mw

/-- The integer part of (m + d) * 2^e / 2^q for some 0 ≤ d < 1, d > 0 exactly when sticky, rounded by the mode; and
whether it is inexact. With sticky, q is above e. -/
def roundAt (mode : RMode) (neg : Bool) (m : Nat) (e : Int) (sticky : Bool) (q : Int) : Nat × Bool :=
  if q ≤ e then (m * 2^(e - q).toNat, sticky)
  else
    let d := (q - e).toNat
    let n := m / 2^d
    let r := m % 2^d
    let half := 2^(d - 1)
    let inexact := r != 0 || sticky
    let above := decide (half < r) || (r == half && sticky)
    let tie := r == half && !sticky
    let up := match mode with
      | .rne => above || (tie && n % 2 == 1)
      | .rup => inexact && !neg
      | .rdn => inexact && neg
      | .rtz => false
      | .rna => above || tie
    (if up then n + 1 else n, inexact)

/-- n * 2^q lies above m * 2^e. -/
def dyadicLt (m : Nat) (e : Int) (n : Nat) (q : Int) : Bool :=
  if e ≤ q then decide (m < n * 2^(q - e).toNat) else decide (m * 2^(e - q).toNat < n)

/-- The magnitude bits of n * 2^q, at most the largest finite magnitude, n below 2^(mw+1). -/
def Fmt.pack (f : Fmt) (n : Nat) (q : Int) : Nat :=
  if n < 2^f.mw then n
  else ((q + f.mw + f.bias).toNat) * 2^f.mw + (n - 2^f.mw)

/-- The exponent below which a magnitude is subnormal: 1 - bias (R88). -/
def Fmt.emin (f : Fmt) : Int := 1 - f.bias

/-- The largest finite magnitude as (m, e). -/
def Fmt.maxValue (f : Fmt) : Nat × Int :=
  match f.decode f.max with
  | .fin _ m e => (m, e)
  | _ => (0, 0)

/-- R93, R95, R97: (m + d) * 2^e, not zero, rounded once, with its flags. `sat` delivers ±max finite for a magnitude above
it, in formats without infinity and in elements (R98). -/
def Fmt.roundFinite (f : Fmt) (mode : RMode) (sat neg : Bool) (m : Nat) (e : Int) (sticky : Bool) : Nat × Flags :=
  let top := e + m.log2
  let qu := top - f.mw
  let q := Max.max qu (f.emin - f.mw)
  let u := roundAt mode neg m e sticky qu
  let r := roundAt mode neg m e sticky q
  let (n, q) := if r.1 = 2^(f.mw + 1) then (2^f.mw, q + 1) else (r.1, q)
  let (mm, me) := f.maxValue
  if dyadicLt mm me n q then
    let toInf := match mode with
      | .rne | .rna => true
      | .rup => !neg
      | .rdn => neg
      | .rtz => false
    let big := if f.inf && !sat && toInf then f.infinity else f.max
    (f.signBit neg + big, Flags.ov ||| Flags.ix)
  else
    let tiny := dyadicLt u.1 qu 1 f.emin
    (f.signBit neg + f.pack n q, Flags.when (tiny && r.2) Flags.un ||| Flags.when r.2 Flags.ix)

/-- An exact value delivered in a format (R93), with the flags of its rounding; a NaN is the canonical one (R90). -/
def Fmt.deliver (f : Fmt) (mode : RMode) (v : FVal) : Nat × Flags :=
  match v with
  | .nan _ => (f.nan, 0)
  | .inf neg => (f.signBit neg + f.infinity, 0)
  | .fin neg m e => if m = 0 then (f.signBit neg, 0) else f.roundFinite mode false neg m e false

/-- IV for a signalling operand (R95). -/
def FVal.snan : FVal → Flags
  | .nan true => Flags.iv
  | _ => 0

/-- A NaN. -/
def FVal.isNan : FVal → Bool
  | .nan _ => true
  | _ => false

/-- The value negated; a NaN stays. -/
def FVal.neg : FVal → FVal
  | .nan s => .nan s
  | .inf n => .inf (!n)
  | .fin n m e => .fin (!n) m e

/-- Signed mantissas at a common exponent. -/
def alignInt (neg : Bool) (m : Nat) (e q : Int) : Int :=
  let v : Int := (m * 2^(e - q).toNat : Nat)
  if neg then -v else v

/-- The exact sum of two finite values; an exact zero of opposite signs is -0 in mode down and +0 otherwise (R97). -/
def addFin (down : Bool) (n1 : Bool) (m1 : Nat) (e1 : Int) (n2 : Bool) (m2 : Nat) (e2 : Int) : FVal :=
  let q := min e1 e2
  let v := alignInt n1 m1 e1 q + alignInt n2 m2 e2 q
  if v = 0 then
    (if m1 = 0 && m2 = 0 && n1 == n2 then .fin n1 0 0
     else .fin down 0 0)
  else .fin (decide (v < 0)) v.natAbs q

/-- The exact sum of two values with IEEE's special cases (R93, R95). -/
def FVal.add (down : Bool) (a b : FVal) : FVal × Flags :=
  let f := a.snan ||| b.snan
  match a, b with
  | .nan _, _ => (.nan false, f)
  | _, .nan _ => (.nan false, f)
  | .inf x, .inf y => if x == y then (.inf x, f) else (.nan false, Flags.iv)
  | .inf x, .fin _ _ _ => (.inf x, f)
  | .fin _ _ _, .inf y => (.inf y, f)
  | .fin n1 m1 e1, .fin n2 m2 e2 => (addFin down n1 m1 e1 n2 m2 e2, f)

/-- The exact product of two values with IEEE's special cases (R93, R95). -/
def FVal.mul (a b : FVal) : FVal × Flags :=
  let f := a.snan ||| b.snan
  match a, b with
  | .nan _, _ => (.nan false, f)
  | _, .nan _ => (.nan false, f)
  | .inf x, .inf y => (.inf (x != y), f)
  | .inf x, .fin y m _ => if m = 0 then (.nan false, Flags.iv) else (.inf (x != y), f)
  | .fin x m _, .inf y => if m = 0 then (.nan false, Flags.iv) else (.inf (x != y), f)
  | .fin n1 m1 e1, .fin n2 m2 e2 => (.fin (n1 != n2) (m1 * m2) (e1 + e2), f)

/-- The mode is down (R97's rule for an exact zero). -/
def RMode.isDown : RMode → Bool
  | .rdn => true
  | _ => false

/-- a + b rounded once (R120, R240). -/
def Fmt.add (f : Fmt) (mode : RMode) (a b : Nat) : Nat × Flags :=
  let (v, fl) := FVal.add mode.isDown (f.decode a) (f.decode b)
  let (r, fr) := f.deliver mode v
  (r, fl ||| fr)

/-- a - b rounded once. -/
def Fmt.sub (f : Fmt) (mode : RMode) (a b : Nat) : Nat × Flags :=
  let (v, fl) := FVal.add mode.isDown (f.decode a) (f.decode b).neg
  let (r, fr) := f.deliver mode v
  (r, fl ||| fr)

/-- a * b rounded once. -/
def Fmt.mul (f : Fmt) (mode : RMode) (a b : Nat) : Nat × Flags :=
  let (v, fl) := FVal.mul (f.decode a) (f.decode b)
  let (r, fr) := f.deliver mode v
  (r, fl ||| fr)

/-- The exact product plus c (R121, R242); 0 times infinity is IV even when c is a quiet NaN. -/
def FVal.fma (down : Bool) (a b c : FVal) : FVal × Flags :=
  let (p, fp) := FVal.mul a b
  let (v, fv) := FVal.add down p c
  (v, fp ||| fv)

/-- (-1)^np * (a*b) + (-1)^nc * c rounded once. -/
def Fmt.fma (f : Fmt) (mode : RMode) (np nc : Bool) (a b c : Nat) : Nat × Flags :=
  let x := if np then (f.decode a).neg else f.decode a
  let z := if nc then (f.decode c).neg else f.decode c
  let (v, fl) := FVal.fma mode.isDown x (f.decode b) z
  let (r, fr) := f.deliver mode v
  (r, fl ||| fr)

/-- a / b rounded once, with ZD for a finite nonzero value by zero (R95). -/
def Fmt.div (f : Fmt) (mode : RMode) (a b : Nat) : Nat × Flags :=
  let x := f.decode a
  let y := f.decode b
  let fl := x.snan ||| y.snan
  match x, y with
  | .nan _, _ => (f.nan, fl)
  | _, .nan _ => (f.nan, fl)
  | .inf _, .inf _ => (f.nan, Flags.iv)
  | .inf n, .fin k _ _ => (f.signBit (n != k) + f.infinity, fl)
  | .fin n _ _, .inf k => (f.signBit (n != k), fl)
  | .fin n m1 e1, .fin k m2 e2 =>
    if m2 = 0 then
      (if m1 = 0 then (f.nan, Flags.iv) else (f.signBit (n != k) + f.infinity, Flags.zd))
    else if m1 = 0 then (f.signBit (n != k), fl)
    else
      let num := m1 * 2^64
      f.roundFinite mode false (n != k) (num / m2) (e1 - e2 - 64) (num % m2 != 0)

/-- The integer square root of v, found from bit b down. -/
def isqrtFrom (v : Nat) : Nat → Nat → Nat
  | 0, acc => acc
  | b + 1, acc =>
    let c := acc + 2^b
    isqrtFrom v b (if c * c ≤ v then c else acc)

/-- The integer square root: the largest r with r*r ≤ v. -/
def isqrt (v : Nat) : Nat := isqrtFrom v (v.log2 / 2 + 1) 0

/-- √a rounded once (R120, R249): √±0 = ±0; below -0 the canonical NaN with IV. -/
def Fmt.sqrt (f : Fmt) (mode : RMode) (a : Nat) : Nat × Flags :=
  match f.decode a with
  | .nan s => (f.nan, FVal.snan (.nan s))
  | .inf true => (f.nan, Flags.iv)
  | .inf false => (f.infinity, 0)
  | .fin neg m e =>
    if m = 0 then (f.signBit neg, 0)
    else if neg then (f.nan, Flags.iv)
    else
      let odd := (e % 2).natAbs
      let v := m * 2^(64 + odd)
      let r := isqrt v
      f.roundFinite mode false false r ((e - odd) / 2 - 32) (r * r != v)

/-- a < b, a = b on values that are no NaN. -/
def FVal.lt (a b : FVal) : Bool :=
  match a, b with
  | .inf x, .inf y => x && !y
  | .inf x, .fin _ _ _ => x
  | .fin _ _ _, .inf y => !y
  | .fin n1 m1 e1, .fin n2 m2 e2 =>
    let q := min e1 e2
    decide (alignInt n1 m1 e1 q < alignInt n2 m2 e2 q)
  | _, _ => false

/-- a = b, +0 = -0 (R120). -/
def FVal.eq (a b : FVal) : Bool :=
  match a, b with
  | .nan _, _ => false
  | _, .nan _ => false
  | _, _ => !(FVal.lt a b) && !(FVal.lt b a)

/-- FEQ: IV only for a signalling NaN (R95, R120). -/
def Fmt.cmpEq (f : Fmt) (a b : Nat) : Bool × Flags :=
  let x := f.decode a
  let y := f.decode b
  (FVal.eq x y, x.snan ||| y.snan)

/-- FCLT: IV for any NaN (R95, R120). -/
def Fmt.cmpLt (f : Fmt) (a b : Nat) : Bool × Flags :=
  let x := f.decode a
  let y := f.decode b
  if x.isNan || y.isNan then (false, Flags.iv) else (FVal.lt x y, 0)

/-- FCLE: IV for any NaN (R95, R120). -/
def Fmt.cmpLe (f : Fmt) (a b : Nat) : Bool × Flags :=
  let x := f.decode a
  let y := f.decode b
  if x.isNan || y.isNan then (false, Flags.iv) else (FVal.lt x y || FVal.eq x y, 0)

/-- FMIN and FMAX (R120): -0 < +0; one NaN gives the other; two give the canonical NaN; IV if either is signalling. -/
def Fmt.minMax (f : Fmt) (wantMax : Bool) (a b : Nat) : Nat × Flags :=
  let x := f.decode a
  let y := f.decode b
  let fl := x.snan ||| y.snan
  if x.isNan && y.isNan then (f.nan, fl)
  else if x.isNan then (b, fl)
  else if y.isNan then (a, fl)
  else
    let negA := a / 2^(f.ew + f.mw) % 2 == 1
    let less := FVal.lt x y || (FVal.eq x y && negA)
    (if less != wantMax then a else b, fl)

/-- FABS and FNEG (R120): a NaN gives the canonical NaN, with IV if signalling. -/
def Fmt.abs (f : Fmt) (a : Nat) : Nat × Flags :=
  match f.decode a with
  | .nan s => (f.nan, FVal.snan (.nan s))
  | _ => (a % 2^(f.ew + f.mw), 0)

/-- The sign inverted; a NaN as `abs`. -/
def Fmt.negate (f : Fmt) (a : Nat) : Nat × Flags :=
  match f.decode a with
  | .nan s => (f.nan, FVal.snan (.nan s))
  | _ => ((a + 2^(f.ew + f.mw)) % 2^(f.ew + f.mw + 1), 0)

/-- R98: a float rounded to an n-bit signed integer, as its n-bit pattern. A NaN gives the upper bound; outside the range
the nearest bound, with IV alone. -/
def Fmt.toInt (f : Fmt) (mode : RMode) (n a : Nat) : Nat × Flags :=
  let hi := 2^(n - 1) - 1
  let lo := 2^(n - 1)
  match f.decode a with
  | .nan _ => (hi, Flags.iv)
  | .inf neg => (if neg then lo else hi, Flags.iv)
  | .fin neg m e =>
    let (v, inexact) := roundAt mode neg m e false 0
    if neg then
      (if lo < v then (lo, Flags.iv) else ((2^n - v) % 2^n, Flags.when inexact Flags.ix))
    else (if hi < v then (hi, Flags.iv) else (v, Flags.when inexact Flags.ix))

/-- R98: a signed integer rounded to a float. -/
def Fmt.ofInt (f : Fmt) (mode : RMode) (v : Int) : Nat × Flags :=
  f.deliver mode (.fin (decide (v < 0)) v.natAbs 0)

/-- R98: FP32 to BF16, FP16 or FP32 from them, rounded. -/
def Fmt.convert (src dst : Fmt) (mode : RMode) (a : Nat) : Nat × Flags :=
  let v := src.decode a
  let (r, fr) := dst.deliver mode v
  (r, v.snan ||| fr)

/-- R98: an infinity or a NaN delivered as an element: E5M2 keeps both; E4M3 keeps NaN; a format that holds neither takes
±max finite or +0, with IV. -/
def Fmt.special (f : Fmt) (v : FVal) : Nat × Flags :=
  match v with
  | .nan s => if f.nan = 0 then (0, Flags.iv) else (f.nan, FVal.snan (.nan s))
  | .inf neg => if f.inf then (f.signBit neg + f.infinity, 0) else (f.signBit neg + f.max, Flags.iv)
  | .fin _ _ _ => (0, 0)

/-- R98: an FP32 value converted to an FP8 element, to nearest even: a magnitude above max finite saturates. -/
def Fmt.toElement (f : Fmt) (a : Nat) : Nat × Flags :=
  match Fmt.f32.decode a with
  | .fin neg m e => if m = 0 then (f.signBit neg, 0) else f.roundFinite .rne true neg m e false
  | v => f.special v

/-- R104: one of the 32 steps of the generator. -/
def lfsrStep (g : BitVec 32) : BitVec 32 :=
  let b := g.getLsbD 31 ^^ g.getLsbD 21 ^^ g.getLsbD 1 ^^ g.getLsbD 0
  (g <<< 1) ||| (if b then 1 else 0)

/-- n steps of the generator. -/
def lfsrSteps (g : BitVec 32) : Nat → BitVec 32
  | 0 => g
  | n + 1 => lfsrSteps (lfsrStep g) n

/-- R104: one advance: the new state and the 24-bit draw. -/
def lfsrAdvance (g : BitVec 32) : BitVec 32 × Nat :=
  let g := lfsrSteps g 32
  (g, g.toNat / 256)

/-- R105: a finite magnitude (m + d) * 2^e, not zero, rounded stochastically by a draw; `sat` for elements. The unit in the
last place of the unbounded format decides which magnitudes are tiny (R95). -/
def Fmt.stochFinite (f : Fmt) (draw : Nat) (sat neg : Bool) (m0 : Nat) (e0 : Int) (sticky : Bool) : Nat × Flags :=
  let m := m0 * 2^64
  let e := e0 - 64
  let (mm, me) := f.maxValue
  if sat && (dyadicLt mm me m e || (sticky && !(dyadicLt m e mm me))) then
    (f.signBit neg + f.max, Flags.ov ||| Flags.ix)
  else
    let qu := e + m.log2 - f.mw
    let pick (q : Int) : Nat × Bool :=
      let d := (q - e).toNat
      let r := m % 2^d
      let bar := draw * 2^(d - 24)
      let up := decide (bar < r) || (r == bar && sticky)
      (if up then m / 2^d + 1 else m / 2^d, r != 0 || sticky)
    let q := Max.max qu (f.emin - f.mw)
    let (n0, inexact) := pick q
    let (n, q) := if n0 = 2^(f.mw + 1) then (2^f.mw, q + 1) else (n0, q)
    if dyadicLt mm me n q then
      (if f.inf && !sat then (f.signBit neg + f.infinity, Flags.ov ||| Flags.ix) else (f.signBit neg + f.max, Flags.ix))
    else
      let tiny := dyadicLt (pick qu).1 qu 1 f.emin
      (f.signBit neg + f.pack n q, Flags.when (tiny && inexact) Flags.un ||| Flags.when inexact Flags.ix)

/-- R105: an FP32 value converted stochastically to FP16 or BF16, with its draw. -/
def Fmt.stochConvert (f : Fmt) (draw a : Nat) : Nat × Flags :=
  match Fmt.f32.decode a with
  | .fin neg m e => if m = 0 then (f.signBit neg, 0) else f.stochFinite draw false neg m e false
  | v =>
    let (r, fr) := f.deliver .rne v
    (r, v.snan ||| fr)

/-! Block records (R99 to R102). -/

/-- R100: the value of a scale byte as (m, e); none for the NaN block 0xFF. -/
def scaleValue (s : Nat) : Option (Nat × Int) :=
  if s % 256 = 0xFF then none
  else
    let e := s / 32 % 8
    let f := s % 32
    if e = 0 then some (f, -7) else some (32 + f, (e : Int) - 8)

/-- The scale as a value: NaN for 0xFF. -/
def scaleVal (s : Nat) : FVal :=
  match scaleValue s with
  | none => .nan false
  | some (m, e) => .fin false m e

/-- R99: the bytes of a record of an element format. -/
def Fmt.recordSize (f : Fmt) : Nat := 1 + 32 * f.width / 8

/-- R99: element i of the record whose bytes, as one little-endian value, are rec. -/
def Fmt.recordElem (f : Fmt) (rec : Nat) (i : Nat) : Nat := rec / 2^(8 + f.width * i) % 2^f.width

/-- R101: element i decoded: the exact product of scale and element, with IV for a signalling E5M2 NaN under any scale. -/
def Fmt.recordValue (f : Fmt) (rec : Nat) (i : Nat) : FVal × Flags :=
  let x := f.decode (f.recordElem rec i)
  let sc := scaleVal (rec % 256)
  match sc with
  | .nan _ => (.nan false, x.snan)
  | _ => FVal.mul x sc

/-- R101: the 32 decoded elements in FP32. -/
def Fmt.unpack (f : Fmt) (rec : Nat) (i : Nat) : Nat × Flags :=
  let (v, fl) := f.recordValue rec i
  ((Fmt.f32.deliver .rne v).1, fl)

/-- The larger magnitude of two FP32 values, a NaN taking no part (R102). -/
def maxMag (a b : FVal) : FVal :=
  match a, b with
  | .inf _, _ => .inf false
  | .nan _, .inf _ => .inf false
  | .nan _, .fin _ m e => .fin false m e
  | .nan _, .nan _ => .fin false 0 0
  | .fin _ _ _, .inf _ => .inf false
  | .fin _ m e, .nan _ => .fin false m e
  | .fin _ m e, .fin _ n q => if FVal.lt (.fin false m e) (.fin false n q) then .fin false n q else .fin false m e

/-- The first scale encoding from s on, at most 0xFE, whose value times the largest finite element reaches a (R102). -/
def scaleSearch (f : Fmt) (a : FVal) : Nat → Nat → Nat
  | 0, _ => 0xFE
  | n + 1, s =>
    let (mm, me) := f.maxValue
    match scaleValue s with
    | some (m, e) => if FVal.lt (.fin false (m * mm) (e + me)) a then scaleSearch f a n (s + 1) else s
    | none => 0xFE

/-- R102: the scale byte for the largest magnitude a. -/
def Fmt.scaleFor (f : Fmt) (a : FVal) : Nat := scaleSearch f a 0xFE 0

/-- R102: one element: `draw` is none for nearest even. -/
def Fmt.quantise (f : Fmt) (s : Nat) (draw : Option Nat) (x : FVal) : Nat × Flags :=
  match x with
  | .fin neg m e =>
    (match scaleValue s with
     | some (sm, se) =>
       if sm = 0 || m = 0 then (f.signBit neg, 0)
       else
         let num := m * 2^64
         let (v, st) := (num / sm, num % sm != 0)
         (match draw with
          | none => f.roundFinite .rne true neg v (e - se - 64) st
          | some d => f.stochFinite d true neg v (e - se - 64) st)
     | none => (f.signBit neg, 0))
  | v => f.special v

/-- R102: quantises values into the record's element bits from element i on, threading the generator; the flags gather. -/
def Fmt.quantiseAll (f : Fmt) (s : Nat) (stoch : Bool) (g : BitVec 32) :
    List FVal → Nat → Nat × Flags × BitVec 32
  | [], _ => (0, 0, g)
  | x :: xs, i =>
    let (g1, d) := if stoch then lfsrAdvance g else (g, 0)
    let (b, fb) := f.quantise s (if stoch then some d else none) x
    let (rest, fr, g2) := f.quantiseAll s stoch g1 xs (i + 1)
    (b * 2^(8 + f.width * i) + rest, fb ||| fr, g2)

/-- R102: 32 FP32 encodings quantised into one record, as a little-endian value. -/
def Fmt.packRecord (f : Fmt) (stoch : Bool) (g : BitVec 32) (xs : List Nat) : Nat × Flags × BitVec 32 :=
  let vs := xs.map Fmt.f32.decode
  let a := vs.foldl maxMag (.nan false)
  let a := match a with | .nan _ => FVal.fin false 0 0 | v => v
  let s := f.scaleFor a
  let (bits, fl, g) := f.quantiseAll s stoch g vs 0
  (s + bits, fl, g)

/-! Special functions (R249): correctly rounded FP32. The precisions below are those at which no FP32 operand can lie
between two candidates (log entry 17). -/

/-- VRCP: 1/a. -/
def sfuRcp (a : Nat) : Nat × Flags :=
  match Fmt.f32.decode a with
  | .nan s => (Fmt.f32.nan, FVal.snan (.nan s))
  | .inf neg => (Fmt.f32.signBit neg, 0)
  | .fin neg m e =>
    if m = 0 then (Fmt.f32.signBit neg + Fmt.f32.infinity, Flags.zd)
    else Fmt.f32.roundFinite .rne false neg (2^64 / m) (-e - 64) (2^64 % m != 0)

/-- VRSQRT: 1/√a. -/
def sfuRsqrt (a : Nat) : Nat × Flags :=
  match Fmt.f32.decode a with
  | .nan s => (Fmt.f32.nan, FVal.snan (.nan s))
  | .inf true => (Fmt.f32.nan, Flags.iv)
  | .inf false => (0, 0)
  | .fin neg m e =>
    if m = 0 then (Fmt.f32.signBit neg + Fmt.f32.infinity, Flags.zd)
    else if neg then (Fmt.f32.nan, Flags.iv)
    else
      let odd := (e % 2).natAbs
      let v := m * 2^odd
      let r := isqrt (2^160 / v)
      Fmt.f32.roundFinite .rne false false r (-((e - odd) / 2) - 80) (r * r * v != 2^160)

/-- 2^(2^-i) * 2^320, rounded down, found by i square roots of 2. -/
def exp2Root : Nat → Nat
  | 0 => 2 * 2^320
  | i + 1 => isqrt (exp2Root i * 2^320)

/-- The product of acc (scaled by 2^320) with 2^(2^-i) over the set bits of a fraction of n bits, lowest weight n. -/
def exp2Product (frac n : Nat) : Nat → Nat → Nat
  | 0, acc => acc
  | i + 1, acc =>
    exp2Product frac n i (if frac / 2^(n - (i + 1)) % 2 = 1 then acc * exp2Root (i + 1) / 2^320 else acc)

/-- VEXP2: 2^a. -/
def sfuExp2 (a : Nat) : Nat × Flags :=
  match Fmt.f32.decode a with
  | .nan s => (Fmt.f32.nan, FVal.snan (.nan s))
  | .inf true => (0, 0)
  | .inf false => (Fmt.f32.infinity, 0)
  | .fin neg m e =>
    if m = 0 then (0x3F800000, 0)
    else if 1024 * 2^(-e).toNat ≤ m * 2^e.toNat then
      (if neg then Fmt.f32.roundFinite .rne false false (2^64) (-1200) true
       else Fmt.f32.roundFinite .rne false false (2^64) 1000 false)
    else
      let n := (-e).toNat
      let v : Int := if neg then -((m * 2^e.toNat : Nat) : Int) else ((m * 2^e.toNat : Nat) : Int)
      let k := v / (2^n : Nat)
      let frac := (v % (2^n : Nat)).toNat
      if frac = 0 then Fmt.f32.roundFinite .rne false false 1 k false
      else Fmt.f32.roundFinite .rne false false (exp2Product frac n n (2^320)) (k - 320) true

/-- The next n fraction bits of log2 x, for x scaled by 2^260 in [1, 2). -/
def log2Bits : Nat → Nat → Nat → Nat
  | 0, _, acc => acc
  | n + 1, x, acc =>
    let y := x * x / 2^260
    if 2^261 ≤ y then log2Bits n (y / 2) (2 * acc + 1) else log2Bits n y (2 * acc)

/-- VLOG2: log2 a. -/
def sfuLog2 (a : Nat) : Nat × Flags :=
  match Fmt.f32.decode a with
  | .nan s => (Fmt.f32.nan, FVal.snan (.nan s))
  | .inf true => (Fmt.f32.nan, Flags.iv)
  | .inf false => (Fmt.f32.infinity, 0)
  | .fin neg m e =>
    if m = 0 then (Fmt.f32.signBit true + Fmt.f32.infinity, Flags.zd)
    else if neg then (Fmt.f32.nan, Flags.iv)
    else
      let k : Int := e + m.log2
      if m = 2^m.log2 then Fmt.f32.ofInt .rne k
      else
        let bits := log2Bits 110 (m * 2^(260 - m.log2)) 0
        let v : Int := k * (2^110 : Nat) + bits
        if 0 ≤ v then Fmt.f32.roundFinite .rne false false v.natAbs (-110) true
        else Fmt.f32.roundFinite .rne false true (v.natAbs - 1) (-110) true

/-! The MXU's exact sums (R107). -/

/-- Adds a term to an exact sum; zeros keep -0 only when every term is -0 (R107). The terms enter in ascending order, so
that opposite infinities raise IV only when no NaN term stands before the second of them; whether a NaN among the terms
silences their IV the spec does not say (DESIGN CHOICE, log entry 59). -/
def FVal.accumulate (acc : Option FVal) (f : Flags) (t : FVal) : Option FVal × Flags :=
  match acc with
  | none => (some t, f ||| t.snan)
  | some a =>
    let (v, fl) := FVal.add false a t
    (some v, f ||| fl)

/-- The exact sum of a list of products (R107); an empty sum is +0. -/
def sumExact (ts : List (FVal × Flags)) : FVal × Flags :=
  let r := ts.foldl (fun (acc : Option FVal × Flags) t =>
    let (v, f) := FVal.accumulate acc.1 acc.2 t.1
    (v, f ||| t.2)) (none, 0)
  (r.1.getD (.fin false 0 0), r.2)

end Sys2Proof.Machine
end

