-- ==== Sys2Proof/Machine/Report.lean ====
section
/-!
DEFINITION. Error records and their ring (R362, R363), and events of the Mbaek link (R395).
-/
namespace Sys2Proof.Machine

/-- R362: the sources of an error record. -/
inductive ErrSource where
  | core | l2 | basin | hbm | link | weir | copy | mxu | router | timeBase
  deriving DecidableEq, Repr

/-- The source code of R362. -/
def ErrSource.code : ErrSource → Nat
  | .core => 0 | .l2 => 1 | .basin => 2 | .hbm => 3 | .link => 4 | .weir => 5 | .copy => 6 | .mxu => 7 | .router => 8
  | .timeBase => 9

/-- R362: the classes of an error record. -/
inductive ErrClass where
  | corrected | ue | sig | watchdog | quarantine | sparesExhausted | tagDrop | acklost | rollback | restarted | fault
  deriving DecidableEq, Repr

/-- The class code of R362. -/
def ErrClass.code : ErrClass → Nat
  | .corrected => 0 | .ue => 1 | .sig => 2 | .watchdog => 3 | .quarantine => 4 | .sparesExhausted => 5 | .tagDrop => 6
  | .acklost => 7 | .rollback => 8 | .restarted => 9 | .fault => 10

/-- R362: the 32 bytes of an error record with count 1. -/
def errorBytes (now : Nat) (src : ErrSource) (cls : ErrClass) (die tag unit : Nat) (addr info : Word) : List Byte :=
  leBytes now 8 ++ leBytes src.code 1 ++ leBytes cls.code 1 ++ leBytes die 1 ++ leBytes tag 1 ++ leBytes unit 2
    ++ leBytes 1 2 ++ leBytes addr.toNat 8 ++ leBytes info.toNat 8

/-- The sources of R362, for a record whose source no rule states. -/
def ErrSource.all : List ErrSource := [.core, .l2, .basin, .hbm, .link, .weir, .copy, .mxu, .router, .timeBase]

/-- The classes of R362, for a record whose class no rule states. -/
def ErrClass.all : List ErrClass :=
  [.corrected, .ue, .sig, .watchdog, .quarantine, .sparesExhausted, .tagDrop, .acklost, .rollback, .restarted, .fault]

/-- The k-th of the free values that an error record takes (log entry 31). -/
def State.openField (s : State) (k : Nat) : Word := Config.freeValue (s.freeCount + k)

/-- One of a list of possible values, by a free value. -/
def State.openChoice {α : Type} (s : State) (k : Nat) (l : List α) (d : α) : α := l.getD ((s.openField k).toNat % l.length) d

/-- R411: the MCTP message of record number n: the type of a vendor-defined message, the enterprise number, the sequence number
and the record. -/
def recordMessage (n : Nat) (r : List Byte) : List Byte :=
  0x7F :: Config.enterpriseNumber.toList ++ leBytes n 2 ++ r

/-- R362, R363, R411: an error record enters the ring of the last 4096 and goes out as an MCTP message. -/
def State.addRecord (s : State) (r : List Byte) : State :=
  { s with
    errors := (r :: s.errors).take 4096
    errorCount := s.errorCount + 1
    mctp := recordMessage s.errorCount r :: s.mctp }

/-- R362: an error record is made. A field that no rule states is a free value (log entry 31): the source and the class are
one of those that the rules leave possible, a die is one of the 14 of R362, a unit and a syndrome are any value. -/
def State.report (s : State) (srcs : List ErrSource) (classes : List ErrClass) (die : Option Nat) (tag : Nat)
    (unit : Option Nat) (addr : Word) (info : Option Word) : State :=
  { s.addRecord (errorBytes s.now (s.openChoice 0 srcs .core) (s.openChoice 1 classes .corrected)
      (die.getD ((s.openField 2).toNat % 14)) tag (unit.getD ((s.openField 3).toNat % 2^16)) addr (info.getD (s.openField 4))) with
    freeCount := s.freeCount + 5 }

/-- R363: the record of a number, 32 zero bytes when the ring does not hold it. -/
def State.errorRecord (s : State) (k : Nat) : List Byte :=
  if k < s.errorCount then (s.errors[s.errorCount - 1 - k]?).getD (List.replicate 32 0) else List.replicate 32 0

/-- R362: a structure that an error record may name: source, die and unit, where they are known. -/
structure ErrPlace where
  source : ErrSource
  die : Option Nat
  unit : Option Nat
  deriving DecidableEq, Repr

/-- R362: any structure, for a record whose source no rule states. -/
def ErrPlace.all : List ErrPlace := ErrSource.all.map (fun x => ⟨x, none, none⟩)

/-- R362: a core, or its MXU, as the source of an error. -/
def State.corePlace (s : State) (src : ErrSource) (c : Nat) : ErrPlace := ⟨src, some (dieOf c), some (s.physicalOf c)⟩

/-- An error record about thread t of partition p (R362), at one of the places that the rules leave possible. -/
def State.reportAt (s : State) (p : Nat) (places : List ErrPlace) (cls : ErrClass) (addr : Word) (info : Option Word) : State :=
  let x := s.openChoice 0 places ⟨.core, none, none⟩
  s.report [x.source] [cls] x.die p x.unit addr info

/-- R362: corrected errors of one unit within 1 ms share a record, whose count is in bytes 0x0E and 0x0F. -/
def sameCorrected (now src die unit : Nat) (r : List Byte) : Bool :=
  leValue ((r.drop 8).take 3) == src + 2^16 * die && leValue ((r.drop 12).take 2) == unit
    && decide (now < leValue (r.take 8) + 1000000)

/-- R362: a record that counts one more event, up to 65,535. -/
def countOnce (r : List Byte) : List Byte :=
  r.take 14 ++ leBytes (min (leValue ((r.drop 14).take 2) + 1) 65535) 2 ++ r.drop 16

/-- R346, R347, R362: an error that the storage corrects: no data changes, and its event enters a record. The syndrome is a
free value (log entry 31). -/
def State.corrected (s : State) (src die tag unit : Nat) (addr : Word) : State :=
  if s.errors.any (sameCorrected s.now src die unit) then
    { s with errors := s.errors.map (fun r => if sameCorrected s.now src die unit r then countOnce r else r) }
  else
    { s.addRecord (leBytes s.now 8 ++ leBytes src 1 ++ leBytes 0 1 ++ leBytes die 1 ++ leBytes tag 1 ++ leBytes unit 2
        ++ leBytes 1 2 ++ leBytes addr.toNat 8 ++ leBytes (s.openField 0).toNat 8) with
      freeCount := s.freeCount + 1 }

/-- Function f of the link (R389). -/
def State.fn (s : State) (f : Nat) : Function := Sparse.get s.functions f Function.reset

/-- The state with function f set. -/
def State.setFn (s : State) (f : Nat) (v : Function) : State := { s with functions := Sparse.set s.functions f v }

/-- The event ring is configured: its log lies in 4-12 (R389). -/
def Function.eventReady (v : Function) : Bool := decide (4 ≤ v.eqlog) && decide (v.eqlog ≤ 12)

/-- The event ring is full: one entry stays unused, so that a full ring differs from an empty one (log entry 18). -/
def Function.eventFull (v : Function) : Bool := (v.eqtail + 1) % 2^v.eqlog == v.eqhead

/-- R395: the 64 bytes of an event. -/
def eventBytes (e : Event) (phase : Bool) : List Byte :=
  (leBytes e.type 2 ++ leBytes e.tag 1 ++ leBytes (bit phase) 1 ++ leBytes e.htag.toNat 4 ++ leBytes e.status.toNat 8
    ++ (e.payload.flatMap (fun (w : Word) => leBytes w.toNat 8)) ++ List.replicate 48 0).take 64

/-- R395: writes one event at the ring's tail; EQTAIL advances after it and the phase bit inverts at the wrap. -/
def State.writeEvent (s : State) (f : Nat) (e : Event) : State :=
  let v := s.fn f
  let s := s.writeBytesAt (hostKey v.eqbase.toNat + 64 * v.eqtail) (eventBytes e v.phase)
  let tail := (v.eqtail + 1) % 2^v.eqlog
  s.setFn f { v with eqtail := tail, phase := if tail = 0 then !v.phase else v.phase }

/-- R395: posts an event: written when the ring has room and nothing is held, held in order otherwise. -/
def State.post (s : State) (f : Nat) (e : Event) : State :=
  let v := s.fn f
  if v.eventReady && !v.eventFull && v.held.isEmpty then s.writeEvent f e
  else s.setFn f { v with held := v.held ++ [e] }

/-- R395: writes held events while the ring has room, at most n of them. -/
def State.flushHeld (s : State) (f : Nat) : Nat → State
  | 0 => s
  | n + 1 =>
    let v := s.fn f
    match v.held with
    | [] => s
    | e :: r =>
      if v.eventReady && !v.eventFull then ((s.setFn f { v with held := r }).writeEvent f e).flushHeld f n else s

/-- A rank and thread in the layout of R340 and R344: rank in 9:0, thread in 11:10, SUB in 23:16. -/
def whoWord (rank thread sub : Nat) : Word := word (rank + thread * 2^10 + sub * 2^16)

/-- The rank of the core of thread t of partition p and its number in the core, where its context lives (R315). -/
def State.whoFor (s : State) (p t sub : Nat) : Word := whoWord (((s.coreFor p (coreOf t)).map (·.rank)).getD 0) (t % 4) sub

/-- The rank of a thread's core and its number in the core. -/
def State.who (s : State) (t sub : Nat) : Word := whoWord (s.coreAt (coreOf t)).rank (t % 4) sub

end Sys2Proof.Machine
end

