-- ==== Sys2Proof/Machine/Access.lean ====
section
/-!
DEFINITION. Where an access may go and what it finds there: the forms of an address (R73, R74), the spaces each
instruction reaches (R149), translation in two stages (R331 to R337), watchpoints (R360, R361), and the pages that the die
dispatcher performs (R309, R340).
-/
namespace Sys2Proof.Machine

/-- What an address names (R73, R74). -/
inductive Space where
  | spad (off : Nat)
  | slot (off : Nat)
  | home (window : Nat)
  | rank (r off : Nat)
  | refused
  deriving DecidableEq, Repr

/-- R73, R74, R36: the space of an address; the receive-queue region and every non-canonical form is refused. -/
def classify (va : Word) : Space :=
  let n := va.toNat
  if 2^63 ≤ n then
    (if n / 2^61 % 4 ≠ 0 ∨ n / 2^20 % 2^31 ≠ 0 then .refused
     else if n % 2^20 < 0xF8000 then .rank (n / 2^51 % 1024) (n % 2^20) else .refused)
  else if n / 2^55 ≠ 0 then .refused
  else
    let f := n / 2^51
    let off := n % 2^51
    if f ≤ 9 then .home f
    else if f = 15 then
      (if off < 0xF8000 then .spad off
       else if off < 0x100000 then .refused
       else if off < 0x100040 then .slot (off - 0x100000)
       else .refused)
    else .refused

/-- The columns of R149's table that check one naturally aligned access. -/
inductive Use where
  | load | store | stl | amo | getr | putr
  deriving DecidableEq, Repr

/-- The access kind of a use (R148, R333). -/
def Use.kind : Use → Access
  | .load => .load
  | .store | .stl => .store
  | .amo => .atomic
  | .getr => .getr
  | .putr => .putr

/-- A write kind of R333. -/
def Access.writes : Access → Bool
  | .store | .atomic | .putr => true
  | .fetch | .load | .getr => false

/-- A read for the watch of R360. -/
def Access.reads : Access → Bool
  | .load | .atomic | .getr => true
  | .fetch | .store | .putr => false

/-- R148: the sub-code of an access kind. -/
def Access.sub : Access → BitVec 8
  | .fetch => 0 | .load => 1 | .store => 2 | .atomic => 3 | .getr => 4 | .putr => 4

/-- R149: FARORD for a space that the instruction does not reach, ACCESS for a closed one. -/
def Use.spaceError (u : Use) (die : Nat) : Space → Option Cause
  | .refused => some .access
  | .spad _ => none
  | .slot _ => (match u with | .store => none | _ => some .access)
  | .home d =>
    (match u with
     | .load | .store | .stl => if d = die then none else some .farord
     | _ => none)
  | .rank _ _ =>
    (match u with
     | .load | .store | .stl => some .farord
     | _ => none)

/-- R137 steps 3 to 5: ACCESS, then MISALIGN, then FARORD. -/
def checkAddress (u : Use) (die : Nat) (va : Word) (size : Nat) : Option Trap :=
  match u.spaceError die (classify va) with
  | some .access => some (Trap.plain .access va 0)
  | e =>
    if va.toNat % size ≠ 0 then some (Trap.plain .misalign va 0)
    else match e with
      | some c => some (Trap.plain c va 0)
      | none => none

/-- What a first-stage walk and its second stage give (R337): the host address, the leaf's host address, its level and its
entry. -/
structure Walked where
  a : Nat
  leaf : Nat
  big : Bool
  entry : Word
  deriving DecidableEq, Repr

/-- The frame state of a host address (R326): an HBM frame that is not listed is SCRUBBING until the boot scrub has ended
and CLEAN after it; a class 8 or 9 frame counts as CLEAN. -/
def State.frameAt (s : State) (a : Nat) : Frame :=
  Sparse.get s.frames (a / 2^21) (if isHbm a && !s.bootScrubbed then .scrubbing else .clean)

/-- R332: an entry of level 0 top, 1 middle, 2 bottom is valid and well formed. -/
def entryOk (level : Nat) (e : Nat) : Bool :=
  let leaf := field e 1 1 == 1
  field e 0 1 == 1 && field e 40 24 == 0 && field e 10 2 == 0 && field e 6 1 == 0
    && (if leaf then level != 0 && (level != 1 || field e 16 13 == 0) && !(field e 3 1 == 1 && field e 2 1 == 0)
        else level != 2 && field e 2 8 == 0)

/-- R333: the leaf permissions of a kind; app code also needs U. -/
def permitted (k : Access) (supervisor : Bool) (e : Nat) : Bool :=
  let r := field e 2 1 == 1
  let w := field e 3 1 == 1
  let x := field e 4 1 == 1
  (match k with
   | .fetch => x
   | .load | .getr => r
   | .store | .putr => w
   | .atomic => r && w) && (supervisor || field e 5 1 == 1)

/-- R335: the second-stage permissions of a kind. -/
def s2permitted (k : Access) (e : Nat) : Bool :=
  let r := field e 1 1 == 1
  let w := field e 2 1 == 1
  let x := field e 3 1 == 1
  field e 0 1 == 1 &&
  (match k with
   | .fetch => x
   | .load | .getr => r
   | .store | .putr => w
   | .atomic => r && w)

/-- R335: the host address that a second-stage entry gives a GPA. -/
def s2address (e gpa : Nat) : Nat := field e 21 31 * 2^21 + gpa % 2^21

/-- R336: the class and stack that a home field must reach. -/
def reachesHome (window a : Nat) : Bool :=
  if window ≤ 7 then isHbm a && stackOf a == window
  else classOf a == window

/-- R337: reads one table entry through the second stage: PAGE2, ACCESS, then a poisoned entry's UE, then PAGE1. -/
def State.tableEntry (s : State) (p : Nat) (va : Word) (k : Access) (level table index : Nat) :
    Except Trap (Nat × Nat) :=
  let g := table + 8 * index
  let e2 := (Sparse.get (s.part p).s2 (g / 2^21) 0).toNat
  let h := s2address e2 g
  if field e2 0 1 = 0 ∨ field e2 1 1 = 0 ∨ classOf h ≠ 0 then .error ⟨.page2, va, word g, 5, 0xFF⟩
  else if s.frameAt h ≠ .assigned p then .error (Trap.plain .access va 0)
  else if s.poisoned h 8 then .error (Trap.plain .ue va 0)
  else
    let e := s.readAt h 8
    if entryOk level e then .ok (h, e) else .error ⟨.page1, va, 0, k.sub, 0xFF⟩

/-- R405: the fabric node of a host address. -/
def nodeOf (a : Nat) : Option Nat := if classOf a = 9 then some (a / 2^36 % 4096) else none

/-- R405: the lanes of optical die d (fibre and wavelength) that its table names for a node. -/
def Route.lanes (r : Route) (d : Nat) : List Nat :=
  (List.range 16).flatMap (fun f =>
    if r.fibres.getLsbD f then
      ((List.range 16).filter (fun w => (r.waves.getD f 0).getLsbD w)).map (fun w => 256 * d + 16 * f + w)
    else [])

/-- R405, R406: the working lanes to a node. -/
def State.nodeLanes (s : State) (node : Nat) : List Nat :=
  ([0, 1, 2, 3] : List Nat).flatMap (fun d =>
    match Sparse.find? s.routes (4096 * d + node) with
    | some r => (r.lanes d).filter (fun l => !s.failedLanes.contains l)
    | none => [])

/-- R406: a node has a working lane in some optical die. -/
def State.nodeReached (s : State) (node : Nat) : Bool := !(s.nodeLanes node).isEmpty

/-- R333, R337: the leaf's permission, then the second stage of the access, then its frame, class and stack, then SP. -/
def State.finishWalk (s : State) (p : Nat) (va : Word) (k : Access) (supervisor : Bool) (window : Nat) (leaf e : Nat)
    (big : Bool) : Except Trap Walked :=
  if ¬ permitted k supervisor e then .error ⟨.page1, va, 0, k.sub, 0xFF⟩
  else
    let gd := if big then field e 29 11 * 2^29 + va.toNat % 2^29 else field e 16 24 * 2^16 + va.toNat % 2^16
    let e2 := (Sparse.get (s.part p).s2 (gd / 2^21) 0).toNat
    let h := s2address e2 gd
    if ¬ s2permitted k e2 then .error ⟨.page2, va, word gd, k.sub, 0xFF⟩
    else
      let frameOk : Bool := match s.frameAt h with
        | .assigned q => q == p
        | .shared => !k.writes && k != .fetch
        | _ => false
      let dead : Bool := (nodeOf h).any (fun n => !s.nodeReached n)
      if !frameOk || !reachesHome window h || dead then .error (Trap.plain .access va 0)
      else if k.writes ∧ field e 7 2 = 3 then .error (Trap.plain .spore va 0)
      else .ok ⟨h, leaf, big, word e⟩

/-- R331, R337: the leaf that a home address leads to for partition p: its host address, its entry, and whether it is one of
512 MiB. -/
def State.leafOf (s : State) (p : Nat) (va : Word) (k : Access) : Except Trap (Nat × Nat × Bool) :=
  let n := va.toNat
  match s.tableEntry p va k 0 ((s.part p).s1root.getD 0) (field n 42 13) with
  | .error t => .error t
  | .ok (_, e0) =>
    match s.tableEntry p va k 1 (field e0 16 24 * 2^16) (field n 29 13) with
    | .error t => .error t
    | .ok (h1, e1) =>
      if field e1 1 1 = 1 then .ok (h1, e1, true)
      else match s.tableEntry p va k 2 (field e1 16 24 * 2^16) (field n 16 13) with
        | .error t => .error t
        | .ok (h2, e2) => .ok (h2, e2, false)

/-- R331, R337: the walk of a home address for partition p. -/
def State.walk (s : State) (p : Nat) (va : Word) (k : Access) (supervisor : Bool) (window : Nat) : Except Trap Walked :=
  match s.leafOf p va k with
  | .error t => .error t
  | .ok (leaf, e, big) => s.finishWalk p va k supervisor window leaf e big

/-- The host address of the table entry that a walk reads (R335). -/
def State.entryAt (s : State) (p table index : Nat) : Nat :=
  let g := table + 8 * index
  s2address (Sparse.get (s.part p).s2 (g / 2^21) 0).toNat g

/-- R348, R337: the poisoned table entry at which a walk of a home address ends in UE. -/
def State.badEntry (s : State) (p : Nat) (va : Word) : Option Nat :=
  let n := va.toNat
  let h0 := s.entryAt p ((s.part p).s1root.getD 0) (field n 42 13)
  if s.poisoned h0 8 then some h0
  else
    let h1 := s.entryAt p (field (s.readAt h0 8) 16 24 * 2^16) (field n 29 13)
    if s.poisoned h1 8 then some h1
    else
      let e1 := s.readAt h1 8
      let h2 := s.entryAt p (field e1 16 24 * 2^16) (field n 16 13)
      if field e1 1 1 = 0 ∧ s.poisoned h2 8 then some h2 else none

/-- R329: the L2 slice of a virtual address. -/
def sliceOf (va : Word) : Nat :=
  let v := va.toNat
  field v 16 5 ^^^ field v 21 5 ^^^ field v 26 5 ^^^ field v 31 5 ^^^ field v 36 5 ^^^ field v 41 5 ^^^ field v 46 5
    ^^^ field v 51 5

/-- R334: T is set in the leaf, at its coherence point, before a write kind is performed through it. -/
def State.touch (s : State) (w : Walked) : State :=
  if field w.entry.toNat 9 1 = 1 then s
  else s.writeBytesAt w.leaf (leBytes (w.entry.toNat + 2^9) 8)

/-- The key of an address for a watch (R360): scratchpad bytes by their key, through the core-local or the rank form, home
bytes by their virtual address, a core's command slot by its offset above them; `true` marks a scratchpad. -/
def State.watchKey (s : State) (p c : Nat) (va : Word) : Option (Bool × Nat) :=
  match classify va with
  | .spad off => some (true, spadKey c off)
  | .rank r off =>
    ((s.rankEntry p r).core?.map (fun d => (true, spadKey d off)))
  | .home _ => some (false, va.toNat)
  | .slot off => some (false, 2^64 + 64 * c + off % 64)
  | .refused => none

/-- What accesses a watch: the agent's core, whether it is an engine, a vector access, a write, a read. -/
structure Watched where
  core : Nat
  engine : Bool
  vec : Bool
  writes : Bool
  reads : Bool
  deriving DecidableEq, Repr

/-- R360: the bytes of 2^len that a watch at an address covers: a command slot has no more than its own 64. -/
def watchedBytes (base : Word) (len : Nat) : Nat :=
  match classify base with
  | .slot off => min (2^len) (64 - off % 64)
  | _ => 2^len

/-- R360: watch n of thread t of partition p matches an access of kind w to size bytes at a key; a thread in a saved context
watches too (R315). `own` is an access of the thread. -/
def State.watchMatches (s : State) (p t : Nat) (own : Bool) (w : Watched) (key : Bool × Nat) (size : Nat) (n : Fin 4) : Bool :=
  let th := s.threadFor p t
  let m := (th.watchM.get n).toNat
  let len := min (field m 0 6) 20
  let base := (th.watchA.get n).toNat / 2^len * 2^len
  let scope := field m 12 2
  let inScope := own || (scope == 1 && w.core == coreOf t) || (scope == 2 && dieOf w.core == dieOf (coreOf t)) || scope == 3
  let kind := (w.writes && field m 9 1 == 1) || (w.reads && field m 8 1 == 1)
  let agent := (!w.vec || field m 11 1 == 1) && (!w.engine || field m 10 1 == 1)
  if kind && agent && inScope && !th.inh then
    (match s.watchKey p (coreOf t) (word base) with
     | some (sp, k) => sp == key.1 && overlaps k (watchedBytes (word base) len) key.2 size
     | none => false)
  else false

/-- The lowest matching watch of the thread that makes the access (R361); none while the word executes once without watch
matching after an ERET. -/
def State.ownWatch (s : State) (w : Watched) (va : Word) (size : Nat) : Option (Fin 4) :=
  if s.me.watchOnce = some s.me.pc then none
  else match s.watchKey (s.partOf s.cur) s.here va with
    | none => none
    | some key => [0, 1, 2, 3].find? (fun n => s.watchMatches (s.partOf s.cur) s.cur true w key size n)

/-- R361: the other threads of partition p whose watch the access matches, of a list of (partition, thread), get the match
pending, with the agent in TVAL2. An engine's access is its thread's own (R360 SCOPE 00). -/
def State.tellWatchers (s : State) (p agentThread : Nat) (w : Watched) (va : Word) (key : Bool × Nat) (size : Nat) :
    List (Nat × Nat) → State
  | [] => s
  | (q, t) :: ts =>
    let s :=
      if (t = agentThread ∧ ¬ w.engine) ∨ q ≠ p then s
      else match ([0, 1, 2, 3] : List (Fin 4)).find? (fun n => s.watchMatches p t (t == agentThread) w key size n) with
        | none => s
        | some n => s.modThreadFor p t (fun x =>
            x.pend (.watch n) va (s.whoFor p agentThread 0 + word (if w.engine then 2^12 else 0)))
    s.tellWatchers p agentThread w va key size ts

/-- R360: the thread watches something. -/
def Thread.watches (x : Thread) : Bool := x.watchM.toList.any (fun m => field m.toNat 8 2 != 0)

/-- The threads that watch something, each with its partition: those on the cores, and those in saved contexts (R315). -/
def State.watchers (s : State) : List (Nat × Nat) :=
  ((s.threads.filter (fun e => e.2.watches)).map (fun e => (s.partOf e.1, e.1))).filter (fun e => !s.away e.1 (coreOf e.2))
    ++ s.saved.flatMap (fun v => (v.snapshot.threads.filter (fun e => e.2.watches)).map (fun e => (v.tag, e.1)))

/-- R361: tells the watchers of an access by thread t, or by an engine for it. -/
def State.watched (s : State) (t : Nat) (w : Watched) (va : Word) (size : Nat) : State :=
  match s.watchers with
  | [] => s
  | ws =>
    match s.watchKey (s.partOf t) (coreOf t) va with
    | none => s
    | some key => s.tellWatchers (s.partOf t) t w va key size ws

/-- The host address of a GPA of partition p, when its second stage maps it. -/
def State.gpaToHost (s : State) (p gpa : Nat) : Option Nat :=
  let e := (Sparse.get (s.part p).s2 (gpa / 2^21) 0).toNat
  if field e 0 1 = 1 then some (s2address e gpa) else none

/-- The host page of a first-stage leaf's page (R331, R335). -/
def State.leafHost (s : State) (p : Nat) (g : HeldPage) : Option Nat :=
  let e := g.entry.toNat
  s.gpaToHost p (if g.sub then field e 29 11 * 2^29 + g.va % 2^29 else field e 16 24 * 2^16)

/-- A page of a spore of partition p that stands at a host address, through whichever virtual address it is captured (R330). -/
def State.standsAt (s : State) (p a : Nat) (g : HeldPage) : Bool := s.leafHost p g == some (a / 65536 * 65536)

/-- R373 to R375: the 64 KiB page at a host address waits for its copy by a spore of partition p. -/
def State.pageHeld (s : State) (p a : Nat) : Bool := (s.part p).spore.pages.any (fun g => !g.copied && s.standsAt p a g)

/-- What an access of the executing thread comes to: a trap, a wait, the key of its first byte, or that key for a write to a held
page, which waits for the page's copy once the word's own causes have passed (R150, R374). -/
inductive Reached where
  | trap (t : Trap)
  | waits (w : Wait) (s : State)
  | found (a : Nat) (space : Space) (s : State)
  | missed (a : Nat) (space : Space) (s : State)

/-- R328: in host-assisted page-walk mode a walk needs the monitor's answer. Every walk asks for it (log entry 19). -/
def State.walkWaits (s : State) (va : Word) : Bool :=
  s.modes.getLsbD 0 && !s.me.permits.contains (va &&& 0xFFFFFFFFFFFF0000)

/-- R328, R395: a walk request for the monitor. -/
def State.askWalk (s : State) (va : Word) (k : Access) : State :=
  s.post 0 ⟨3, s.partOf s.cur, 0, va, [va, word k.sub.toNat, s.who s.cur 0]⟩

/-- R137 step 6 for an access of the executing thread whose address has passed steps 3 to 5: translation for a home
address, the rank table for a rank-space one. -/
def State.reachSpace (s : State) (u : Use) (va : Word) : Reached :=
  let p := s.partOf s.cur
  match classify va with
  | .spad off => .found (spadKey s.here off) (.spad off) s
  | .slot off => .found off (.slot off) s
  | .rank r off =>
    let e := s.rankEntry p r
    (match e.core? with
     | none => .trap (Trap.plain .access va 0)
     | some c =>
       if e.holds && s.holdFull p r s.here then .waits (.inTransit r) s else .found (spadKey c off) (.rank r off) s)
  | .home d =>
    if s.walkWaits va then .waits (.walk va) (s.askWalk va u.kind)
    else
      (match s.walk p va u.kind s.me.supervisor d with
       | .error t => .trap t
       | .ok wk =>
         if u.kind.writes ∧ s.pageHeld p wk.a then .missed wk.a (.home d) s
         else .found wk.a (.home d) (if u.kind.writes then s.touch wk else s))
  | .refused => .trap (Trap.plain .access va 0)

/-- R137 steps 3 to 6 for an access of the executing thread. -/
def State.reach (s : State) (u : Use) (va : Word) (size : Nat) : Reached :=
  match checkAddress u (dieOf s.here) va size with
  | some t => .trap t
  | none => s.reachSpace u va

/-- R75, R149, R337: the host address of an instruction fetch. -/
def State.fetchAddress (s : State) (t : Nat) (va : Word) : Except Trap Nat :=
  match classify va with
  | .home d =>
    if d = 9 then .error (Trap.plain .access va 0)
    else match s.walk (s.partOf t) va .fetch (s.thread t).supervisor d with
      | .error tr => .error tr
      | .ok w => if s.poisoned w.a 8 then .error (Trap.plain .ue va 0) else .ok w.a
  | _ => .error (Trap.plain .access va 0)

/-! The pages of the die dispatchers (R309, R340). -/

/-- The dispatcher page that holds a host address: partition, die, whether it is the fault queue, offset. -/
structure PageHit where
  part : Nat
  die : Nat
  faults : Bool
  off : Nat
  deriving DecidableEq, Repr

/-- The page of a partition's placement that holds host address a. -/
def State.pageOf (s : State) (a p d : Nat) (pg : DiePages) : Option PageHit :=
  if s.gpaToHost p pg.sched = some (a / 4096 * 4096) then some ⟨p, d, false, a % 4096⟩
  else if s.gpaToHost p pg.faults = some (a / 4096 * 4096) then some ⟨p, d, true, a % 4096⟩
  else none

/-- The dispatcher page, if any, that holds host address a. -/
def State.pageAt (s : State) (a : Nat) : Option PageHit :=
  s.parts.findSome? (fun e => e.2.pages.findSome? (fun g => s.pageOf a e.1 g.1 g.2))

/-- The partition holds the tags of its cores now (R309, R310). -/
def State.running (s : State) (p : Nat) : Bool := (s.part p).cores.any (fun c => s.tagOf c == p)

/-- R309: the doubleword at offset off of partition p's scheduling page on die d. -/
def State.schedWord (s : State) (p d off : Nat) : Word :=
  let q := s.part p
  if off = 0x00 then word q.slice
  else if off = 0x08 then word (2 * q.slice + 10000)
  else if off = 0x10 then word q.debt
  else if off = 0x18 then word (bit q.next.isSome + 2 * bit (s.running p))
  else if off = 0x20 then word (q.refill + 2^32 * Sparse.get q.budget d 0)
  else if off = 0x28 then (match Sparse.find? q.occupancy d with | some n => word n | none => Config.freeValue s.freeCount)
  else if 0x100 ≤ off ∧ off < 0x500 then
    word (bit (Sparse.find? q.regions (d * 128 + (off - 0x100) / 8)).isSome)
  else 0

/-- R340: the doubleword at offset off of partition p's fault-queue page on die d. The record of a slot that is no longer
pending reads 0: R340 clears only its PENDING bit and does not say what the record reads then (DESIGN CHOICE, log entry 91). -/
def State.faultWord (s : State) (p d off : Nat) : Word :=
  let q := s.part p
  if off = 0x00 then (match Sparse.find? q.pages d with | some g => g.service | none => 0)
  else if off = 0x10 then word ((List.range 63).foldl (fun a i => a + bit (Sparse.find? q.slots (d * 64 + i)).isSome * 2^i) 0)
  else if 0x40 ≤ off then
    (match Sparse.find? q.slots (d * 64 + (off - 0x40) / 64) with
     | some r =>
       (match (off - 0x40) % 64 / 8 with
        | 0 => r.tcause | 1 => r.tval | 2 => r.tval2 | 3 => r.tepc | 4 => r.info | 5 => r.time | _ => 0)
     | none => 0)
  else 0

/-- The value that a load of n bytes finds at host address or scratchpad key a: a dispatcher page's field, or memory. -/
def State.loadValue (s : State) (a n : Nat) : Nat :=
  match s.pageAt a with
  | none => s.readAt a n
  | some h =>
    let w := if h.faults then s.faultWord h.part h.die (h.off / 8 * 8) else s.schedWord h.part h.die (h.off / 8 * 8)
    w.toNat / 256^(h.off % 8) % 256^n

end Sys2Proof.Machine
end

