-- ==== Sys2Proof/Machine/Sha.lean ====
section
/-!
DEFINITION. SHA-256 over bytes, which R381, R382, R384 and R387 name (FIPS 180-4; the spec names the function and does not
write it out: log entry 20). The constants are computed from the primes, as the standard defines them.
-/
namespace Sys2Proof.Machine.Sha

/-- The first 64 primes: those below 312. -/
def primes : List Nat :=
  (List.range 312).filter (fun n => decide (2 ≤ n) && (List.range 18).all (fun d => decide (d < 2 ∨ n ≤ d ∨ n % d ≠ 0)))

/-- The largest r below 2^n with r^k at most v, its bits tried from the highest down. -/
def rootBits (k v : Nat) : Nat → Nat → Nat
  | 0, r => r
  | n + 1, r => rootBits k v n (if (r + 2^n)^k ≤ v then r + 2^n else r)

/-- The first 32 bits of the fraction of the k-th root of p, for roots below 32. -/
def rootFraction (k p : Nat) : BitVec 32 := BitVec.ofNat 32 (rootBits k (p * 2^(32 * k)) 37 0)

/-- Where the chain begins: the square roots of the first eight primes. -/
def start : List (BitVec 32) := (primes.take 8).map (rootFraction 2)

/-- What the 64 rounds add: the cube roots of the primes. -/
def additions : List (BitVec 32) := primes.map (rootFraction 3)

/-- The sum modulo 2 of a word turned right by each of two amounts and of a third word. -/
def turned (x : BitVec 32) (m n : Nat) (y : BitVec 32) : BitVec 32 := x.rotateRight m ^^^ x.rotateRight n ^^^ y

/-- A word of eight. -/
def at' (x : List (BitVec 32)) (i : Nat) : BitVec 32 := x.getD i 0

/-- The schedule, newest word first, one word longer. -/
def grow (ws : List (BitVec 32)) : List (BitVec 32) :=
  let early := at' ws 14
  let late := at' ws 1
  (turned late 17 19 (late >>> 10) + at' ws 6 + turned early 7 18 (early >>> 3) + at' ws 15) :: ws

/-- A step repeated n times. -/
def again {α : Type} (f : α → α) : Nat → α → α
  | 0, x => x
  | n + 1, x => again f n (f x)

/-- One round on the eight words x, with the sum of its constant and its schedule word. -/
def mix (x : List (BitVec 32)) (kw : BitVec 32) : List (BitVec 32) :=
  let e := at' x 4
  let a := at' x 0
  let picked := (e &&& (at' x 5 ^^^ at' x 6)) ^^^ at' x 6
  let common := (a &&& (at' x 1 ||| at' x 2)) ||| (at' x 1 &&& at' x 2)
  let t := kw + picked + turned e 6 11 (e.rotateRight 25) + at' x 7
  match x.take 7 with
  | [p, q, r, d, u, v, w] => [t + common + turned a 2 13 (a.rotateRight 22), p, q, r, d + t, u, v, w]
  | _ => x

/-- The bytes of a value, highest first. -/
def highFirst (v n : Nat) : List Byte := (leBytes v n).reverse

/-- The n words of a block, last word first. -/
def wordsOf (bs : List Byte) (n : Nat) : List (BitVec 32) :=
  (List.range n).foldl (fun ws i => BitVec.ofNat 32 (leValue ((bs.drop (4 * i)).take 4).reverse) :: ws) []

/-- A block of 64 bytes is absorbed. -/
def absorb (x : List (BitVec 32)) (block : List Byte) : List (BitVec 32) :=
  let schedule := (again grow 48 (wordsOf block 16)).reverse
  List.zipWith (· + ·) x ((List.zipWith (· + ·) additions schedule).foldl mix x)

/-- A message with its mark, zeros and bit length, in whole blocks. -/
def padded (bs : List Byte) : List Byte :=
  bs ++ [0x80] ++ List.replicate ((119 - bs.length % 64) % 64) 0 ++ highFirst (8 * bs.length) 8

/-- SHA-256: 32 bytes. -/
def sha256 (bs : List Byte) : List Byte :=
  let m := padded bs
  ((List.range (m.length / 64)).foldl (fun x i => absorb x ((m.drop (64 * i)).take 64)) start).flatMap
    (fun w => highFirst w.toNat 4)

end Sys2Proof.Machine.Sha
end

