-- ==== Sys2Proof/Machine/Spore.lean ====
section
/-!
DEFINITION. Held pages, the manifest, and the end of a spore (R366 to R386), with the device's own writes through a
partition's translation.
-/
namespace Sys2Proof.Machine

/-- The device's walk of a home address of partition p (R329, R337), with the supervisor's view. -/
def State.walkDevice (s : State) (p : Nat) (va : Word) (k : Access) : Option Walked :=
  match classify va with
  | .home d => (match s.walk p va k true d with | .ok w => some w | .error _ => none)
  | _ => none

/-- Writes bytes from a virtual address on, page by page, through the translation of partition p; none where a page does
not take the write. -/
def State.areaWrite (s : State) (p : Nat) (va : Word) (bs : List Byte) : Nat → Option State
  | 0 => if bs.isEmpty then some s else none
  | n + 1 =>
    if bs.isEmpty then some s
    else match s.walkDevice p va .store with
      | none => none
      | some w =>
        let k := min bs.length (65536 - va.toNat % 65536)
        ((s.touch w).writeGlobal w.a (bs.take k)).areaWrite p (va + word k) (bs.drop k) n

/-- `areaWrite` over all the pages the bytes can meet. -/
def State.areaPut (s : State) (p : Nat) (va : Word) (bs : List Byte) : Option State :=
  s.areaWrite p va bs (bs.length / 65536 + 2)

/-- The state with partition p's spore changed. -/
def State.modSpore (s : State) (p : Nat) (f : Spore → Spore) : State := s.modPart p (fun q => { q with spore := f q.spore })

/-- A leaf's SP and T bits set in place (R334, R374). -/
def State.setLeaf (s : State) (leaf sp : Nat) (t : Option Bool) : State :=
  let e := s.readAt leaf 8
  let e := e - field e 7 2 * 2^7 + sp * 2^7
  let e := match t with
    | none => e
    | some b => e - field e 9 1 * 2^9 + bit b * 2^9
  s.writeBytesAt leaf (leBytes e 8)

/-- The leaves of held pages that writes do not refuse, each once. -/
def heldLeaves (pages : List HeldPage) : List Nat :=
  ((pages.filter (fun g => !g.refused)).map (·.leaf)).eraseDups

/-- R374: the leaves of a spore's pages return to NORMAL; after a failure T is set again. -/
def State.releaseLeaves (s : State) (t : Option Bool) : List Nat → State
  | [] => s
  | l :: ls => (s.setLeaf l 0 t).releaseLeaves t ls

/-- The status word of R386. -/
def Spore.statusWord (sp : Spore) (status : Nat) : Word := word (sp.epoch + status * 2^32 + sp.fail * 2^40)

/-- R381: the counts and lengths of the four record arrays. -/
structure Arrays where
  pages : List Byte
  logs : List Byte
  cores : List Byte
  weirs : List Byte

/-- Rounds up to a multiple of 64 (R381). -/
def up64 (n : Nat) : Nat := (n + 63) / 64 * 64

/-- R381: the offsets of the four arrays from the manifest's start. -/
def Arrays.offsets (a : Arrays) : Nat × Nat × Nat × Nat :=
  let o1 := 256
  let o2 := up64 (o1 + a.pages.length)
  let o3 := up64 (o2 + a.logs.length)
  let o4 := up64 (o3 + a.cores.length)
  (o1, o2, o3, o4)

/-- R382: a page record. -/
def pageRecord (g : HeldPage) : List Byte :=
  let e := g.entry.toNat
  let e := e - field e 7 2 * 2^7 - field e 9 1 * 2^9
  leBytes g.va 8 ++ leBytes e 8 ++ leBytes (if g.zero then 0 else g.saved) 8
    ++ leBytes (bit g.sub + 2 * bit g.zero) 4 ++ leBytes 0 4 ++ g.digest

/-- R383: a channel-log record. -/
def logRecord (l : LogRecord) : List Byte :=
  leBytes l.receiver 2 ++ leBytes (bit l.wake) 1 ++ leBytes l.channel 1 ++ leBytes l.pkg 1 ++ leBytes 0 3
    ++ leBytes l.seq 8 ++ (l.entry ++ List.replicate 64 0).take 64 ++ List.replicate 16 0

/-- R384: a core-state record. -/
def coreRecord (b : Nat × Nat × List Byte × BitVec 4) : List Byte :=
  leBytes b.1 2 ++ leBytes b.2.2.2.toNat 1 ++ leBytes 0 5 ++ leBytes b.2.1 8 ++ leBytes 0x143200 8 ++ leBytes 0 8
    ++ b.2.2.1

/-- Inserts into a list in rising order of a key. -/
def insertBy {α : Type} (key : α → Nat) (x : α) : List α → List α
  | [] => [x]
  | y :: ys => if key x ≤ key y then x :: y :: ys else y :: insertBy key x ys

/-- Sorts a list by a key. -/
def sortBy {α : Type} (key : α → Nat) (xs : List α) : List α := xs.foldr (insertBy key) []

/-- R381 to R384: the four arrays of a spore. -/
def Spore.arrays (sp : Spore) : Arrays where
  pages := (sortBy (·.va) sp.pages).flatMap pageRecord
  logs := (sortBy (fun l => l.receiver * 2^32 + l.seq) sp.log).flatMap logRecord
  cores := (sortBy (·.1) sp.blocks).flatMap coreRecord
  weirs := sp.weirRecords.flatten

/-- R381: the 256-byte header with a status. -/
def Spore.header (sp : Spore) (tag record status : Nat) : List Byte :=
  let a := sp.arrays
  let (o1, o2, o3, o4) := a.offsets
  leBytes (0x53504D46 + 2^32 + status * 2^48 + sp.fail * 2^56) 8 ++ leBytes sp.epoch 4 ++ leBytes sp.parent 4
    ++ leBytes (if sp.parent = 0 then 0 else sp.lastManifest) 8 ++ leBytes sp.job 2 ++ leBytes sp.pkg 1 ++ leBytes tag 1
    ++ leBytes sp.cutGen 4 ++ leBytes sp.cutTime 8
    ++ leBytes sp.pages.length 4 ++ leBytes sp.log.length 4 ++ leBytes sp.blocks.length 4 ++ leBytes sp.weirRecords.length 4
    ++ leBytes o1 4 ++ leBytes o2 4 ++ leBytes o3 4 ++ leBytes o4 4
    ++ leBytes sp.nextIndex 8 ++ leBytes sp.halted 8 ++ leBytes sp.used 8
    ++ Sha.sha256 (a.pages ++ a.logs ++ a.cores ++ a.weirs) ++ leBytes record 8 ++ List.replicate 120 0

/-- Pads an array up to an offset. -/
def padTo (bs : List Byte) (n : Nat) : List Byte := bs ++ List.replicate (n - bs.length) 0

/-- R381: the whole manifest: header, arrays. -/
def Spore.manifestBytes (sp : Spore) (tag record status : Nat) : List Byte :=
  let a := sp.arrays
  let (_, o2, o3, o4) := a.offsets
  padTo (padTo (padTo (sp.header tag record status ++ a.pages) o2 ++ a.logs) o3 ++ a.cores) o4 ++ a.weirs

/-- R386: posts the end of a spore to function 0 and the partition's function. -/
def State.postSpore (s : State) (p status : Nat) : State :=
  let sp := (s.part p).spore
  let pay := [sp.statusWord status, sp.manifest]
  (s.post 0 ⟨6, p, 0, sp.statusWord status, pay⟩).post (1 + p) ⟨6, p, 0, sp.statusWord status, pay⟩

/-- R386: the status word is written, where its page takes the write. -/
def State.writeStatus (s : State) (p status : Nat) : State :=
  let sp := (s.part p).spore
  if sp.statusAddr = 0 then s else (s.areaPut p sp.statusAddr (leBytes (sp.statusWord status).toNat 8)).getD s

/-- R386: the header takes its final status, which the manifest area may refuse (R385), and the status word is written; in
host-assisted manifest writing the monitor writes both; once the manifest has been begun its mode stands (R328). -/
def State.finishManifest (s : State) (p status : Nat) : Option State :=
  let sp := (s.part p).spore
  if sp.byHost then some s
  else (s.areaPut p sp.manifest (sp.header p sp.record status)).map (fun s => s.writeStatus p status)

/-- R369, R374, R385, R386: a spore fails: leaves return to NORMAL with T set, the header takes status 2, the status word
is written and the events are posted. -/
def State.failSpore (s : State) (p code : Nat) : State :=
  let s := s.releaseLeaves (some true) (heldLeaves (s.part p).spore.pages)
  let s := s.modSpore p (fun sp =>
    { sp with state := .failed, fail := code, byHost := if sp.state = .sealing then sp.byHost else s.modes.getLsbD 5 })
  let s := (s.finishManifest p 2).getD (s.writeStatus p 2)
  let s := s.postSpore p 2
  s.modSpore p (fun sp => { sp with pages := [], snaps := [], capturing := [], ready := false })

/-- A spore of the partition is ARMED, CAPTURE or SEALING (R365, R367). -/
def Spore.busy (sp : Spore) : Bool :=
  match sp.state with
  | .armed | .capture | .sealing => true
  | .idle | .committed | .failed => false

/-- Takes n bytes of the image area, aligned on 256 (R381); the placement is the next free bytes (log entry 15). -/
def Spore.place (sp : Spore) (n : Nat) : Option (Nat × Spore) :=
  let at' := (sp.used + 255) / 256 * 256
  if at' + n ≤ sp.imageLen.toNat then some (sp.image.toNat + at', { sp with used := at' + n }) else none

/-- R373, R374: the Basin copies a held page into the image area and marks it COPIED; the leaf's SP becomes 10 when all of
its pages are. A page that is all zero gets no copy (R382; log entry 15). -/
def State.copyHeld (s : State) (p va : Nat) : State :=
  let sp := (s.part p).spore
  match sp.pages.find? (fun g => g.va == va) with
  | none => s
  | some g =>
    if g.copied then s
    else
      let e := g.entry.toNat
      let gd := if g.sub then field e 29 11 * 2^29 + va % 2^29 else field e 16 24 * 2^16
      let e2 := (Sparse.get (s.part p).s2 (gd / 2^21) 0).toNat
      let a := s2address e2 gd
      if field e2 0 1 = 0 ∨ field e2 1 1 = 0 ∨ s.frameAt a ≠ .assigned p then s.failSpore p 8
      else if s.poisoned a 65536 then s.failSpore p 3
      else
        let bs := Memory.readBytes s.mem a 65536
        let zero := bs.all (· == 0)
        let placed := if zero then some (0, sp) else sp.place 65536
        match placed with
        | none => s.failSpore p 2
        | some (saved, sp') =>
          let pages := sp'.pages.map (fun h => if h.va == va then
            { h with copied := true, saved := saved, zero := zero, digest := Sha.sha256 bs } else h)
          let s := s.modSpore p (fun _ => { sp' with pages := pages })
          let s' := if zero then some s else s.areaPut p (word saved) bs
          match s' with
          | none => s.failSpore p 2
          | some s =>
            if g.refused || (pages.filter (fun h => h.leaf == g.leaf)).any (fun h => !h.copied) then s
            else s.setLeaf g.leaf 2 none

/-- R373, R374: copies the pages of a list that stand at a host address, as captured through each virtual address (R330). -/
def State.copyAt (s : State) (p a : Nat) : List HeldPage → State
  | [] => s
  | g :: gs => (if s.standsAt p a g then s.copyHeld p g.va else s).copyAt p a gs

/-- R373: before bytes at a host address change, what partition p's spore captures of their page is copied. -/
def State.imagePage (s : State) (p a : Nat) : State := s.copyAt p a (s.part p).spore.pages

/-- The same for every partition. -/
def State.imageAny (s : State) (a : Nat) : State := (Sparse.keys s.parts).foldl (fun s p => s.imagePage p a) s

/-- R374, R334: a write of partition p at a virtual address is performed at a host address: the held page is copied first, and T
is set in a leaf from which a cut has cleared it since the write was checked. -/
def State.firstWrite (s : State) (p : Nat) (va : Word) (a : Nat) : State :=
  ((s.part p).spore.pages.filter (fun g => g.va == va.toNat / 65536 * 65536 && !g.refused)).foldl
    (fun s g => s.writeBytesAt g.leaf (leBytes (s.readAt g.leaf 8 ||| 2^9) 8)) (s.imagePage p a)

/-- R374: copies the held pages that a write of the device meets, page by page. -/
def State.imageRange (s : State) (p : Nat) (va : Word) (n : Nat) : Nat → State
  | 0 => s
  | fuel + 1 =>
    let k := 65536 - va.toNat % 65536
    let s := match s.walkDevice p va .store with
      | some w => s.imagePage p w.a
      | none => s
    if n ≤ k then s else s.imageRange p (va + word k) (n - k) fuel

/-- A write of the device itself through partition p's translation: held pages are copied first (R374), T is set, and
the bytes commit at the Basin. A page that does not take the write is left (log entry 21). -/
def State.deviceWrite (s : State) (p : Nat) (va : Word) (bs : List Byte) : State :=
  let s := s.imageRange p va bs.length (bs.length / 65536 + 2)
  (s.areaPut p va bs).getD s

/-- The indexes of the valid entries of the table page at host address h, by its listed bytes. -/
def State.tableIndices (s : State) (h : Nat) : List Nat :=
  ((Memory.slice s.mem h 65536).filter (fun c => c.1 % 8 == 0 && c.2.getLsbD 0)).map (fun c => (c.1 - h) / 8)

/-- The host address of a table page, when its second stage and its frame allow reading it (R337). -/
def State.tableHost (s : State) (p gpa : Nat) : Option Nat :=
  let e2 := (Sparse.get (s.part p).s2 (gpa / 2^21) 0).toNat
  let h := s2address e2 gpa
  if field e2 0 1 = 1 ∧ field e2 1 1 = 1 ∧ isHbm h ∧ s.frameAt h = .assigned p then some h else none

/-- The pages of the leaves of one middle-level table (R331, R375): a leaf's record, or one per sub-page. -/
def State.midPages (s : State) (p hi h : Nat) (i : Nat) : List HeldPage :=
  let e := s.readAt (h + 8 * i) 8
  let va := hi + i * 2^29
  if !entryOk 1 e then []
  else if field e 1 1 = 1 then
    (List.range 8192).map (fun k => ⟨va + k * 65536, h + 8 * i, word e, true, false, 0, false, [], field e 7 2 == 3⟩)
  else match s.tableHost p (field e 16 24 * 2^16) with
    | none => []
    | some h2 => (s.tableIndices h2).filterMap (fun j =>
        let l := s.readAt (h2 + 8 * j) 8
        if entryOk 2 l then some ⟨va + j * 65536, h2 + 8 * j, word l, false, false, 0, false, [], field l 7 2 == 3⟩
        else none)

/-- R373: every page of a valid first-stage leaf of partition p. -/
def State.allPages (s : State) (p : Nat) : List HeldPage :=
  match s.tableHost p ((s.part p).s1root.getD 0) with
  | none => []
  | some h0 => (s.tableIndices h0).flatMap (fun i =>
      let e := s.readAt (h0 + 8 * i) 8
      if !entryOk 0 e then []
      else match s.tableHost p (field e 16 24 * 2^16) with
        | none => []
        | some h1 => (s.tableIndices h1).flatMap (s.midPages p (i * 2^42) h1))

/-- The bytes that the leaf of a page maps: 512 MiB or 64 KiB (R332). -/
def HeldPage.span (g : HeldPage) : Nat := if g.sub then 2^29 else 65536

/-- R373: the leaf of a page maps no byte of an area. -/
def HeldPage.clearOf (g : HeldPage) (a n : Word) : Bool := !overlaps (g.va / g.span * g.span) g.span a.toNat n.toNat

/-- R373: the pages a spore captures: leaves in home windows 0-7 that map no byte of its areas, in an incremental spore those
with T set. -/
def State.capturedPages (s : State) (p : Nat) (sp : Spore) : List HeldPage :=
  (s.allPages p).filter (fun g =>
    decide (g.va < 2^54) && g.clearOf sp.manifest sp.manifestLen && g.clearOf sp.image sp.imageLen
      && (sp.parent == 0 || g.entry.getLsbD 9))

/-- R373: the walker sets SP to HELD and clears T in the leaves of captured pages. -/
def State.holdLeaves (s : State) : List Nat → State
  | [] => s
  | l :: ls => (s.setLeaf l 1 (some false)).holdLeaves ls

end Sys2Proof.Machine
end

