-- ==== Sys2Proof/Machine/Launch.lean ====
section
/-!
DEFINITION. Launches: the record's fields (R42), starting a thread (R43, R399), handing out indices (R45), and completion
(R47).
-/
namespace Sys2Proof.Machine

/-- The state with launch l set. -/
def State.setLaunch (s : State) (v : Launch) : State := { s with launches := Sparse.set s.launches v.id v }

/-- Doubleword k of a launch's record (R42). -/
def Launch.word (l : Launch) (k : Nat) : Nat := (l.words.getD k 0).toNat

/-- Threads per core (R42 bits 8:7 plus 1). -/
def Launch.threadsPerCore (l : Launch) : Nat := field (l.word 0) 7 2 + 1

/-- The step domain, if the record names one (R42 bits 15:11). -/
def Launch.stepDomain (l : Launch) : Option Nat :=
  if field (l.word 0) 11 5 = 0 then none else some (field (l.word 0) 11 5 - 1)

/-- The index count (R42). -/
def Launch.count (l : Launch) : Nat := l.word 4

/-- The core mask of die d (R42). -/
def Launch.mask (l : Launch) (d : Nat) : Nat := l.word (8 + 2 * d) + 2^64 * l.word (9 + 2 * d)

/-- The cores that the mask names on die d, in ascending order. -/
def Launch.coresOn (l : Launch) (d : Nat) : List Nat :=
  ((List.range 128).filter (fun i => (l.mask d).testBit i)).map (· + 128 * d)

/-- The threads that the launch uses on die d, in ascending core and thread order (R43, R299). -/
def Launch.threadsOn (l : Launch) (d : Nat) : List Nat :=
  (l.coresOn d).flatMap (fun c => (List.range l.threadsPerCore).map (· + 4 * c))

/-- The dies whose mask names a core. -/
def Launch.maskDies (l : Launch) : List Nat := (List.range 8).filter (fun d => l.mask d != 0)

/-- A thread's reservation leaves RESV and PO (R269); what R43 sets to 0 at a launch is released so that PO stays the sum
of the outstanding reservations (log entry 22). -/
def State.dropReservation (s : State) (t : Nat) : State :=
  let u := (s.thread t).resv
  (s.modPart (s.partOf t) (fun q => { q with po := q.po - u })).modThread t (fun x => { x with resv := 0, req := 0 })

/-- R278: a core's level is the largest request of its threads that count: not PARKED, not FREE (R280). -/
def State.wantedLevel (s : State) (c : Nat) : BitVec 2 :=
  ([0, 1, 2, 3] : List Nat).foldl (fun a i =>
    let x := s.thread (4 * c + i)
    let counts := match x.status with
      | .free | .parked _ => false
      | _ => true
    if counts && a.ult x.req then x.req else a) 0

/-- R278: LEVEL follows the requests; the clock switches later (R402). -/
def State.relevel (s : State) (c : Nat) : State := s.modCore c (fun k => { k with level := s.wantedLevel c })

/-- R43, R132: a thread starts READY at an entry address with a0 to a2, every other scalar register 0 and the launch values in
its CSRs. Bits 1:0 of the entry address are taken as zero (log entry 23). The suppressed commands that have retired since the
last MX.FENCE count in no fence of the new context: neither R43 nor R262 says (DESIGN CHOICE, log entry 80). -/
def Thread.started (launch : Option Nat) (index : Nat) (entry a0 a1 a2 tvec : Word) : Thread :=
  let x : Thread := { Thread.reset with
    status := .ready
    pc := wordAligned entry
    tvec := bundleOf tvec
    launch := launch
    index := index }
  ((x.setX 10 a0).setX 11 a1).setX 12 a2

/-- R153, R351: what a hardware thread keeps when its context ends or another begins: the stores and PUTRs that are not
performed yet go on, with the lines that it has written, and only a supervisor's write clears SIGSTAT.MIS. -/
def Thread.keeps (new old : Thread) : Thread :=
  { new with sigMis := old.sigMis, buffer := old.buffer, puts := old.puts, dirty := old.dirty }

/-- A hardware thread's stores and PUTRs that are not performed are discarded. -/
def Thread.unwritten (x : Thread) : Thread := { x with buffer := [], puts := [], dirty := [] }

/-- R43: thread t starts. Its request numbers begin at 0 again, so the agents' replay windows of the thread are emptied (log
entry 25). -/
def State.startThread (s : State) (t : Nat) (launch : Option Nat) (index : Nat) (entry a0 a1 a2 tvec : Word) : State :=
  let s := s.dropReservation t
  let s := { s with windows := s.windows.filter (fun e => e.thread != t) }
  (s.modThread t (Thread.started launch index entry a0 a1 a2 tvec).keeps).relevel (coreOf t)

/-- A thread becomes FREE and holds no context (R19, R43). -/
def State.freeThread (s : State) (t : Nat) : State :=
  let s := s.dropReservation t
  (s.modThread t (fun x => ({ Thread.reset with regs := x.regs, pc := x.pc } : Thread).keeps x)).relevel (coreOf t)

/-- R43, R315: a thread of launch l starts with index i, where it lives. -/
def State.startIndex (s : State) (l : Launch) (t i : Nat) : State :=
  let tv := (s.part l.part).trapVector
  if s.away l.part (coreOf t) then
    let u := (s.threadFor l.part t).resv
    let s := s.modPart l.part (fun q => { q with po := q.po - u })
    { s with windows := s.windows.filter (fun e => e.thread != t) }.modThreadFor l.part t
      (Thread.started (some l.id) i (word (l.word 1)) (word i) (word (l.word 3)) (word (l.word 4)) tv).keeps
  else s.startThread t (some l.id) i (word (l.word 1)) (word i) (word (l.word 3)) (word (l.word 4)) tv

/-- R45: the leader's next index, from its block of 64 or from a fresh one; none when all are handed out. One request is
answered with one index (log entry 12). -/
def Launch.takeIndex (l : Launch) : Option (Nat × Launch) :=
  if l.block.1 < l.block.2 then some (l.block.1, { l with block := (l.block.1 + 1, l.block.2) })
  else if l.counter < l.count then
    let hi := min (l.counter + 64) l.count
    some (l.counter, { l with block := (l.counter + 1, hi), counter := hi })
  else none

/-- An index before the runs that follow it: it lengthens the first one, or begins one of its own (R47). -/
def beforeRuns (i : Nat) (runs : List (Nat × Nat)) : List (Nat × Nat) :=
  if runs.head?.any (fun h => h.1 == i + 1) then (i, (runs.headD (0, 0)).2 + 1) :: runs.tail else (i, 1) :: runs

/-- The consecutive runs of a rising list of abandoned indices, as (first, count) (R47). -/
def runsOf (is : List Nat) : List (Nat × Nat) := is.foldr beforeRuns []

/-- R47: the 64-byte completion record. -/
def completionRecord (status halted : Nat) (abandoned : List Nat) : List Byte :=
  let runs := runsOf (sortBy id abandoned)
  let listed := runs.take 6
  (leBytes status 4 ++ leBytes listed.length 2 ++ leBytes (bit (decide (6 < runs.length))) 2 ++ leBytes halted 8
    ++ listed.flatMap (fun (r : Nat × Nat) => leBytes r.1 4 ++ leBytes r.2 4) ++ List.replicate 48 0).take 64

/-- R233, R300, R181: the stream bindings and flumes that a launch made end with it, without pops or produces. -/
def Core.endLaunch (k : Core) (l : Nat) : Core :=
  { k with
    binds := k.binds.map (fun b => match b with
      | some x => if x.launch = some l then none else some x
      | none => none)
    flumes := k.flumes.map (fun f => if f.launch = some l then Flume.reset else f) }

/-- Ends a launch's hold on every listed core, and in the saved contexts (R315). -/
def State.endOnCores (s : State) (l : Nat) : State :=
  { s with
    cores := Sparse.mapValues s.cores (fun _ k => k.endLaunch l)
    saved := s.saved.map (fun v => { v with snapshot := { v.snapshot with state := v.snapshot.state.endLaunch l } }) }

/-- R19, R43: frees a list of threads. -/
def State.freeThreads (s : State) : List Nat → State
  | [] => s
  | t :: ts => (s.freeThread t).freeThreads ts

/-- R19, R315: thread t of partition p becomes FREE, where it lives. -/
def State.freeFor (s : State) (p t : Nat) : State :=
  if s.away p (coreOf t) then
    let u := (s.threadFor p t).resv
    (s.modPart p (fun q => { q with po := q.po - u })).modThreadFor p t (fun x => ({ Thread.reset with regs := x.regs, pc := x.pc } : Thread).keeps x)
  else s.freeThread t

/-- R47: those threads of a list that run for launch l become FREE. -/
def State.freeMembers (s : State) (l : Launch) : List Nat → State
  | [] => s
  | t :: ts => (if (s.threadFor l.part t).launch = some l.id then s.freeFor l.part t else s).freeMembers l ts

/-- R42 bit 1: the armed bit of a pool record. -/
def State.setArmed (s : State) (p rec : Nat) (b : Bool) : State :=
  s.modPart p (fun q =>
    let w := (Sparse.get q.pool (32 * rec) 0).toNat
    { q with pool := Sparse.set q.pool (32 * rec) (word (w - field w 1 1 * 2 + bit b * 2)) })

/-- R372: the launch's completion waits for the capture of its cores. -/
def State.captureHolds (s : State) (l : Launch) : Bool :=
  let sp := (s.part l.part).spore
  sp.launch == some l.id && !sp.capturing.isEmpty && sp.state == .capture

/-- R47, R297, R385: the launch completes with a status: the completion record is written, what it made on its cores ends,
its threads become FREE, the armed bit clears; a spore that is ARMED fails with ENDED. -/
def State.completeLaunch (s : State) (l : Launch) (status : Nat) : State :=
  let s := if (s.part l.part).spore.state == .armed && (s.part l.part).spore.launch == some l.id
    then s.failSpore l.part 7 else s
  let s := s.deviceWrite l.part (word (l.word 7)) (completionRecord status l.halted l.abandoned)
  let s := s.endOnCores l.id
  let s := s.freeMembers l l.members
  let s := s.setArmed l.part l.record false
  { s with launches := Sparse.erase s.launches l.id }

/-- R47, R153: a store of one of the launch's threads, a lost one's among them, is not performed at PKG yet: it stands in the
store buffer or the NI, or its dirty notice is under way. The completion record is a release at PKG of them all. -/
def State.storesOut (s : State) (l : Launch) : Bool :=
  s.notices.any (fun n => !n.engine && (l.members ++ l.lost).contains n.thread) || l.members.any (fun t => !s.away l.part (coreOf t) && s.writesBusy t)

/-- R47, R372: the status with which the launch can complete now: it has ended, or every index has halted or been abandoned;
no capture holds it and its stores are performed. -/
def State.completes (s : State) (l : Launch) : Option Nat :=
  if s.captureHolds l || s.storesOut l then none
  else if l.ending.isSome then l.ending
  else if l.closed && l.halted + l.abandoned.length == l.count then some (if l.abandoned.isEmpty then 0 else 1)
  else none

/-- R43, R47: completes the launch when it can. -/
def State.settleLaunch (s : State) (id : Nat) : State :=
  match Sparse.find? s.launches id with
  | none => s
  | some l =>
    match s.completes l with
    | some status => s.completeLaunch l status
    | none => s

/-- R47, R299: a launch that can complete now. -/
def State.settleDue (s : State) : Option Nat :=
  (List.find? (fun (e : Nat × Launch) => (s.completes e.2).isSome) s.launches).map (·.1)

/-- R43, R300: a thread of the launch asks for the next index: it starts on it, waits HALTED while there is no leader to
hand one out, or becomes FREE when none remains. -/
def State.askIndex (s : State) (id t : Nat) : State :=
  match Sparse.find? s.launches id with
  | none => s.freeThread t
  | some l =>
    if l.closed && l.leader.isSome then
      (match l.takeIndex with
       | some (i, l') => (s.setLaunch l').startIndex l' t i
       | none => s.freeFor l.part t)
    else
      (s.setLaunch { l with waiting := l.waiting ++ [t] }).modThreadFor l.part t (fun x =>
        { x with status := .halted, launch := some id })

/-- Each thread of a list asks in turn. -/
def State.askAll (s : State) (id : Nat) : List Nat → State
  | [] => s
  | t :: ts => (s.askIndex id t).askAll id ts

/-- R44, R46: an election closes with a leader: the threads that wait get indices, in order. -/
def State.elect (s : State) (l : Launch) (leader : Nat) : State :=
  let l' := { l with closed := true, leader := some leader, postedAt := s.now, waiting := [] }
  ((s.setLaunch l').askAll l.id l.waiting).settleLaunch l.id

/-- R44: the dies of the gang that posted healthy. -/
def Launch.healthy (l : Launch) : List Nat := (l.ballots.filter (·.2)).map (·.1)

/-- R44: closes the election of a launch: the lowest healthy die leads; with a failed die and no degrade bit, or with no
healthy die, the launch completes with DIEFAIL. -/
def State.closeElection (s : State) (l : Launch) : State :=
  let posted := sortBy id l.healthy
  let failed := l.dies.any (fun d => !posted.contains d)
  match posted with
  | [] => s.completeLaunch l 2
  | d :: _ =>
    if failed && field (l.word 0) 10 1 == 0 && l.counter == 0 && l.leader.isNone then s.completeLaunch l 2
    else s.elect { l with dies := posted } d

/-- The core of a partition's lowest VALID rank (R399). -/
def State.lowestCore (s : State) (p : Nat) : Option Nat :=
  List.findSome? (fun (e : Nat × RankEntry) => match e.2 with | .valid c => some c | _ => none) (s.part p).ranks

/-- R399: the supervisor thread of a partition starts: thread 0 of its lowest-ranked core, at supervisor privilege. -/
def State.startSupervisor (s : State) (p : Nat) (entry tvec info : Word) : State :=
  match s.lowestCore p with
  | some c =>
    (s.startThread (4 * c) none 0 entry info 0 0 tvec).modThread (4 * c)
      (fun x => { x with tstat := tstatWord 0 0xFF false true false false })
  | none => s

end Sys2Proof.Machine
end

