-- ==== Sys2Proof/Machine/Meter.lean ====
section
/-!
DEFINITION. Charging a core's metered residue (R268, R281 to R284).
-/
namespace Sys2Proof.Machine

/-- R268: n units of partition p enter PF and F. -/
def State.heat (s : State) (p n : Nat) : State :=
  let k := (s.part p).k
  { s.modPart p (fun q => { q with pf := q.pf + n * 2^16 }) with fill := s.fill + n * 2^(16 - k) }

/-- R281: the threads of a core that a metered unit can be charged to: REQ equals LEVEL, and in metered mode RESV is not
0. -/
def State.chargeable (s : State) (c : Nat) (i : Nat) : Bool :=
  let x := s.thread (4 * c + i)
  let live := match x.status with
    | .free | .parked _ => false
    | _ => true
  live && x.req == (s.coreAt c).level && !(x.met && x.resv == 0)

/-- R281: the next thread number after the one charged last. -/
def State.nextCharged (s : State) (c : Nat) : Option Nat :=
  let l := (s.coreAt c).chargedLast
  (([1, 2, 3, 4] : List Nat).map (fun j => (l + j) % 4)).find? (s.chargeable c)

/-- R282: a declared thread whose metered count passes its declared one by more than its margin. -/
def State.overrun (s : State) (t : Nat) : State :=
  let x := s.thread t
  if x.mc - x.dc ≤ x.rmargin then s
  else
    let p := s.partOf t
    let e := x.mc - x.dc
    let d := min e x.resv
    let s := (s.modPart p (fun q => { q with po := q.po - d })).heat p e
    let s := s.modThread t (fun x => { x with resv := x.resv - d, dc := x.mc, req := 0 })
    (s.pend t .overrun (word e) (word x.rmargin)).relevel (coreOf t)

/-- R282: a thread in declared mode whose MC - DC exceeds its margin: a unit has been charged to it or its margin has changed. -/
def State.overrunDue (s : State) : Option Nat :=
  s.threads.findSome? (fun e => if !e.2.met && decide (e.2.rmargin < e.2.mc - e.2.dc) then some e.1 else none)

/-- R283: a unit debited from a metered thread; at 0 the thread is cut. -/
def State.debit (s : State) (t : Nat) : State :=
  let p := s.partOf t
  let s := (s.modPart p (fun q => { q with po := q.po - 1 })).heat p 1
  let s := s.modThread t (fun x => { x with resv := x.resv - 1, mc := x.mc + 1 })
  if (s.thread t).resv = 0 then
    ((s.modThread t (fun x => { x with req := 0 })).pend t .cut 0 0).relevel (coreOf t)
  else s

/-- R281 to R283: one whole unit of a core's residue is charged. -/
def State.chargeUnit (s : State) (c : Nat) : State :=
  match s.nextCharged c with
  | none => s.heat (s.tagOf c) 1
  | some i =>
    let t := 4 * c + i
    let s := s.modCore c (fun k => { k with chargedLast := i })
    if (s.thread t).met then s.debit t
    else (s.modThread t (fun x => { x with mc := x.mc + 1 })).overrun t

/-- Charges n units in turn. -/
def State.chargeUnits (s : State) (c : Nat) : Nat → State
  | 0 => s
  | n + 1 => (s.chargeUnit c).chargeUnits c n

/-- R284: a core's residue, kept with 16 fraction bits, is flushed: whole units are charged, the fraction is discarded. -/
def State.flushResidue (s : State) (c : Nat) : State :=
  let n := (s.coreAt c).residue / 2^16
  (s.modCore c (fun k => { k with residue := 0 })).chargeUnits c n

end Sys2Proof.Machine
end

