-- ==== Sys2Proof/Machine/Contain.lean ====
section
/-!
DEFINITION. Withdrawing waits (R187, R289), superstep rollback (R354), index restart and the other ends of a containment
(R352), quarantine and spares (R358, R359).
-/
namespace Sys2Proof.Machine

/-! A channel, in the core or in the saved context that holds it (R36, R319). -/

/-- A core's record with one channel changed. -/
def Core.modChannel (k : Core) (ch : Nat) (f : Channel → Channel) : Core :=
  { k with channels := Sparse.set k.channels ch (f (Sparse.get k.channels ch Channel.reset)) }

/-- The state with channel ch of core c changed (R36). -/
def State.modChannel (s : State) (c ch : Nat) (f : Channel → Channel) : State := s.modCore c (fun k => k.modChannel ch f)

/-- Channel ch of core c. -/
def State.channel (s : State) (c ch : Nat) : Channel := Sparse.get (s.coreAt c).channels ch Channel.reset

/-- The state with core c of partition p changed, where its state lives. -/
def State.modCoreFor (s : State) (p c : Nat) (f : Core → Core) : State :=
  if s.away p c then s.modSaved p c (fun v => { v with snapshot := { v.snapshot with state := f v.snapshot.state } })
  else if s.tagOf c = p then s.modCore c f
  else s

/-- Channel ch of core c as partition p holds it; none when p holds nothing there. -/
def State.channelFor (s : State) (p c ch : Nat) : Option Channel :=
  (s.coreFor p c).map (fun k => Sparse.get k.channels ch Channel.reset)

/-- The state with channel ch of core c changed, as partition p holds it. -/
def State.modChannelFor (s : State) (p c ch : Nat) (f : Channel → Channel) : State :=
  s.modCoreFor p c (fun k => k.modChannel ch f)

/-! Withdrawing what a thread waits for. -/

/-- R187: a thread's part in a channel is withdrawn: no credit, and a message that a RECV had claimed goes back to the
head of the queue. -/
def Channel.withdraw (ch : Channel) (t : Nat) : Channel :=
  { ch with
    asking := ch.asking.filter (· != .thread t)
    granted := ch.granted.filter (· != t)
    promised := ch.promised - (ch.granted.filter (· == t)).length
    waiting := ch.waiting.filter (· != t)
    claimed := ch.claimed.filter (fun e => e.1 != t)
    queue := (ch.claimed.filter (fun e => e.1 == t)).map (·.2) ++ ch.queue }

/-- R29, R187: what a withdrawn SEND has counted in a slot row counts no more. -/
def Core.uncount (k : Core) (t : Nat) : Core :=
  { k with
    rows := (k.slotHeld.filter (fun e => e.1 == t)).foldl
      (fun rows e => rows.modify e.2.1 (fun r => { r with sent := r.sent - e.2.2 })) k.rows
    slotHeld := k.slotHeld.filter (fun e => e.1 != t) }

/-- R187: a thread's part in the channels and slot rows of a core is withdrawn. -/
def Core.withdraw (k : Core) (t : Nat) : Core :=
  { k.uncount t with channels := Sparse.mapValues k.channels (fun _ ch => ch.withdraw t) }

/-- R187, R289: whatever thread t waits for in a shared queue is withdrawn: credits, messages, semaphore places, sluice
requests. A unit that a post granted first is kept (R187). -/
def State.withdraw (s : State) (t : Nat) : State :=
  { s with
    cores := Sparse.mapValues s.cores (fun _ k => k.withdraw t)
    saved := s.saved.map (fun v => if v.tag = s.partOf t then
      { v with snapshot := { v.snapshot with state := v.snapshot.state.withdraw t } } else v)
    sems := Sparse.mapValues s.sems (fun _ x => { x with waiting := x.waiting.filter (· != t) })
    sluice := s.sluice.filter (fun w => w.thread != t) }

/-- The packets of a list that stay, in the links and in the spill rings. -/
def State.keepPackets (s : State) (keep : Packet → Bool) : State :=
  { s with
    packets := s.packets.filter keep
    saved := s.saved.map (fun v => { v with ring := v.ring.filter keep }) }

/-- A request of a list carries a packet. -/
def Cargo.ofRequest (ids : List Nat) : Cargo → Bool
  | .request r => ids.contains r
  | .message _ _ | .wake _ | .put _ => false

/-- The requests of the threads of a list are no longer awaited, and their packets go. -/
def State.dropRequests (s : State) (ts : List Nat) : State :=
  let gone := (s.requests.filter (fun e => ts.contains e.2.thread)).map (·.1)
  { s.keepPackets (fun k => !k.cargo.ofRequest gone) with
    requests := s.requests.filter (fun e => !ts.contains e.2.thread) }

/-- R354, R323: a message's promised credit returns to the free ones. -/
def Channel.unpromise (ch : Channel) : Channel := { ch with promised := ch.promised - 1 }

/-- R40: the core that a rank of partition p names now. -/
def State.rankCore (s : State) (p r : Nat) : Option Nat :=
  match Sparse.get (s.part p).ranks r .invalid with
  | .valid c => some c
  | _ => none

/-- The channel of a message packet. -/
def Cargo.channel : Cargo → Option Nat
  | .message ch _ => some ch
  | .wake _ | .request _ | .put _ => none

/-- R377: the packet's sender sent it before its cut of the spore whose cut its package has made. -/
def Packet.uncut (k : Packet) (sp : Spore) : Bool := decide (k.cut < sp.cuts)

/-- R364: the packet's sender runs on this package. -/
def State.sentHere (s : State) (k : Packet) : Bool := k.pkg == (s.part k.tag).spore.pkg

/-- R39: the credit that a packet's channel has promised it is free again. -/
def State.returnCredit (s : State) (k : Packet) : State :=
  match k.cargo with
  | .message ch _ =>
    let s := s.modChannelFor k.tag k.dest ch (fun q => { q with asking := q.asking.filter (· != .packet k.id) })
    if k.credit then s.modChannelFor k.tag k.dest ch Channel.unpromise else s
  | .wake _ | .request _ | .put _ => s

/-- R354, R323: takes packets out of the links and the spill rings, with the credits their messages held. -/
def State.flush (s : State) (drop : Packet → Bool) : State :=
  (s.packets.filter drop ++ (s.saved.flatMap (·.ring)).filter drop).foldl State.returnCredit
    (s.keepPackets (fun k => !drop k))

/-! Superstep rollback. -/

/-- R380: the channel-log records of core c of partition p are put into its queues again. -/
def State.reinject (s : State) (p c : Nat) : List LogRecord → State
  | [] => s
  | r :: rs =>
    let s :=
      if (s.coreFor p c).all (fun k => r.receiver != k.rank) then s
      else if r.wake then s.modThreadFor p (4 * c + r.channel % 4) (fun x => { x with wake := true })
      else s.modChannelFor p c r.channel (fun ch =>
        { ch with queue := ch.queue ++ [⟨word (leValue (r.entry.take 8)), r.entry.drop 8, 0⟩] })
    s.reinject p c rs

/-- R290: RESV of a rolled-back thread: the smaller of the logged and the present one. -/
def Thread.keptResv (now logged : Thread) : Nat := min logged.resv now.resv

/-- R354 step 6, R290, R355, R351: a member takes its logged context; the log holds it waiting in the STEP of the boundary, which
has completed, so that it goes on after it. Pending causes, the reservoir's settings and SIGSTAT.MIS stay as they are, REQ is
the logged one while RESV is not 0, DC := MC, and the request numbers used since are repeated. -/
def Thread.rolledBack (now logged : Thread) : Thread :=
  { logged with
    status := match logged.status with
      | .blocked (.barrier _ _) _ => logged.status
      | .blocked _ _ => .ready
      | g => g
    resv := now.keptResv logged
    req := if 0 < now.keptResv logged then logged.req else 0
    dc := now.mc
    mc := now.mc
    met := now.met
    rclass := now.rclass
    rmargin := now.rmargin
    grantAge := now.grantAge
    sigMis := now.sigMis
    again := (now.reqno - logged.reqno).toNat + now.again
    pending := now.pending
    dirty := now.dirty
    permits := []
    woke := none
    buffer := []
    puts := [] }

/-- R354, R290: thread t of partition p is rolled back, where it lives; what its reservation loses returns to headroom. -/
def State.rollbackThread (s : State) (p t : Nat) (logged : Thread) : State :=
  let now := s.threadFor p t
  (s.modPart p (fun q => { q with po := q.po - (now.resv - now.keptResv logged) })).modThreadFor p t (fun x =>
    x.rolledBack logged)

/-- Rolls back the threads of a snapshot. -/
def State.rollbackThreads (s : State) (p : Nat) : List (Nat × Thread) → State
  | [] => s
  | (t, x) :: r => (s.rollbackThread p t x).rollbackThreads p r

/-- R354 steps 3 and 4: a receive queue returns to its boundary contents; its credits are those of the messages still on their way
(`flying`) and of the sends that have not used theirs. What waits for a credit or a message outside the gang goes on waiting. -/
def Channel.rolledBack (now logged : Channel) (flying : Nat) : Channel :=
  { now with queue := logged.queue, promised := now.granted.length + flying }

/-- R39: the messages of partition p on their way to channel ch of core c that hold one of its credits. -/
def State.flying (s : State) (p c ch : Nat) : Nat :=
  ((s.packets ++ s.saved.flatMap (·.ring)).filter (fun k =>
    k.tag == p && k.dest == c && k.credit && k.cargo.channel == some ch)).length

/-- R354 step 4: a core's record takes its logged state; its time, its level and its meter run on, the phase is compute with
PHASECYC 0, and every slot row's count is 0. -/
def Core.rolledBack (k logged : Core) (flying : Nat → Nat) : Core :=
  { logged with
    channels := ((List.range 32).filter (fun ch => (Sparse.keys (k.channels ++ logged.channels)).contains ch)).map (fun ch =>
      (ch, (Sparse.get k.channels ch Channel.reset).rolledBack (Sparse.get logged.channels ch Channel.reset) (flying ch)))
    cycle := k.cycle
    level := k.level
    clock := k.clock
    residue := k.residue
    chargedLast := k.chargedLast
    meterRate := k.meterRate
    issuedLast := k.issuedLast
    comm := false
    phaseStart := k.cycle
    rows := logged.rows.map (fun r => { r with sent := 0 })
    slotCur := none
    slotHeld := []
    accsWritten := [] }

/-- R354 step 4, R356: a saved core takes its logged state in its save area. -/
def Saved.rolledBack (v : Saved) (g : Snapshot) (flying : Nat → Nat) : Saved :=
  { v with
    snapshot := { v.snapshot with
      state := v.snapshot.state.rolledBack g.state flying
      cells := g.cells
      poison := v.snapshot.poison.filter (fun a => !v.blocks.contains (a / 256)) }
    blocks := [] }

/-- R354 step 4: a core of partition p takes its logged state, where its state lives. The scratchpad takes its boundary
contents, and a log block written since is no longer poisoned. -/
def State.rollbackCore (s : State) (p : Nat) (g : Snapshot) : State :=
  let lo := spadKey g.core 0
  let s :=
    if s.away p g.core then s.modSaved p g.core (fun v => v.rolledBack g (s.flying p g.core))
    else
      { s.modCore g.core (fun k => k.rolledBack g.state (s.flying p g.core)) with
        mem := Memory.restore (Memory.clear s.mem lo (2^20)) g.cells
        poison := s.poison.filter (fun a => !(spadCore a == g.core && isSpad a && s.blocks.contains (a / 256)))
        blocks := s.blocks.filter (fun b => !(decide (lo / 256 ≤ b) && decide (b < lo / 256 + 4096))) }
  let s := s.rollbackThreads p g.threads
  if s.away p g.core then s else s.relevel g.core

/-- R354: the cores of a log, in turn. -/
def State.rollbackCores (s : State) (p : Nat) : List Snapshot → State
  | [] => s
  | g :: gs => (s.rollbackCore p g).rollbackCores p gs

/-- R322, R354: the domain without the arrivals of generations that are not complete: its members' next arrival belongs to the
open one. -/
def Domain.withdrawn (d : Domain) : Domain := { d with base := d.gen, arrived := [], left := [], early := [] }

/-- R354 step 5: the domains that the launch installed lose the arrivals of their open generation; package-level ones also
at the Weir. -/
def State.clearDomains (s : State) (l : Nat) : State :=
  let bars := (s.domains.filter (fun e => e.2.launch == some l && e.2.level == 3)).map
    (fun e => ((s.part (e.2.part.getD 63)).barriers.1 + e.2.weir))
  { s with
    domains := Sparse.mapValues s.domains (fun _ d => if d.launch == some l then d.withdrawn else d)
    weirBars := Sparse.mapValues s.weirBars (fun k b => if bars.contains k then { b with arrived := 0 } else b) }

/-- Withdraws the waits of a list of threads. -/
def State.withdrawAll (s : State) : List Nat → State
  | [] => s
  | t :: ts => (s.withdraw t).withdrawAll ts

/-- Re-injects the channel logs on the cores of a gang (R380). -/
def State.reinjectAll (s : State) (p : Nat) (recs : List LogRecord) : List Snapshot → State
  | [] => s
  | g :: gs => (s.reinject p g.core recs).reinjectAll p recs gs

/-- The members of a launch whose cores hold them now (R315). -/
def State.membersHere (s : State) (l : Launch) : List Nat := l.members.filter (fun t => !s.away l.part (coreOf t))

/-- R355: an entry of a replay window for a request of launch l's members at the NI of one of its cores. -/
def Launch.ownEntry (l : Launch) (w : Replayed) : Bool :=
  l.members.contains w.thread && (match w.agent with
    | .ni c => (l.log.map (·.core)).contains c
    | .basin | .weir | .slice _ _ | .hostIO | .optical => false)

/-- R380: launch l's step log is the one that its spore's cut opened, and the spore is in CAPTURE. -/
def State.atCut (s : State) (l : Launch) : Bool :=
  let sp := (s.part l.part).spore
  sp.state == .capture && sp.launch == some l.id && sp.boundary

/-- R354 steps 1 to 3: what the members of launch l wait for and have under way ends. What they sent before the cut to whose
boundary they return stays under way: it is captured or logged (R378, R380). -/
def State.endSuperstep (s : State) (l : Launch) : State :=
  let here := s.membersHere l
  let cores := l.log.map (·.core)
  let puts := here.flatMap (fun t => (s.thread t).puts.map (·.id)) ++
    (s.copies.filter (fun q => q.part == l.part && l.members.contains q.thread)).flatMap (fun q => q.writes.map (·.id))
  let s := (s.withdrawAll here).dropRequests here
  let s := s.flush (fun k => k.tag == l.part && s.sentHere k && l.members.contains k.source
    && !(s.atCut l && k.uncut (s.part l.part).spore))
  { s with
    copies := s.copies.filter (fun q => !(q.part == l.part && l.members.contains q.thread))
    forwards := s.forwards.filter (fun f => !(puts.contains f.id && f.stage == .pending))
    windows := s.windows.filter (fun w => !l.ownEntry w)
    saved := s.saved.map (fun v => if v.tag = l.part then { v with windows := v.windows.filter (fun w => !l.ownEntry w) } else v)
    sfu := s.sfu.filter (fun e => !(cores.contains e.2 && !s.away l.part e.2)) }

/-- R354: superstep rollback of launch l. The channel log of its spore is put in again at the cut's boundary (R380). -/
def State.rollback (s : State) (l : Launch) : State :=
  let s := ((s.endSuperstep l).rollbackCores l.part l.log).clearDomains l.id
  let s := if s.atCut l then s.reinjectAll l.part (s.part l.part).spore.log l.log else s
  s.setLaunch { l with rollbacks := l.rollbacks + 1 }

/-! Quarantine. -/

/-- R16, R358: the four logical cores of a core's cluster. -/
def clusterOf (c : Nat) : List Nat := ([0, 1, 2, 3] : List Nat).map (· + c / 4 * 4)

/-- R359: the half of the die that a core lies in: rows 0-3 or 4-7. -/
def halfOf (c : Nat) : Nat := c / 4 % 2

/-- R306: a core's scratchpad and accumulators are zeroed and its flumes unconfigured. -/
def State.clearCore (s : State) (c : Nat) : State :=
  let lo := spadKey c 0
  let s := s.modCore c (fun k => { k with accs := [], flumes := Vector.replicate 16 Flume.reset, channels := [] })
  { s with
    mem := Memory.clear s.mem lo (2^20)
    poison := s.poison.filter (fun a => !(isSpad a && spadCore a == c)) }

/-- R27: the tag of the physical core that stands for c. -/
def State.setTag (s : State) (c tag : Nat) : State := { s with tags := Sparse.set s.tags (s.tagKey c) tag }

/-- R27, R306: a core's tag changes: what the old tag left on it is cleared. -/
def State.changeTag (s : State) (c tag : Nat) : State :=
  if s.tagOf c = tag then s else (s.setTag c tag).clearCore c

/-- R40: the entries of partition p for the cores of a list pass to another form. -/
def State.mapEntries (s : State) (p : Nat) (f : RankEntry → RankEntry) : State :=
  s.modPart p (fun q => { q with ranks := Sparse.mapValues q.ranks (fun _ e => f e) })

/-- R40, R358: the ranks of the cores of a list become IN TRANSIT. -/
def State.holdRanks (s : State) (p : Nat) (cs : List Nat) : State :=
  s.mapEntries p (fun e => match e with
    | .valid c => if cs.contains c then .inTransit c else e
    | .inTransit _ | .invalid => e)

/-- R39, R40: a message that its NI held asks for its credit at its new core; what else was held goes on. -/
def State.letGo (s : State) (k : Packet) : State :=
  let s := { s with packets := s.packets.map (fun p => if p.id = k.id then { p with held := false } else p) }
  match k.cargo with
  | .message ch _ => s.modChannelFor k.tag k.dest ch (fun q => { q with asking := q.asking ++ [.packet k.id] })
  | .wake _ | .request _ | .put _ => s

/-- R40: the entries IN TRANSIT of partition p for the cores of a list are VALID again, and what was held for them is released
in order. -/
def State.freeRanks (s : State) (p : Nat) (cs : List Nat) : State :=
  let s := s.mapEntries p (fun e => match e with
    | .inTransit c => if cs.contains c then .valid c else e
    | .valid _ | .invalid => e)
  (s.packets.filter (fun k => k.held && k.tag == p && cs.contains k.dest)).foldl State.letGo s

/-- R358, R284: the spare of a row takes a logical core's place, a migration as by R321: its residue is flushed, same tag,
contexts moved with the logical core; the replaced physical core takes tag 63. -/
def State.remap (s : State) (c : Nat) : State :=
  let s := s.flushResidue c
  let tag := s.tagOf c
  let old := s.tagKey c
  let s := { s with
    tags := Sparse.set s.tags old 63
    quarantined := old :: s.quarantined
    physical := Sparse.set s.physical c (128 + c % 8) }
  s.setTag c tag

/-- Remaps a list of cores. -/
def State.remapAll (s : State) : List Nat → State
  | [] => s
  | c :: cs => (s.remap c).remapAll cs

/-- R359: a partition's entries for the cores of a list become INVALID. -/
def State.invalidate (s : State) (cs : List Nat) : State :=
  { s with parts := Sparse.mapValues s.parts (fun _ q =>
      { q with ranks := Sparse.mapValues q.ranks (fun _ e => match e with
          | .valid c => if cs.contains c then .invalid else e
          | e => e) }) }

/-- R395 type 0x07: quarantine or spares exhausted. -/
def State.postQuarantine (s : State) (c : Nat) (cls : ErrClass) : State :=
  s.post 0 ⟨7, s.tagOf c, 0, word (dieOf c), [word (dieOf c), word (s.physicalOf c), word cls.code]⟩

/-- Partition p's copy commands of the threads of a list end without completing, with what their writes stand in. -/
def State.dropCopies (s : State) (p : Nat) (ts : List Nat) : State :=
  let gone := s.copies.filter (fun q => q.part == p && ts.contains q.thread)
  let ids := gone.flatMap (fun q => q.writes.map (·.id))
  { s with
    copies := s.copies.filter (fun q => !(q.part == p && ts.contains q.thread))
    forwards := s.forwards.filter (fun f => !(ids.contains f.id && f.stage == .pending)) }

/-- What the threads of a list wait for and have asked for ends, where they run; their copy commands end. -/
def State.endThreads (s : State) (p : Nat) (ts : List Nat) : State :=
  let here := ts.filter (fun t => !s.away p (coreOf t))
  ((s.withdrawAll here).dropRequests here).dropCopies p ts

/-- R352 step 5: the launch ends: every thread becomes FREE and the completion record carries FAULT. -/
def State.faultLaunch (s : State) (l : Launch) : State :=
  let s := s.endThreads l.part l.members
  let s := s.report ErrSource.all [.fault] none l.part none 0 none
  if s.captureHolds l || s.storesOut l then (s.freeMembers l l.members).setLaunch { l with ending := some 3 }
  else s.completeLaunch l 3

/-- A thread runs an index of launch l. -/
def State.runsIndex (s : State) (l : Launch) (t : Nat) : Bool :=
  let x := s.threadFor l.part t
  x.launch == some l.id && (match x.status with
    | .free | .halted => false
    | _ => true)

/-- R46, R352: the threads of a list leave launch l: the indices that they run are abandoned and they become FREE. -/
def State.loseMembers (s : State) (l : Launch) (ts : List Nat) : State :=
  let mine := ts.filter (fun t => l.members.contains t)
  let lost := (mine.filter (fun t => s.runsIndex l t)).map (fun t => (s.threadFor l.part t).index)
  let s := (s.endThreads l.part mine).freeMembers l mine
  s.setLaunch { l with
    members := l.members.filter (fun t => !mine.contains t)
    lost := l.lost ++ mine
    waiting := l.waiting.filter (fun t => !mine.contains t)
    abandoned := l.abandoned ++ lost }

/-- R352, R359: launches lose the threads of dead cores: one with a step domain ends, another abandons their indices. -/
def State.loseCores (s : State) (ts : List Nat) : List Nat → State
  | [] => s
  | id :: r =>
    let s := match Sparse.find? s.launches id with
      | some l =>
        if ts.any (fun t => l.members.contains t) then
          (if l.stepDomain.isSome then s.faultLaunch l else (s.loseMembers l ts).settleLaunch id)
        else s
      | none => s
    s.loseCores ts r

/-- R372: a core whose capture is under way keeps its tag until it is done. -/
def State.capturing (s : State) (c : Nat) : Bool :=
  let sp := (s.part (s.tagOf c)).spore
  sp.state == .capture && sp.capturing.contains c

/-- R27, R306, R359: a dead core takes tag 63, at the end of its capture (R372). -/
def State.retire (s : State) (c : Nat) : State :=
  if s.capturing c then { s with retiring := c :: s.retiring } else s.changeTag c 63

/-- R372: the dead cores whose captures are done take tag 63. -/
def State.retireDone (s : State) : State :=
  (s.retiring.filter (fun c => !s.capturing c)).foldl (fun s c => s.changeTag c 63)
    { s with retiring := s.retiring.filter s.capturing }

/-- R359, R269: the saved contexts of dead cores end, with their threads' reservations. -/
def State.dropSaved (s : State) (cs : List Nat) : State :=
  let gone := s.saved.filter (fun v => cs.contains v.snapshot.core)
  let s := gone.foldl (fun s v => (v.snapshot.threads.foldl (fun s e =>
    s.modPart v.tag (fun q => { q with po := q.po - e.2.resv })) s).dropCopies v.tag (v.snapshot.threads.map (·.1))) s
  { s with saved := s.saved.filter (fun v => !cs.contains v.snapshot.core) }

/-- The threads of a list become FREE, and what they have not written is lost (log entry 84). -/
def State.cutThreads (s : State) (ts : List Nat) : State :=
  ts.foldl (fun s t => s.modThread t Thread.unwritten) (s.freeThreads ts)

/-- The threads of core c end, with what they wait for, what they have asked for and what they have not written. -/
def State.killThreads (s : State) (c : Nat) : State :=
  let ts := ([0, 1, 2, 3] : List Nat).map (· + 4 * c)
  (s.endThreads (s.tagOf c) ts).cutThreads ts

/-- R359: the cores of a list are dead: their threads end, their contexts go, their ranks become INVALID, and they take tag
63. What they have not written is lost with them (log entry 84). -/
def State.killCores (s : State) (cs : List Nat) : State :=
  let s := (cs.foldl State.killThreads s).dropSaved cs
  let s := { s with quarantined := cs.map s.tagKey ++ s.quarantined }
  (cs.filter (fun c => s.tagOf c != 63)).foldl State.retire (s.invalidate cs)

/-- R359: with no spare left the cluster's cores take tag 63 and their ranks become INVALID; their threads end (R352). -/
def State.exhaust (s : State) (c : Nat) : State :=
  let cs := clusterOf c
  let s := s.report [.core] [.sparesExhausted] (some (dieOf c)) (s.tagOf c) (some (s.physicalOf c)) 0 none
  let s := s.postQuarantine c .sparesExhausted
  let ts := cs.flatMap (fun k => ([0, 1, 2, 3] : List Nat).map (· + 4 * k))
  (s.loseCores ts (Sparse.keys s.launches)).killCores cs

/-- R358: a core whose quarantine is under way takes no step. -/
def State.frozen (s : State) (c : Nat) : Bool := s.pendingSpare.any (fun e => (clusterOf e.core).contains c)

/-- R359: the spare cluster of a core's half is used, or meant for a quarantine that came before. -/
def State.spareTaken (s : State) (key : Nat) : Bool := s.usedSpares.contains key || s.pendingSpare.any (fun e => e.key == key && e.named)

/-- R358, R362: the quarantine is recorded and the monitor told; the moved ranks are IN TRANSIT until the cluster has moved. -/
def State.beginQuarantine (s : State) (w : SpareWait) : State :=
  let c := w.core
  let s := s.report [.core] [.quarantine] (some (dieOf c)) (s.tagOf c) (some (s.physicalOf c)) 0 none
  let s := s.postQuarantine c .quarantine
  { (clusterOf c).foldl (fun s k => s.holdRanks (s.tagOf k) [k]) s with pendingSpare := s.pendingSpare ++ [w] }

/-- R358, R359, R328: in host-assisted spare remap step 2 of a quarantine waits for the monitor, which is asked by an event of
type 0x09. -/
def State.askSpare (s : State) (w : SpareWait) : State :=
  let e : Event := ⟨9, s.tagOf w.core, 0, word (dieOf w.core), [word (dieOf w.core), word (s.physicalOf w.core)]⟩
  (s.beginQuarantine w).post 0 e

/-! Containment (R352). -/

/-- R358: a local UE. -/
def Datum.isLocal : Datum → Bool
  | .register | .queue | .spad _ | .accumulator _ | .datapath => true
  | .none | .unit | .peer _ | .sector _ | .link | .elsewhere => false

/-- R352: the failed datum of thread t is restorable: a register, or a log block or an accumulator written in this superstep, and
no queue entry; a datapath holds none. -/
def State.restorable (s : State) (t : Nat) : Datum → Bool
  | .none | .register | .datapath | .unit => true
  | .accumulator n => (s.coreAt (coreOf t)).accsWritten.contains n
  | .spad a | .peer a => s.blocks.contains (a / 256) || s.saved.any (fun v => v.tag == s.partOf t && v.blocks.contains (a / 256))
  | .queue | .sector _ | .link | .elsewhere => false

/-- R346, R358: the scratchpad granule that held the failed data of an access from key a on: the first that is poisoned. -/
def State.failedGranule (s : State) (a : Nat) : Nat :=
  match sortBy id (s.poison.filter (fun g => isSpad g && spadCore g == spadCore a && decide (a / 8 * 8 ≤ g))) with
  | g :: _ => g
  | [] => a / 8 * 8

/-- R358: the rewrite test leaves all ones in the scratchpad granule that it tests, which no poison marks any more (R348). A
register is overwritten where its error is met (`State.wordFailed`, `State.laneError`, `State.mxUpset`). -/
def State.testOver (s : State) : Datum → State
  | .spad a =>
    let g := s.failedGranule a
    { s with mem := Memory.writeBytes s.mem g (List.replicate 8 0xFF), poison := s.poison.filter (· != g) }
  | .none | .register | .queue | .accumulator _ | .datapath | .unit | .peer _ | .sector _ | .link | .elsewhere => s

/-- R358: the rewrite test of a local error, whose outcome is the hardware's (log entry 2); the next outcome is taken. -/
def State.rewriteTest (s : State) (d : Datum) : Bool × State :=
  if d.isLocal then (s.testFails.headD false, { (s.testOver d) with testFails := s.testFails.tail }) else (false, s)

/-- R358: a second local UE or SIG of a core within 1 s; the spare that replaces a core inherits none. -/
def State.secondError (s : State) (c : Nat) (counts : Bool) : Bool × State :=
  if counts then
    (s.recentErrors.any (fun e => e.1 == s.tagKey c && decide (s.now < e.2 + 1000000000)),
     { s with recentErrors := (s.tagKey c, s.now) :: s.recentErrors.filter (fun e => decide (s.now < e.2 + 1000000000)) })
  else (false, s)

/-- R352 step 4: the thread's index restarts once; a second containment of the index abandons it, and the thread goes on to
the next. -/
def State.restartIndex (s : State) (l : Launch) (t : Nat) : State :=
  let i := (s.threadFor l.part t).index
  let s := s.endThreads l.part [t]
  if l.restarted.contains i then
    let l' := { l with abandoned := l.abandoned ++ [i] }
    ((s.setLaunch l').askIndex l.id t).settleLaunch l.id
  else
    let l' := { l with restarted := i :: l.restarted }
    let s := s.report [.core] [.restarted] (some (dieOf (coreOf t))) l.part (some (s.physicalOf (coreOf t))) 0 none
    (s.setLaunch l').startIndex l' t i

/-- R395 type 0x08: a containment without a launch. -/
def State.parkContained (s : State) (p t : Nat) (tcause : Word) : State :=
  let s := s.modThreadFor p t (fun x => { x with status := .parked .contained })
  let s := if s.away p (coreOf t) then s else s.relevel (coreOf t)
  s.post 0 ⟨8, p, 0, tcause, [tcause, s.whoFor p t 0]⟩

/-- R352: the containment of a cause in thread t of partition p, after its record is made. `gangCore` tells whether a core of
the launch was quarantined. -/
def State.containIn (s : State) (p t : Nat) (tcause : Word) (d : Datum) (quarantined : Bool) : State :=
  match (s.threadFor p t).launch with
  | none => s.parkContained p t tcause
  | some id =>
    match Sparse.find? s.launches id with
    | none => s.parkContained p t tcause
    | some l =>
      if l.stepDomain.isSome then
        (if !quarantined && s.restorable t d && decide (l.rollbacks < 2) && !l.log.isEmpty then
          (s.report ErrSource.all [.rollback] none l.part none 0 none).rollback l
         else s.faultLaunch l)
      else s.restartIndex l t

/-- R358 step 4, R352: the threads of the failed cores of a quarantine are contained, the one that met the error first. -/
def State.containCores (s : State) (e : SpareWait) : State :=
  let ts := (if e.whole then clusterOf e.core else [e.core]).flatMap (fun c => ([0, 1, 2, 3] : List Nat).map (· + 4 * c))
  (e.thread :: ts.filter (fun t => t != e.thread)).foldl (fun s u =>
    match (s.thread u).status with
    | .free | .halted => s
    | _ => ((s.modThread u (fun x => { x with second := none, fetched := none, woke := none })).withdraw u).containIn
        (s.partOf u) u e.tcause .none true) s

/-- R358: the quarantine of a core, or for an error of the cluster's vector unit or SFU of the whole cluster. The cluster moves,
and the containment of its failed cores' threads goes on, when its healthy cores have drained; with no spare left its threads
end. -/
def State.quarantine (s : State) (c t : Nat) (tcause : Word) (whole : Bool) : State :=
  let key := dieOf c * 2 + halfOf c
  if s.frozen c then s
  else if s.modes.getLsbD 2 then s.askSpare ⟨key, c, t, tcause, whole, false⟩
  else if s.spareTaken key then s.exhaust c
  else s.beginQuarantine ⟨key, c, t, tcause, whole, true⟩

/-- R352: a SIG, UE or WATCHDOG in thread t is recorded and handled by quarantine, rollback, index restart or the end of
the launch. -/
def State.contain (s : State) (t : Nat) (places : List ErrPlace) (cls : ErrClass) (addr tcause : Word) (d : Datum) : State :=
  let c := coreOf t
  let s := s.reportAt (s.partOf t) places cls addr (some tcause)
  let (fails, s) := s.rewriteTest d
  let (second, s) := s.secondError c (d.isLocal || cls == .sig)
  if fails || second || d == .unit then s.quarantine c t tcause (d == .unit) else s.containIn (s.partOf t) t tcause d false

end Sys2Proof.Machine
end

