-- ==== Sys2Proof/Machine/Trap.lean ====
section
/-!
DEFINITION. Where a trap goes (R134, R136, R340 to R344, R352) and the delivery of asynchronous causes (R137).
-/
namespace Sys2Proof.Machine

/-- R144, R341: sets a thread's wake flag; a wake to a FREE or HALTED thread is discarded. -/
def State.wakeThread (s : State) (t : Nat) : State :=
  match (s.thread t).status with
  | .free | .halted => s
  | _ => s.modThread t (fun x => { x with wake := true })

/-- The same for thread t of partition p, where it lives (R315). -/
def State.wakeFor (s : State) (p t : Nat) : State :=
  match (s.threadFor p t).status with
  | .free | .halted => s
  | _ => s.modThreadFor p t (fun x => { x with wake := true })

/-- The thread that a rank (bits 9:0) and a thread number (bits 11:10) name in partition p (R144, R340). -/
def State.namedThread (s : State) (p : Nat) (v : Word) : Option Nat :=
  (s.rankEntry p (field v.toNat 0 10)).core?.map (fun c => 4 * c + field v.toNat 10 2)

/-- R340: the service thread of a die for partition p; none when SERVICE is not valid. -/
def State.serviceThread (s : State) (p d : Nat) : Option Nat :=
  match Sparse.find? (s.part p).pages d with
  | some g => if g.service.getLsbD 63 then s.namedThread p g.service else none
  | none => none

/-- R340: the fault-queue record of thread t of partition p, whose trap is recorded. -/
def State.faultRecord (s : State) (p t : Nat) : FaultRecord :=
  let x := s.threadFor p t
  ⟨t, x.tcause, x.tval, x.tval2, x.tepc, s.whoFor p t (subOf x.tstat).toNat, word s.now⟩

/-- R341: the lowest free slot of a die's fault queue, as its key 64 * die + slot. -/
def State.freeSlot (s : State) (p d : Nat) : Option Nat :=
  ((List.range 63).map (· + 64 * d)).find? (fun k => (Sparse.find? (s.part p).slots k).isNone)

/-- R341: the dispatcher records a fault in the lowest free slot and wakes the service thread; with no free slot the record
waits in fault order. -/
def State.recordFault (s : State) (p t : Nat) : State :=
  let d := dieOf (coreOf t)
  let r := s.faultRecord p t
  match s.freeSlot p d with
  | none => s.modPart p (fun q => { q with unrecorded := q.unrecorded ++ [r] })
  | some k =>
    let s := s.modPart p (fun q => { q with slots := Sparse.set q.slots k r })
    match s.serviceThread p d with
    | some v => s.wakeFor p v
    | none => s

/-- R343: destination service is the handler for the die's service thread and while SERVICE is not valid. -/
def State.servedByHandler (s : State) (p t : Nat) : Bool :=
  match s.serviceThread p (dieOf (coreOf t)) with
  | none => true
  | some v => v == t

/-- R341: a first-stage fault: the thread records as in R135 and becomes SUSPENDED. -/
def State.suspend (s : State) (t : Nat) (tr : Trap) (epc : Word) : State :=
  (s.modThread t (fun x => { x.record tr epc with status := .suspended, pc := wordAligned epc })).recordFault (s.partOf t) t

/-- R344, R395: a second-stage fault: the thread records as in R135 and becomes PARKED, and its request counts no more
(R280); the monitor gets an event of type 0x02. -/
def State.park (s : State) (t : Nat) (tr : Trap) (epc : Word) : State :=
  let s := s.modThread t (fun x => { x.record tr epc with status := .parked .page2, pc := wordAligned epc })
  let s := s.relevel (coreOf t)
  let x := s.thread t
  s.post 0 ⟨2, s.partOf t, 0, x.tcause, [x.tval, x.tval2, x.tepc, s.who t tr.sub.toNat, word s.now]⟩

/-- R348, R362: the sector that a UE at a home address met: the data that a read or a fetch of the address reaches, or else the
poisoned table entry at which its walk ends. -/
def State.homeSector (s : State) (p : Nat) (va : Word) (window : Nat) : Option Nat :=
  match ([.load, .fetch] : List Access).findSome? (fun k => match s.walk p va k true window with
      | .ok w => some w.a
      | .error _ => none) with
  | some a => some a
  | none => s.badEntry p va

/-- R352, R358: what failed, by the address at which a word met it: a core-local or rank-space address is a scratchpad granule,
a home address a sector of memory where it or the table entry that failed lies in HBM. -/
def State.datumIn (s : State) (p t : Nat) (tval : Word) : Datum :=
  match classify tval with
  | .spad off => .spad (spadKey (coreOf t) off)
  | .rank r off =>
    (match (s.rankEntry p r).core? with
     | some c => if c = coreOf t then .spad (spadKey c off) else .peer (spadKey c off)
     | none => .elsewhere)
  | .home d =>
    (match s.homeSector p tval d with
     | some a => if isHbm a then .sector a else .elsewhere
     | none => .elsewhere)
  | .slot _ | .refused => .elsewhere

/-- The same for the running thread t. -/
def State.datumOf (s : State) (t : Nat) (tval : Word) : Datum := s.datumIn (s.partOf t) t tval

/-- R362: where the data of a UE at an address may have stood: the L2 of the home die while it holds a dirty copy of the line
(R203), in the address's slice where the data are its own; the
stack, or the Basin for a line that the Basin may hold dirty, of which the model does not show which (log entry 31); a link for
host and fabric data. -/
def State.uePlaces (s : State) (c : Nat) (va : Word) : Datum → List ErrPlace
  | .register | .queue | .unit => [s.corePlace .core c]
  | .spad a | .peer a => [s.corePlace .core (spadCore a)]
  | .accumulator _ | .datapath => [s.corePlace .mxu c]
  | .sector a =>
    if s.stale.any (fun e => e.1 / 64 == lineOf a) then
      [⟨.l2, some (stackOf a), if field va.toNat 0 16 = field a 0 16 then some (sliceOf va) else none⟩]
    else if s.basinDirty.contains (lineOf a) then [⟨.hbm, none, some (stackOf a)⟩, ⟨.basin, some 8, none⟩]
    else [⟨.hbm, none, some (stackOf a)⟩]
  | .link | .elsewhere => [⟨.link, none, none⟩]
  | .none => ErrPlace.all

/-- R352: a UE, SIG or WATCHDOG is recorded in the thread and contained. -/
def State.containTrap (s : State) (t : Nat) (tr : Trap) (epc : Word) (d : Datum) : State :=
  let s := (s.modThread t (fun x => { x.record tr epc with pc := wordAligned epc })).withdraw t
  match tr.cause with
  | .sig => s.contain t [s.corePlace .core (coreOf t)] .sig 0 tr.cause.code .none
  | .watchdog => s.contain t ErrPlace.all .watchdog 0 tr.cause.code .none
  | _ => s.contain t (s.uePlaces (coreOf t) tr.tval d) .ue tr.tval tr.cause.code d

/-- R136: a double trap is a UE that holds no failed data: TCAUSE and SUB are written, TVAL2 takes the cause that the trap
would have had, TEPC and TVAL keep the first trap's values. The thread is partition p's and may be in a saved context. -/
def State.doubleTrap (s : State) (p t : Nat) (c : Cause) : State :=
  let s := s.modThreadFor p t (fun x => { x with
    tcause := Cause.ue.code
    tval2 := c.code
    tstat := tstatWord 0x80 (laneOf x.tstat) (x.tstat.getLsbD 9) x.supervisor x.inh x.lh
    second := none
    fetched := none
    permits := []
    woke := none })
  let tval := (s.threadFor p t).tval
  if s.away p (coreOf t) then
    (s.reportAt p ErrPlace.all .ue tval (some Cause.ue.code)).containIn p t Cause.ue.code .none false
  else s.contain t ErrPlace.all .ue tval Cause.ue.code .none

/-- R134: a trap of thread t goes to its destination; a thread that does not enter its handler is no longer READY (R143). `d`
is what failed for a UE. -/
def State.trapTo (s : State) (t : Nat) (tr : Trap) (epc : Word) (d : Datum) : State :=
  match tr.cause with
  | .page1 =>
    if s.servedByHandler (s.partOf t) t then s.modThread t (fun x => x.enterHandler tr epc)
    else (s.suspend t tr epc).stopsReady t
  | .page2 => (s.park t tr epc).stopsReady t
  | .sig | .ue | .watchdog => (s.containTrap t tr epc d).stopsReady t
  | _ => s.modThread t (fun x => x.enterHandler tr epc)

/-- R134, R136: the executing thread's word raises a precise trap, with what failed for a UE; `eret` marks ILLEGAL and MISALIGN
of an ERET, which are never double traps. A watch's trap keeps its word's address for the ERET that returns to it (R361). -/
def State.raiseFor (s : State) (tr : Trap) (eret : Bool) (d : Datum) : State :=
  let at' := wordAligned s.me.pc
  let s := if s.me.inh && !eret then s.doubleTrap (s.partOf s.cur) s.cur tr.cause else s.trapTo s.cur tr s.me.pc d
  let s := match tr.cause with
    | .watch _ => s.modMe (fun t => { t with watchTrap := some at' })
    | _ => s
  s.flowTo .trapped

/-- A precise trap: a UE's failed data lie at the address that it records. -/
def State.raiseAt (s : State) (tr : Trap) (eret : Bool) : State :=
  s.raiseFor tr eret (match tr.cause with
    | .ue => s.datumOf s.cur tr.tval
    | _ => .none)

/-- A precise trap at the executing thread's word (R134, R135). -/
def State.raise (s : State) (tr : Trap) : State := s.raiseAt tr false

/-- A precise trap without sub-code and lane. -/
def State.fault (s : State) (c : Cause) (tval tval2 : Word) : State := s.raise (Trap.plain c tval tval2)

/-! Asynchronous causes. -/

/-- R137, R361: the order in which pending causes are taken. -/
def Cause.order : Cause → Nat
  | .ue => 0 | .watchdog => 1 | .cut => 2 | .overrun => 3 | .acklost => 4 | .tag => 5 | _ => 6

/-- R136, R137: a cause that does not wait for the handler to end nor for the thread to be READY. -/
def Cause.urgent : Cause → Bool
  | .ue | .watchdog => true
  | _ => false

/-- R137: the thread can take this cause now. -/
def Thread.takes (x : Thread) (a : Async) : Bool :=
  match x.status with
  | .free | .halted => false
  | .ready => a.cause.urgent || !x.inh
  | _ => a.cause.urgent

/-- R137: the pending cause that the thread takes next, the first of the lowest order. -/
def Thread.nextAsync (x : Thread) : Option Async :=
  (sortBy (fun a => a.cause.order) (x.pending.filter x.takes)).head?

/-- R134, R137: thread t takes its next pending cause at a bundle boundary; TEPC names its next word. -/
def State.deliver (s : State) (t : Nat) : State :=
  match (s.thread t).nextAsync with
  | none => s
  | some a =>
    let s := s.modThread t (fun x => { x with pending := x.pending.erase a })
    s.trapTo t (Trap.plain a.cause a.tval a.tval2) (s.thread t).pc a.datum

/-- R342: a fault-queue record leaves its slot; the longest-waiting unrecorded fault of the die takes it. -/
def State.freeFaultSlot (s : State) (p d k : Nat) : State :=
  let s := s.modPart p (fun q => { q with slots := Sparse.erase q.slots k })
  match (s.part p).unrecorded.find? (fun r => dieOf (coreOf r.thread) == d) with
  | none => s
  | some r =>
    let s := s.modPart p (fun q => { q with
      unrecorded := q.unrecorded.erase r
      slots := Sparse.set q.slots k r })
    match s.serviceThread p d with
    | some v => s.wakeFor p v
    | none => s

/-- R342: a store to RESUME: retry or deliver to the thread's handler. -/
def State.resumeSlot (s : State) (p d : Nat) (v : Nat) : State :=
  let k := 64 * d + field v 0 6
  match Sparse.find? (s.part p).slots k with
  | none => s
  | some r =>
    let s := s.freeFaultSlot p d k
    match (s.threadFor p r.thread).status with
    | .suspended =>
      if field v 8 1 = 0 then s.modThreadFor p r.thread (fun x => { x with status := .ready })
      else s.modThreadFor p r.thread (fun x =>
        { x.enterHandler ⟨.page1, r.tval, r.tval2, subOf x.tstat, laneOf x.tstat⟩ r.tepc with flow := x.flow })
    | _ => s

end Sys2Proof.Machine
end

