-- ==== Sys2Proof/Machine/Operands.lean ====
section
/-!
DEFINITION. The operand forms: immediates (R57), access sizes, memory addresses, targets and link values (R122), the
positions in a bundle (R50), and the extension of loaded values.
-/
namespace Sys2Proof

/-- The bytes of an access size (R57). -/
def Size.bytes : Size → Nat
  | .b => 1 | .h => 2 | .w => 4 | .d => 8

/-- The bytes of an AMO type (R159). -/
def AmoTy.bytes : AmoTy → Nat
  | .w => 4 | .d => 8 | .s => 4 | .h => 2

/-- The bytes of an integer type (R159, R163). -/
def IntSize.bytes : IntSize → Nat
  | .w => 4 | .d => 8

/-- The bytes of a vector element (R62). -/
def Elem.bytes : Elem → Nat
  | .b => 1 | .h => 2 | .w => 4

end Sys2Proof

namespace Sys2Proof.Machine

/-- What a meaning answers. -/
abbrev Result := Host.Outcome State Fault Refusal

/-- A two's complement immediate (R57). -/
def immediate {n : Nat} (v : BitVec n) : Word := v.signExtend 64

/-- x[ra] plus an immediate times the access size, modulo 2^64 (R57, R151, R155). -/
def scaledAddress {n : Nat} (base : Word) (imm : BitVec n) (size : Nat) : Word := base + immediate imm * word size

/-- A branch or jump target: W + 4 * sext(offset) (R123, R124). -/
def offsetTarget {n : Nat} (w : Word) (off : BitVec n) : Word := w + 4 * immediate off

/-- The low n bytes of a value, sign-extended to 64 bits. -/
def signExtendBytes (n v : Nat) : Word :=
  match n with
  | 1 => (BitVec.ofNat 8 v).signExtend 64
  | 2 => (BitVec.ofNat 16 v).signExtend 64
  | 4 => (BitVec.ofNat 32 v).signExtend 64
  | _ => BitVec.ofNat 64 v

/-- The low n bytes of a value, zero- or sign-extended to 64 bits (R151). -/
def extendBytes (z : Bool) (n v : Nat) : Word := if z then word (v % 256^n) else signExtendBytes n v

/-- The executing word's address (R50). -/
def State.at (s : State) : Word := s.me.pc

/-- R52: the executing word is the first word of an L=1 bundle: its second word is held. -/
def State.loneFirst (s : State) : Bool := !s.at.getLsbD 2 && s.me.second.isSome

/-- R122: the link value of the executing word: the next word of an L=1 bundle, else the next bundle. -/
def State.link (s : State) : Word := if s.loneFirst then s.at + 4 else bundleOf s.at + 8

/-- Bits 31:0 of a scalar register (R92, R113). -/
def State.x32 (s : State) (r : Reg) : BitVec 32 := (s.x r).setWidth 32

end Sys2Proof.Machine
end

