-- ==== Sys2Proof/Machine/Flags.lean ====
section
/-!
DEFINITION. FCSR: the rounding mode in force (R93, R97), the sticky flags (R94, R95) and writes (R94), with the stochastic
generator's CSR (R104).
-/
namespace Sys2Proof.Machine

/-- R97: the mode of a code; codes 101 to 111 are never held in RM (R94). -/
def modeOfCode (n : Nat) : RMode :=
  match n with
  | 1 => .rup | 2 => .rdn | 3 => .rtz | 4 => .rna | _ => .rne

/-- FCSR as the executing word reads it: the second word of a pair sees the value before the pair (R51, R130). -/
def State.fcsr (s : State) : BitVec 11 :=
  match s.pair with
  | some p => p.fcsr
  | none => s.me.fcsr

/-- FCSR.RM (R94). -/
def State.dynamicMode (s : State) : RMode := modeOfCode (s.fcsr.toNat / 256)

/-- R65, R93: the mode of a rounding field. -/
def State.mode (s : State) : Rounding → RMode
  | .rne => .rne | .rup => .rup | .rdn => .rdn | .rtz => .rtz | .rna => .rna | .dyn => s.dynamicMode

/-- R94: flags are ORed into a thread's FCSR. -/
def Thread.orFlags (t : Thread) (f : Flags) : Thread := { t with fcsr := t.fcsr ||| f.setWidth 11 }

/-- R94: flags are ORed into the executing thread's FCSR. -/
def State.orFlags (s : State) (f : Flags) : State := s.modMe (fun t => t.orFlags f)

/-- R94: a write of FCSR: flags 4:0 and RM, which keeps its value against the codes 101 to 111. -/
def fcsrWrite (old : BitVec 11) (v : Word) : BitVec 11 :=
  let rm := if field v.toNat 8 3 ≤ 4 then field v.toNat 8 3 else old.toNat / 256
  BitVec.ofNat 11 (field v.toNat 0 5 + 256 * rm)

/-- R104: a write of LFSRSEED; zero becomes 1. -/
def lfsrWrite (v : Word) : BitVec 32 :=
  let g : BitVec 32 := v.setWidth 32
  if g = 0 then 1 else g

/-- R92, R119: an FP32 result and its flags. -/
def State.setFloat (s : State) (rd : Reg) (r : Nat × Flags) : State :=
  (s.setX rd (word (r.1 % 2^32))).orFlags r.2

/-- R119: a comparison's result and its flags. -/
def State.setCompare (s : State) (rd : Reg) (r : Bool × Flags) : State := (s.setX rd (word (bit r.1))).orFlags r.2

end Sys2Proof.Machine
end

