-- ==== Sys2Proof/Machine/Int.lean ====
section
/-!
DEFINITION. Integer arithmetic: INT and its W forms (R112 to R114), immediates (R115 to R117).
-/
namespace Sys2Proof.Machine

/-- 1 or 0 as a register value. -/
def flag (b : Bool) : Word := word (bit b)

/-- A shift amount: bits 5:0 (R112). -/
def amount6 (v : Word) : Nat := v.toNat % 64

/-- A W shift amount: bits 4:0 (R113). -/
def amount5 (v : Word) : Nat := v.toNat % 32

/-- R114: the signed quotient of n bits, truncated toward zero, with its special cases. -/
def divS {n : Nat} (a b : BitVec n) : BitVec n :=
  if b = 0 then (if a = 0 then 0 else if a.msb then BitVec.intMin n else BitVec.intMax n)
  else if a = BitVec.intMin n ∧ b = BitVec.allOnes n then BitVec.intMax n
  else a.sdiv b

/-- R114: the unsigned quotient with its special cases. -/
def divU {n : Nat} (a b : BitVec n) : BitVec n :=
  if b = 0 then (if a = 0 then 0 else BitVec.allOnes n) else a / b

/-- R112, R114: the signed remainder, with the sign of the dividend. -/
def remS {n : Nat} (a b : BitVec n) : BitVec n := if b = 0 then a else a.srem b

/-- R112, R114: the unsigned remainder. -/
def remU {n : Nat} (a b : BitVec n) : BitVec n := if b = 0 then a else a % b

/-- Bits 127:64 of a product. -/
def highWord (p : Int) : Word := BitVec.ofInt 64 (p / 2^64)

/-- x[rd] := f x[ra] x[rb]. -/
def State.alu (s : State) (f : Word → Word → Word) (rd ra rb : Reg) : State := s.setX rd (f (s.x ra) (s.x rb))

/-- R113: x[rd] := the 32-bit result of bits 31:0, sign-extended. -/
def State.aluW (s : State) (f : BitVec 32 → BitVec 32 → BitVec 32) (rd ra rb : Reg) : State :=
  s.setX rd ((f (s.x32 ra) (s.x32 rb)).signExtend 64)

/-- R115: x[rd] := f x[ra] sext(imm). -/
def State.aluI (s : State) (f : Word → Word → Word) (rd ra : Reg) (imm : BitVec 13) : State :=
  s.setX rd (f (s.x ra) (immediate imm))

/-- R112 ADD. -/
def execAdd (rd ra rb : Reg) (s : State) : Result := .next (s.alu (· + ·) rd ra rb)

/-- R112 SUB. -/
def execSub (rd ra rb : Reg) (s : State) : Result := .next (s.alu (· - ·) rd ra rb)

/-- R112 AND. -/
def execAnd (rd ra rb : Reg) (s : State) : Result := .next (s.alu (· &&& ·) rd ra rb)

/-- R112 OR. -/
def execOr (rd ra rb : Reg) (s : State) : Result := .next (s.alu (· ||| ·) rd ra rb)

/-- R112 XOR. -/
def execXor (rd ra rb : Reg) (s : State) : Result := .next (s.alu (· ^^^ ·) rd ra rb)

/-- R112 SLL. -/
def execSll (rd ra rb : Reg) (s : State) : Result := .next (s.alu (fun a b => a <<< amount6 b) rd ra rb)

/-- R112 SRL. -/
def execSrl (rd ra rb : Reg) (s : State) : Result := .next (s.alu (fun a b => a >>> amount6 b) rd ra rb)

/-- R112 SRA. -/
def execSra (rd ra rb : Reg) (s : State) : Result := .next (s.alu (fun a b => a.sshiftRight (amount6 b)) rd ra rb)

/-- R112 SLT. -/
def execSlt (rd ra rb : Reg) (s : State) : Result := .next (s.alu (fun a b => flag (a.slt b)) rd ra rb)

/-- R112 SLTU. -/
def execSltu (rd ra rb : Reg) (s : State) : Result := .next (s.alu (fun a b => flag (a.ult b)) rd ra rb)

/-- R112 MIN. -/
def execMin (rd ra rb : Reg) (s : State) : Result := .next (s.alu (fun a b => if b.slt a then b else a) rd ra rb)

/-- R112 MAX. -/
def execMax (rd ra rb : Reg) (s : State) : Result := .next (s.alu (fun a b => if a.slt b then b else a) rd ra rb)

/-- R112 MINU. -/
def execMinu (rd ra rb : Reg) (s : State) : Result := .next (s.alu (fun a b => if b.ult a then b else a) rd ra rb)

/-- R112 MAXU. -/
def execMaxu (rd ra rb : Reg) (s : State) : Result := .next (s.alu (fun a b => if a.ult b then b else a) rd ra rb)

/-- R112 MUL. -/
def execMul (rd ra rb : Reg) (s : State) : Result := .next (s.alu (· * ·) rd ra rb)

/-- R112 MULHISS. -/
def execMulhiSs (rd ra rb : Reg) (s : State) : Result := .next (s.alu (fun a b => highWord (a.toInt * b.toInt)) rd ra rb)

/-- R112 MULHIUU. -/
def execMulhiUu (rd ra rb : Reg) (s : State) : Result := .next (s.alu (fun a b => highWord ((a.toNat * b.toNat : Nat) : Int)) rd ra rb)

/-- R112 MULHISU. -/
def execMulhiSu (rd ra rb : Reg) (s : State) : Result := .next (s.alu (fun a b => highWord (a.toInt * (b.toNat : Int))) rd ra rb)

/-- R112, R114 DIV. -/
def execDiv (rd ra rb : Reg) (s : State) : Result := .next (s.alu divS rd ra rb)

/-- R112, R114 DIVU. -/
def execDivu (rd ra rb : Reg) (s : State) : Result := .next (s.alu divU rd ra rb)

/-- R112, R114 REM. -/
def execRem (rd ra rb : Reg) (s : State) : Result := .next (s.alu remS rd ra rb)

/-- R112, R114 REMU. -/
def execRemu (rd ra rb : Reg) (s : State) : Result := .next (s.alu remU rd ra rb)

/-- R113, R114 ADDW. -/
def execAddw (rd ra rb : Reg) (s : State) : Result := .next (s.aluW (· + ·) rd ra rb)

/-- R113, R114 SUBW. -/
def execSubw (rd ra rb : Reg) (s : State) : Result := .next (s.aluW (· - ·) rd ra rb)

/-- R113, R114 SLLW. -/
def execSllw (rd ra rb : Reg) (s : State) : Result := .next (s.aluW (fun a b => a <<< (b.toNat % 32)) rd ra rb)

/-- R113, R114 SRLW. -/
def execSrlw (rd ra rb : Reg) (s : State) : Result := .next (s.aluW (fun a b => a >>> (b.toNat % 32)) rd ra rb)

/-- R113, R114 SRAW. -/
def execSraw (rd ra rb : Reg) (s : State) : Result := .next (s.aluW (fun a b => a.sshiftRight (b.toNat % 32)) rd ra rb)

/-- R113, R114 MULW. -/
def execMulw (rd ra rb : Reg) (s : State) : Result := .next (s.aluW (· * ·) rd ra rb)

/-- R113, R114 DIVW. -/
def execDivw (rd ra rb : Reg) (s : State) : Result := .next (s.aluW divS rd ra rb)

/-- R113, R114 DIVUW. -/
def execDivuw (rd ra rb : Reg) (s : State) : Result := .next (s.aluW divU rd ra rb)

/-- R113, R114 REMW. -/
def execRemw (rd ra rb : Reg) (s : State) : Result := .next (s.aluW remS rd ra rb)

/-- R113, R114 REMUW. -/
def execRemuw (rd ra rb : Reg) (s : State) : Result := .next (s.aluW remU rd ra rb)

/-- R115 ADDI. -/
def execAddi (rd ra : Reg) (imm : BitVec 13) (s : State) : Result := .next (s.aluI (· + ·) rd ra imm)

/-- R115 ANDI. -/
def execAndi (rd ra : Reg) (imm : BitVec 13) (s : State) : Result := .next (s.aluI (· &&& ·) rd ra imm)

/-- R115 ORI. -/
def execOri (rd ra : Reg) (imm : BitVec 13) (s : State) : Result := .next (s.aluI (· ||| ·) rd ra imm)

/-- R115 XORI. -/
def execXori (rd ra : Reg) (imm : BitVec 13) (s : State) : Result := .next (s.aluI (· ^^^ ·) rd ra imm)

/-- R115 SLTI. -/
def execSlti (rd ra : Reg) (imm : BitVec 13) (s : State) : Result := .next (s.aluI (fun a b => flag (a.slt b)) rd ra imm)

/-- R115 SLTIU. -/
def execSltiu (rd ra : Reg) (imm : BitVec 13) (s : State) : Result := .next (s.aluI (fun a b => flag (a.ult b)) rd ra imm)

/-- R116 SLLI. -/
def execSlli (rd ra : Reg) (sh : BitVec 6) (s : State) : Result := .next (s.setX rd (s.x ra <<< sh.toNat))

/-- R116 SRLI. -/
def execSrli (rd ra : Reg) (sh : BitVec 6) (s : State) : Result := .next (s.setX rd (s.x ra >>> sh.toNat))

/-- R116 SRAI. -/
def execSrai (rd ra : Reg) (sh : BitVec 6) (s : State) : Result := .next (s.setX rd ((s.x ra).sshiftRight sh.toNat))

/-- R116 SLLIW. -/
def execSlliw (rd ra : Reg) (sh : BitVec 5) (s : State) : Result :=
  .next (s.setX rd ((s.x32 ra <<< sh.toNat).signExtend 64))

/-- R116 SRLIW. -/
def execSrliw (rd ra : Reg) (sh : BitVec 5) (s : State) : Result :=
  .next (s.setX rd ((s.x32 ra >>> sh.toNat).signExtend 64))

/-- R116 SRAIW. -/
def execSraiw (rd ra : Reg) (sh : BitVec 5) (s : State) : Result :=
  .next (s.setX rd (((s.x32 ra).sshiftRight sh.toNat).signExtend 64))

/-- R117 LUI: sext(imm19) * 2^13. -/
def execLui (rd : Reg) (imm : BitVec 19) (s : State) : Result := .next (s.setX rd (immediate imm <<< 13))

/-- R117 AUIPC: the bundle's address plus sext(imm19) * 2^13. -/
def execAuipc (rd : Reg) (imm : BitVec 19) (s : State) : Result :=
  .next (s.setX rd (bundleOf s.at + (immediate imm <<< 13)))

end Sys2Proof.Machine
end

