-- ==== Sys2Proof/Machine/Bits.lean ====
section
/-!
DEFINITION. Bit operations (R118).
-/
namespace Sys2Proof.Machine

/-- The number of one bits among bits n-1:0. -/
def popCount (v : Nat) : Nat → Nat
  | 0 => 0
  | n + 1 => bit (v.testBit n) + popCount v n

/-- The number of zero bits from bit i upward before the first one bit, at most n. -/
def trailingZeros (v i : Nat) : Nat → Nat
  | 0 => 0
  | n + 1 => if v.testBit i then 0 else 1 + trailingZeros v (i + 1) n

/-- The number of zero bits from bit n-1 downward before the first one bit. -/
def leadingZeros (v : Nat) : Nat → Nat
  | 0 => 0
  | n + 1 => if v.testBit n then 0 else 1 + leadingZeros v n

/-- R118: the position and the width that x[rb] gives BEXT and BINS. -/
def fieldOf (b : Word) : Nat × Nat :=
  let p := field b.toNat 0 6
  (p, min (field b.toNat 8 7) (64 - p))

/-- R118 BEXT. -/
def extractField (a b : Word) : Word := word (a.toNat / 2^(fieldOf b).1 % 2^(fieldOf b).2)

/-- R118 BINS: old with the field replaced by the low bits of a. -/
def insertField (old a b : Word) : Word :=
  let (p, w) := fieldOf b
  word (old.toNat - old.toNat / 2^p % 2^w * 2^p + a.toNat % 2^w * 2^p)

/-- R118 CLZ. -/
def execClz (rd ra : Reg) (s : State) : Result := .next (s.setX rd (word (leadingZeros (s.x ra).toNat 64)))

/-- R118 CTZ. -/
def execCtz (rd ra : Reg) (s : State) : Result := .next (s.setX rd (word (trailingZeros (s.x ra).toNat 0 64)))

/-- R118 POPC. -/
def execPopc (rd ra : Reg) (s : State) : Result := .next (s.setX rd (word (popCount (s.x ra).toNat 64)))

/-- R118 BEXT. -/
def execBext (rd ra rb : Reg) (s : State) : Result := .next (s.alu extractField rd ra rb)

/-- R118 BINS: x[rd] is a source too. -/
def execBins (rd ra rb : Reg) (s : State) : Result := .next (s.alu (insertField (s.x rd)) rd ra rb)

/-- R118 SEXT: bits b:0, sign-extended from bit b. -/
def execSext (rd ra rb : Reg) (s : State) : Result :=
  .next (s.alu (fun a b => (a <<< (63 - amount6 b)).sshiftRight (63 - amount6 b)) rd ra rb)

/-- R118 ZEXT: bits b:0. -/
def execZext (rd ra rb : Reg) (s : State) : Result := .next (s.alu (fun a b => word (a.toNat % 2^(amount6 b + 1))) rd ra rb)

/-- R118 LEA. -/
def execLea (rd ra rb : Reg) (s : State) : Result := .next (s.alu (fun a b => a + b) rd ra rb)

/-- R118 LEA.2. -/
def execLea2 (rd ra rb : Reg) (s : State) : Result := .next (s.alu (fun a b => a + b * 2) rd ra rb)

/-- R118 LEA.4. -/
def execLea4 (rd ra rb : Reg) (s : State) : Result := .next (s.alu (fun a b => a + b * 4) rd ra rb)

/-- R118 LEA.8. -/
def execLea8 (rd ra rb : Reg) (s : State) : Result := .next (s.alu (fun a b => a + b * 8) rd ra rb)

end Sys2Proof.Machine
end

