-- ==== Sys2Proof/Machine/Flt.lean ====
section
/-!
DEFINITION. Scalar floating point (R119 to R121).
-/
namespace Sys2Proof.Machine

/-- The FP32 encoding in bits 31:0 of a scalar register (R92). -/
def State.f32 (s : State) (r : Reg) : Nat := (s.x32 r).toNat

/-- A binary FP32 operation that rounds. -/
def State.floatOp (s : State) (f : RMode → Nat → Nat → Nat × Flags) (rd ra rb : Reg) (rm : Rounding) : State :=
  s.setFloat rd (f (s.mode rm) (s.f32 ra) (s.f32 rb))

/-- R120 FADD. -/
def execFadd (rd ra rb : Reg) (rm : Rounding) (s : State) : Result := .next (s.floatOp Fmt.f32.add rd ra rb rm)

/-- R120 FSUB. -/
def execFsub (rd ra rb : Reg) (rm : Rounding) (s : State) : Result := .next (s.floatOp Fmt.f32.sub rd ra rb rm)

/-- R120 FMUL. -/
def execFmul (rd ra rb : Reg) (rm : Rounding) (s : State) : Result := .next (s.floatOp Fmt.f32.mul rd ra rb rm)

/-- R120 FDIV. -/
def execFdiv (rd ra rb : Reg) (rm : Rounding) (s : State) : Result := .next (s.floatOp Fmt.f32.div rd ra rb rm)

/-- R120 FSQRT. -/
def execFsqrt (rd ra : Reg) (rm : Rounding) (s : State) : Result :=
  .next (s.setFloat rd (Fmt.f32.sqrt (s.mode rm) (s.f32 ra)))

/-- R120 FMIN. -/
def execFmin (rd ra rb : Reg) (s : State) : Result := .next (s.setFloat rd (Fmt.f32.minMax false (s.f32 ra) (s.f32 rb)))

/-- R120 FMAX. -/
def execFmax (rd ra rb : Reg) (s : State) : Result := .next (s.setFloat rd (Fmt.f32.minMax true (s.f32 ra) (s.f32 rb)))

/-- R120 FEQ. -/
def execFeq (rd ra rb : Reg) (s : State) : Result := .next (s.setCompare rd (Fmt.f32.cmpEq (s.f32 ra) (s.f32 rb)))

/-- R120 FCLT. -/
def execFclt (rd ra rb : Reg) (s : State) : Result := .next (s.setCompare rd (Fmt.f32.cmpLt (s.f32 ra) (s.f32 rb)))

/-- R120 FCLE. -/
def execFcle (rd ra rb : Reg) (s : State) : Result := .next (s.setCompare rd (Fmt.f32.cmpLe (s.f32 ra) (s.f32 rb)))

/-- An integer conversion's result: the low n bits, sign-extended (R120). -/
def State.setInt (s : State) (rd : Reg) (n : Nat) (r : Nat × Flags) : State :=
  (s.setX rd ((BitVec.ofNat n r.1).signExtend 64)).orFlags r.2

/-- R120 FTOI.W. -/
def execFtoiW (rd ra : Reg) (rm : Rounding) (s : State) : Result :=
  .next (s.setInt rd 32 (Fmt.f32.toInt (s.mode rm) 32 (s.f32 ra)))

/-- R120 FTOI.L. -/
def execFtoiL (rd ra : Reg) (rm : Rounding) (s : State) : Result :=
  .next (s.setInt rd 64 (Fmt.f32.toInt (s.mode rm) 64 (s.f32 ra)))

/-- R120 ITOF.W. -/
def execItofW (rd ra : Reg) (rm : Rounding) (s : State) : Result :=
  .next (s.setFloat rd (Fmt.f32.ofInt (s.mode rm) (s.x32 ra).toInt))

/-- R120 ITOF.L. -/
def execItofL (rd ra : Reg) (rm : Rounding) (s : State) : Result :=
  .next (s.setFloat rd (Fmt.f32.ofInt (s.mode rm) (s.x ra).toInt))

/-- R120 FABS. -/
def execFabs (rd ra : Reg) (s : State) : Result := .next (s.setFloat rd (Fmt.f32.abs (s.f32 ra)))

/-- R120 FNEG. -/
def execFneg (rd ra : Reg) (s : State) : Result := .next (s.setFloat rd (Fmt.f32.negate (s.f32 ra)))

/-- R121: a fused multiply-add or multiply-subtract, rounded once by FCSR.RM. -/
def State.fused (s : State) (minus : Bool) (rd ra rb rc : Reg) : State :=
  s.setFloat rd (Fmt.f32.fma s.dynamicMode false minus (s.f32 ra) (s.f32 rb) (s.f32 rc))

/-- R121 FMA.S. -/
def execFmaS (rd ra rb rc : Reg) (s : State) : Result := .next (s.fused false rd ra rb rc)

/-- R121 FMS.S. -/
def execFmsS (rd ra rb rc : Reg) (s : State) : Result := .next (s.fused true rd ra rb rc)

end Sys2Proof.Machine
end

