-- ==== Sys2Proof/Machine/Tables.lean ====
section
/-!
DEFINITION. The tables that a launch record or a register leads to: slot tables (R302 to R305) and barrier-membership
images (R175, R176).
-/
namespace Sys2Proof.Machine

/-- What a read of tables comes to: a value, nothing where a page is unreadable, poisoned or malformed, or a wait of the
thread that reads (R296, R305). -/
inductive TableRead (α : Type) where
  | value (v : α)
  | bad
  | waits (w : Wait)

/-- The value that was read, if any. -/
def TableRead.value? {α : Type} : TableRead α → Option α
  | .value v => some v
  | .bad | .waits _ => none

/-- The reading goes on with the value of an earlier one. -/
def TableRead.next {α β : Type} (r : State × TableRead α) (k : State → α → State × TableRead β) : State × TableRead β :=
  match r with
  | (s, .value v) => k s v
  | (s, .bad) => (s, .bad)
  | (s, .waits w) => (s, .waits w)

/-- R163, R201, R328: what the executing thread waits for before it reads n bytes at va, whose key is a, as a GETR. -/
def State.tableWait (s : State) (die : Option Nat) (a n : Nat) : Option Wait :=
  if die.isSome then (s.lineHeld a n).map Wait.held else none

/-- Bytes of partition p's memory from va on, as the executing thread on a die reads them (R163) or at their coherence points,
read page by page through the partition's translation (R296, R305); in host-assisted page-walk mode the thread asks the monitor
for each page (R328). -/
def State.readPages (s : State) (die : Option Nat) (p : Nat) (va : Word) (n : Nat) : Nat → State × TableRead (List Byte)
  | 0 => (s, if n = 0 then .value [] else .bad)
  | f + 1 =>
    if n = 0 then (s, .value [])
    else if die.isSome && s.walkWaits va && (match classify va with | .home _ => true | _ => false) then
      (s.askWalk va .getr, .waits (.walk va))
    else match s.walkDevice p va .load with
      | none => (s, .bad)
      | some w =>
        let k := min n (65536 - va.toNat % 65536)
        match s.tableWait die w.a k with
        | some x => (s, .waits x)
        | none =>
          if s.poisoned w.a k then (s, .bad)
          else
            let (s, bs) := s.source die w.a k
            TableRead.next (s.readPages die p (va + word k) (n - k) f) (fun s r => (s, .value (bs ++ r)))

/-- `readPages` over all the pages the bytes can meet. -/
def State.readBy (s : State) (die : Option Nat) (p : Nat) (va : Word) (n : Nat) : State × TableRead (List Byte) :=
  s.readPages die p va n (n / 65536 + 2)

/-- What the device itself reads, at the coherence points. -/
def State.readVa (s : State) (p : Nat) (va : Word) (n : Nat) : Option (List Byte) := (s.readBy none p va n).2.value?

/-- The little-endian value of n bytes at an offset of a list. -/
def leAt (bs : List Byte) (off n : Nat) : Nat := leValue ((bs.drop off).take n)

/-! Slot tables. -/

/-- A row of a slot table and whether its zero fields are zero (R303). -/
def parseRow (bs : List Byte) : SlotRow × Bool :=
  (⟨leAt bs 0 4, leAt bs 4 4, leAt bs 8 2 % 1024, leAt bs 10 1 % 32, leAt bs 12 4, 0⟩,
   decide (leAt bs 8 2 < 1024) && decide (leAt bs 10 1 < 32) && leAt bs 11 1 == 0)

/-- The rows of a table's bytes, from row j on (R303). -/
def parseRows (bs : List Byte) (j : Nat) : Nat → List (SlotRow × Bool)
  | 0 => []
  | n + 1 => parseRow ((bs.drop (16 * j)).take 16) :: parseRows bs (j + 1) n

/-- R304: rows stand in non-decreasing order of START. -/
def startsRise : List SlotRow → Bool
  | r :: q :: rs => decide (r.start ≤ q.start) && startsRise (q :: rs)
  | _ => true

/-- R304: two rows with one rank and channel overlap in window. -/
def rowsClash : List SlotRow → Bool
  | [] => false
  | r :: rs =>
    rs.any (fun q => q.rank == r.rank && q.channel == r.channel && decide (q.start < r.stop) && decide (r.start < q.stop))
      || rowsClash rs

/-- R304: a table is well formed for partition p. -/
def State.tableOk (s : State) (p n phaseLen rsvd : Nat) (rows : List (SlotRow × Bool)) : Bool :=
  decide (1 ≤ n) && decide (n ≤ 256) && decide (1 ≤ phaseLen) && rsvd == 0 && rows.all (·.2)
    && rows.all (fun e => decide (e.1.start < e.1.stop) && decide (e.1.stop ≤ phaseLen) && decide (1 ≤ e.1.limit)
        && decide (e.1.limit ≤ 2^20) && Sparse.get (s.part p).ranks e.1.rank .invalid != .invalid)
    && startsRise (rows.map (·.1)) && !rowsClash (rows.map (·.1))

/-- R303 to R305: reads and checks the slot table at va. -/
def State.tableBy (s : State) (die : Option Nat) (p : Nat) (va : Word) : State × TableRead (List SlotRow) :=
  TableRead.next (s.readBy die p va 16) (fun s h =>
    let n := leAt h 0 4
    if n = 0 ∨ 256 < n then (s, .bad)
    else TableRead.next (s.readBy die p (va + 16) (16 * n)) (fun s b =>
      let rows := parseRows b 0 n
      (s, if s.tableOk p n (leAt h 4 4) (leAt h 8 8) rows then .value (rows.map (·.1)) else .bad)))

/-- The table that the device reads at va. -/
def State.loadTable (s : State) (p : Nat) (va : Word) : Option (List SlotRow) := (s.tableBy none p va).2.value?

/-- R302: the address of a rank's table in the directory at va, 0 without a table. -/
def State.directoryEntry (s : State) (die : Option Nat) (p : Nat) (va : Word) (rank : Nat) : State × TableRead Nat :=
  TableRead.next (s.readBy die p (va + word (8 * rank)) 8) (fun s bs => (s, .value (leValue bs)))

/-- R296, R302: the table that a directory leads to for a rank is readable and well formed, or there is none. -/
def State.entryTableOk (s : State) (die : Option Nat) (p : Nat) (va : Word) (rank : Nat) : State × TableRead Unit :=
  TableRead.next (s.directoryEntry die p va rank) (fun s a =>
    if a = 0 then (s, .value ()) else TableRead.next (s.tableBy die p (word a)) (fun s _ => (s, .value ())))

/-- R296, R302: the same for the ranks of a list. -/
def State.directoryOk (s : State) (die : Option Nat) (p : Nat) (va : Word) : List Nat → State × TableRead Unit
  | [] => (s, .value ())
  | r :: rs => TableRead.next (s.entryTableOk die p va r) (fun s _ => s.directoryOk die p va rs)

/-! Barrier images. -/

/-- R175: the image is well formed, for a partition with `bars` Weir barriers. A package-level count above 4096, which the
field's range shuts out and the list of malformed images does not name, is malformed too (DESIGN CHOICE, log entry 69). -/
def imageOk (bars : Nat) (bs : List Byte) : Bool :=
  let c := leAt bs 0 8
  let level := field c 0 2
  let mask := leAt bs 16 16
  let zeros := field c 2 2 == 0 && field c 13 3 == 0 && field c 22 10 == 0 && field c 45 19 == 0 && leAt bs 8 8 == 0
    && leAt bs 32 32 == 0
  let cluster := field c 8 5
  let weir := field c 16 6
  let count := field c 32 13
  zeros &&
  (match level with
   | 0 => c == 0 && mask == 0
   | 1 => field c 4 4 != 0 && mask != 0 && decide (mask < 16) && weir == 0 && count == 0
   | 2 => field c 4 4 != 0 && mask != 0 && cluster == 0 && weir == 0 && count == 0
   | _ => field c 4 4 != 0 && mask != 0 && cluster == 0 && decide (1 ≤ count) && decide (count ≤ 4096)
       && decide (weir < bars))

/-- The key of domain n of die d (R31). -/
def domainKey (d n : Nat) : Nat := 16 * d + n

/-- Domain k. -/
def State.domain (s : State) (k : Nat) : Domain := Sparse.get s.domains k Domain.reset

/-- The state with domain k set. -/
def State.setDomain (s : State) (k : Nat) (d : Domain) : State := { s with domains := Sparse.set s.domains k d }

/-- R31: thread t of die k / 16 is a member: its core and its thread number are masked. -/
def Domain.member (d : Domain) (t : Nat) : Bool :=
  let i := coreOf t % 128
  d.threads.getLsbD (t % 4) &&
  (match d.level with
   | 0 => false
    | _ => d.cores.getLsbD i)

/-- The members of a domain on die k / 16. -/
def Domain.members (d : Domain) (k : Nat) : List Nat :=
  ((List.range 512).map (· + 512 * (k / 16))).filter d.member

/-- The Weir barrier of a package-level domain (R177). -/
def State.weirOf (s : State) (d : Domain) : Nat := (s.part (d.part.getD 63)).barriers.1 + d.weir

/-- Weir barrier b. -/
def State.weirBar (s : State) (b : Nat) : WeirBarrier := Sparse.get s.weirBars b ⟨0, 0, 0⟩

/-- R176: a domain with an image installed: no arrivals, the generation number kept; the members' next generation is the
domain's open one. -/
def Domain.install (d : Domain) (bs : List Byte) (p : Nat) (launch : Option Nat) : Domain :=
  let c := leAt bs 0 8
  { d with
    level := field c 0 2
    threads := BitVec.ofNat 4 (field c 4 4)
    weir := field c 16 6
    count := field c 32 13
    cores := BitVec.ofNat 128 (leAt bs 16 16 * (if field c 0 2 = 1 then 2^(4 * field c 8 5) else 1))
    part := some p
    launch := launch
    base := d.gen
    arrived := []
    left := []
    early := [] }

/-- R32: the domains of partition p that name Weir barrier `weir` at package level. -/
def State.sharing (s : State) (p : Option Nat) (weir : Nat) : List (Nat × Domain) :=
  s.domains.filter (fun e => e.2.level == 3 && e.2.part == p && e.2.weir == weir)

/-- R35, R174: a member of the domain has arrived in a generation that is not complete. -/
def Domain.holdsArrival (d : Domain) : Bool := !d.arrived.isEmpty || !d.early.isEmpty

/-- The thread waits in BAR or STEP at domain k, whose generation may have completed (R314). -/
def Thread.waitsAt (x : Thread) (k : Nat) : Bool :=
  match x.status with
  | .blocked (.barrier j _) _ => j == k
  | _ => false

/-- R31, R176, R299: a member of domain k waits in BAR or STEP, held there (R314) or not, on its core or in a saved context; a
package-level domain's on any die. -/
def State.memberWaits (s : State) (k : Nat) : Bool :=
  let d := s.domain k
  let ks := k :: (if d.level = 3 then (s.sharing d.part d.weir).map (·.1) else [])
  ks.any (fun j => (s.domain j).holdsArrival || s.threads.any (fun e => e.2.waitsAt j)
    || s.saved.any (fun v => v.snapshot.threads.any (fun e => e.2.waitsAt j)))

/-- R31: the arrivals of the open generation at Weir barrier `weir` of partition p. -/
def State.arrivals (s : State) (p : Option Nat) (weir : Nat) : Nat :=
  ((s.sharing p weir).map (fun e => e.2.arrived.length)).sum

/-- R35: the arrivals of generation g, after the open one, at Weir barrier `weir` of partition p. -/
def State.earlyArrivals (s : State) (p : Option Nat) (weir g : Nat) : Nat :=
  ((s.sharing p weir).map (fun e => (e.2.early.filter (fun x => x.1 == g)).length)).sum

/-- R35, R176: an image is installed; at package level it also sets the Weir barrier's count, and its open generation holds
the arrivals of the members that wait on other dies, which nothing withdraws. -/
def State.installImage (s : State) (k : Nat) (bs : List Byte) (p : Nat) (launch : Option Nat) : State :=
  let d := (s.domain k).install bs p launch
  let s := s.setDomain k d
  if d.level = 3 then
    let b := s.weirOf d
    { s with weirBars := Sparse.set s.weirBars b { s.weirBar b with count := d.count, arrived := s.arrivals d.part d.weir } }
  else s

end Sys2Proof.Machine
end

