-- ==== Sys2Proof/Machine/Branch.lean ====
section
/-!
DEFINITION. Branches, jumps and hardware loops (R122 to R129).
-/
namespace Sys2Proof.Machine

/-- R123: a branch: taken to W + 4 * sext(off13) when the condition holds. -/
def State.branch (s : State) (c : Bool) (off : BitVec 13) : State :=
  if c then s.flowTo (.taken (offsetTarget s.at off)) else s

/-- R123 BEQ. -/
def execBeq (ra rb : Reg) (off : BitVec 13) (s : State) : Result := .next (s.branch (s.x ra == s.x rb) off)

/-- R123 BNE. -/
def execBne (ra rb : Reg) (off : BitVec 13) (s : State) : Result := .next (s.branch (s.x ra != s.x rb) off)

/-- R123 BLT. -/
def execBlt (ra rb : Reg) (off : BitVec 13) (s : State) : Result := .next (s.branch ((s.x ra).slt (s.x rb)) off)

/-- R123 BGE. -/
def execBge (ra rb : Reg) (off : BitVec 13) (s : State) : Result := .next (s.branch (!(s.x ra).slt (s.x rb)) off)

/-- R123 BLTU. -/
def execBltu (ra rb : Reg) (off : BitVec 13) (s : State) : Result := .next (s.branch ((s.x ra).ult (s.x rb)) off)

/-- R123 BGEU. -/
def execBgeu (ra rb : Reg) (off : BitVec 13) (s : State) : Result := .next (s.branch (!(s.x ra).ult (s.x rb)) off)

/-- R124: x[rd] := link, and the transfer. -/
def State.jump (s : State) (rd : Reg) (target : Word) : State := (s.setX rd s.link).flowTo (.taken target)

/-- R124 JAL. -/
def execJal (rd : Reg) (off : BitVec 19) (s : State) : Result := .next (s.jump rd (offsetTarget s.at off))

/-- R124 JALR: the target is formed from the old x[ra]; bits 1:0 that are not zero raise MISALIGN. -/
def execJalr (rd ra : Reg) (imm : BitVec 13) (s : State) : Result :=
  let t := s.x ra + immediate imm
  if t &&& 3 ≠ 0 then .next (s.fault .misalign t 0) else .next (s.jump rd t)

/-! Hardware loops. -/

/-- A word of LPOUTER (R125): COUNT, DIST, LEN. -/
def lpOuterWord (count dist len : Nat) : Word := word (count % 2^32 * 2^32 + dist % 2^16 * 2^16 + len % 2^16)

/-- R125: LPOUTER.COUNT. -/
def Thread.outerCount (t : Thread) : Nat := field t.lpouter.toNat 32 32

/-- The bits of an executing word, with the lone bit of a first word (R147: TVAL2 of ILLEGAL). -/
def State.wordBits (s : State) (i : Instr) : Word :=
  word ((encodeWord i).getD 0 + (if s.loneFirst then 2^31 else 0))

/-- An ILLEGAL raised by an executing word, with its sub-code (R148). -/
def State.illegal (s : State) (i : Instr) (sub : BitVec 8) : State :=
  s.raise ⟨.illegal, s.at, s.wordBits i, sub, 0xFF⟩

/-- The loop CSRs as they read. -/
def Thread.loopRegs (t : Thread) : LoopRegs := ⟨t.lpstart, t.lpend, t.lpcount, t.lpouter⟩

/-- R125: the loop CSRs in force for the bundle: a value that the bundle has written governs the next one. -/
def Thread.loopInForce (t : Thread) : LoopRegs := t.loopHeld.getD t.loopRegs

/-- R125: the thread with loop CSR number n (LPSTART, LPEND, LPCOUNT, LPOUTER) marked as written by the bundle. -/
def Thread.holdLoop (t : Thread) (n : Nat) : Thread :=
  { t with loopHeld := some t.loopInForce, loopWritten := t.loopWritten ||| BitVec.ofNat 4 (2^n) }

/-- R126: bundle b is left for e once it completes. -/
def Thread.addSkip (t : Thread) (b e : Word) : Thread := { t with skip := (b, e) :: t.skip.filter (fun k => k.1 != b) }

/-- R126 LOOP. What it writes replaces what its own bundle has written of the loop CSRs (log entry 62). -/
def execLoop (ra : Reg) (off : BitVec 13) (s : State) : Result :=
  let b := bundleOf s.at
  let e := bundleOf (offsetTarget s.at off)
  let n : BitVec 32 := s.x32 ra
  let f := s.me.loopInForce
  if s.me.lh then .next (s.illegal (.loop ra off) 3)
  else if n = 0 then .next (s.modMe (fun t => t.addSkip b (e + 8)))
  else if f.count ≠ 0 then
    (if f.outer.toNat / 2^32 ≠ 0 then .next (s.illegal (.loop ra off) 1)
     else if f.stop.ult e then .next (s.illegal (.loop ra off) 2)
     else .next (s.modMe (fun t => { t with
       lpouter := lpOuterWord f.count.toNat ((b + 8 - f.start) >>> 3).toNat ((f.stop - f.start) >>> 3).toNat
       lpstart := b + 8
       lpend := e
       lpcount := n
       loopHeld := none
       loopWritten := 0 })))
  else .next (s.modMe (fun t => { t with lpstart := b + 8, lpend := e, lpcount := n, loopHeld := none, loopWritten := 0 }))

/-- R127: pops a loop: the saved enclosing loop becomes the active one, or none is. -/
def Thread.popLoop (t : Thread) : Thread :=
  if t.outerCount ≠ 0 then
    let st := t.lpstart - 8 * word (field t.lpouter.toNat 16 16)
    { t with
      lpstart := st
      lpend := st + 8 * word (field t.lpouter.toNat 0 16)
      lpcount := BitVec.ofNat 32 t.outerCount
      lpouter := 0 }
  else { t with lpstart := 0, lpend := 0, lpcount := 0, lpouter := 0 }

/-- R127: end processing at bundle b: the thread and where it goes on. Two loops nest, so two rounds suffice; fuel counts
them. -/
def Thread.loopEnd (t : Thread) (b : Word) : Nat → Thread × Option Word
  | 0 => (t, none)
  | n + 1 =>
    if t.lpcount ≠ 0 ∧ b = t.lpend then
      (if t.lpcount - 1 ≠ 0 then ({ t with lpcount := t.lpcount - 1 }, some t.lpstart)
       else ({ t with lpcount := 0 } : Thread).popLoop.loopEnd b n)
    else (t, none)

/-- R128: a taken transfer to T pops every loop whose body T lies outside of. -/
def Thread.popOutside (t : Thread) (target : Word) : Nat → Thread
  | 0 => t
  | n + 1 =>
    if t.lpcount ≠ 0 ∧ (target.ult t.lpstart ∨ (t.lpend + 4).ult target) then t.popLoop.popOutside target n else t

/-- R125: what leaving the bundle does to the loop CSRs works on those in force for it; those that the bundle has written
then hold the written values. -/
def Thread.inLoopForce (t : Thread) (f : Thread → Thread × Option Word) : Thread × Option Word :=
  match t.loopHeld with
  | none => f t
  | some h =>
    let r := f { t with lpstart := h.start, lpend := h.stop, lpcount := h.count, lpouter := h.outer }
    ({ r.1 with
      lpstart := if t.loopWritten.getLsbD 0 then t.lpstart else r.1.lpstart
      lpend := if t.loopWritten.getLsbD 1 then t.lpend else r.1.lpend
      lpcount := if t.loopWritten.getLsbD 2 then t.lpcount else r.1.lpcount
      lpouter := if t.loopWritten.getLsbD 3 then t.lpouter else r.1.lpouter
      loopHeld := none
      loopWritten := 0 }, r.2)

end Sys2Proof.Machine
end

