-- ==== Sys2Proof/Machine/Csr.lean ====
section
/-!
DEFINITION. Control and status registers (R71, R72, R130, R131).
-/
namespace Sys2Proof.Machine

/-- The CSRs of R71. -/
inductive CsrName where
  | tstat | tcause | tval | tval2 | tepc | tvec | tscratch | fcsr | thread | part | scopecap | cycle | phasecyc | ptptime
  | lpstart | lpend | lpcount | lpouter | mxfmta | mxfmtb | mxbanda | mxbandb | mxout | resv | rmode | rclass | rlevel
  | pcap | pdrain | rmargin | pscale | vshare | vl | spepoch | spstatus | sigstat | slotbase | slotcur | lfsrseed
  | watchA (n : Fin 4)
  | watchM (n : Fin 4)
  deriving DecidableEq, Repr

/-- R71: the CSR of an address; none for an address that is not implemented. -/
def csrOf (a : BitVec 12) : Option CsrName :=
  match a.toNat with
  | 0x000 => some .tstat | 0x001 => some .tcause | 0x002 => some .tval | 0x003 => some .tval2 | 0x004 => some .tepc
  | 0x005 => some .tvec | 0x006 => some .tscratch | 0x008 => some .fcsr | 0x010 => some .thread | 0x011 => some .part
  | 0x012 => some .scopecap | 0x020 => some .cycle | 0x021 => some .phasecyc | 0x022 => some .ptptime
  | 0x030 => some .lpstart | 0x031 => some .lpend | 0x032 => some .lpcount | 0x033 => some .lpouter
  | 0x040 => some .mxfmta | 0x041 => some .mxfmtb | 0x042 => some .mxbanda | 0x043 => some .mxbandb | 0x044 => some .mxout
  | 0x050 => some .resv | 0x051 => some .rmode | 0x052 => some .rclass | 0x053 => some .rlevel | 0x054 => some .pcap
  | 0x055 => some .pdrain | 0x056 => some .rmargin | 0x057 => some .pscale | 0x060 => some .vshare | 0x061 => some .vl
  | 0x070 => some .spepoch | 0x071 => some .spstatus | 0x080 => some .sigstat | 0x090 => some .slotbase
  | 0x091 => some .slotcur | 0x0A0 => some .lfsrseed
  | 0x0B0 => some (.watchA 0) | 0x0B1 => some (.watchM 0) | 0x0B2 => some (.watchA 1) | 0x0B3 => some (.watchM 1)
  | 0x0B4 => some (.watchA 2) | 0x0B5 => some (.watchM 2) | 0x0B6 => some (.watchA 3) | 0x0B7 => some (.watchM 3)
  | _ => none

/-- R71: app code may read the CSR. -/
def CsrName.appReads : CsrName → Bool
  | .tstat | .tcause | .tval | .tval2 | .tepc | .tvec | .tscratch => false
  | _ => true

/-- R71: app code may write the CSR. -/
def CsrName.appWrites : CsrName → Bool
  | .fcsr | .mxfmta | .mxfmtb | .mxbanda | .mxbandb | .mxout | .rclass | .vl | .lfsrseed => true
  | .watchA _ | .watchM _ => true
  | _ => false

/-- R71: supervisor code may write the CSR. -/
def CsrName.supervisorWrites : CsrName → Bool
  | .thread | .part | .cycle | .phasecyc | .ptptime | .resv | .rlevel | .pcap | .pdrain | .pscale | .spepoch | .spstatus
  | .slotcur => false
  | _ => true

/-- R72: the access is allowed at the thread's level. -/
def CsrName.allows (n : CsrName) (supervisor write : Bool) : Bool :=
  if supervisor then !write || n.supervisorWrites else n.appReads && (!write || n.appWrites)

/-- R131: THREAD. -/
def State.threadWord (s : State) (t : Nat) : Word :=
  let c := coreOf t
  let p := s.physicalOf c
  word (p % 8 * 2^32 + p / 8 * 2^24 + t % 4 * 2^16 + (s.coreAt c).rank)

/-- R368: the state code of a spore. -/
def SporeState.code : SporeState → Nat
  | .idle => 0 | .armed => 1 | .capture => 2 | .sealing => 3 | .committed => 4 | .failed => 5

/-- R146: SIGSTAT. -/
def Thread.sigstat (t : Thread) : Word :=
  word ((t.chkC.toNat * 512 + t.chkD.toNat) * 2^32 + bit t.sigMis * 2 + bit t.sigEn)

/-- The code of a scope (R147, R158). -/
def scopeCode : Scope → Nat
  | .core => 0 | .die => 1 | .pkg => 2 | .sys => 3

/-- R131, R158, R225, R270, R301, R305, R368: the CSRs that the core, the partition or the package holds. -/
def State.sharedCsr (s : State) : CsrName → Word
  | .thread => s.threadWord s.cur
  | .part => word (s.partOf s.cur)
  | .scopecap =>
    word (bit s.me.clip * 2^9 + bit s.me.clipTrap * 2^8 + scopeCode (s.part (s.partOf s.cur)).ceiling)
  | .cycle => word (s.coreAt s.here).cycle
  | .phasecyc => word ((s.coreAt s.here).cycle - (s.coreAt s.here).phaseStart)
  | .ptptime => word s.now
  | .rclass => word ((s.part (s.partOf s.cur)).priority * 2^8 + s.me.rclass.toNat)
  | .rlevel => word (bit s.sluiceClosed * 2^12 + s.me.req.toNat * 2^4 + (s.coreAt s.here).level.toNat)
  | .pcap => word ((s.part (s.partOf s.cur)).pcap % 2^40)
  | .pdrain =>
    let q := s.part (s.partOf s.cur)
    word (bit q.fixed * 2^63 + q.share % 2^28 * 2^28 + q.rate % 2^28)
  | .pscale => word ((s.part (s.partOf s.cur)).k % 16)
  | .vshare => (s.coreAt s.here).vshare.setWidth 64
  | .spepoch =>
    let sp := (s.part (s.partOf s.cur)).spore
    word (sp.last % 2^32 * 2^32 + sp.cur % 2^32)
  | .spstatus =>
    let sp := (s.part (s.partOf s.cur)).spore
    word (sp.fail * 2^24 + bit sp.restarted * 2^16 + sp.state.code)
  | .slotbase => (s.coreAt s.here).slotBase
  | .slotcur =>
    (match (s.coreAt s.here).slotCur with
     | some i => word (i % 512)
     | none => word (2^63))
  | _ => 0

/-- R71, R130: the value a CSR reads. -/
def State.readCsr (s : State) (n : CsrName) : Word :=
  let t := s.me
  match n with
  | .tstat => t.tstat
  | .tcause => t.tcause
  | .tval => t.tval
  | .tval2 => t.tval2
  | .tepc => t.tepc
  | .tvec => t.tvec
  | .tscratch => t.tscratch
  | .fcsr => t.fcsr.setWidth 64
  | .lpstart => t.lpstart
  | .lpend => t.lpend
  | .lpcount => t.lpcount.setWidth 64
  | .lpouter => t.lpouter
  | .mxfmta => t.mxfmta.setWidth 64
  | .mxfmtb => t.mxfmtb.setWidth 64
  | .mxbanda => t.mxbanda
  | .mxbandb => t.mxbandb
  | .mxout => t.mxout.setWidth 64
  | .resv => word (t.resv % 2^40)
  | .rmode => word (bit t.met)
  | .rmargin => word (t.rmargin % 2^40)
  | .vl => word t.vl
  | .sigstat => t.sigstat
  | .lfsrseed => t.lfsr.setWidth 64
  | .watchA i => t.watchA.get i
  | .watchM i => t.watchM.get i
  | n => s.sharedCsr n

/-- R254: the formats that MXFMTA and MXFMTB accept. -/
def mxInputCode (n : Nat) : Bool := decide (n ≤ 4) || (decide (8 ≤ n) && decide (n ≤ 10))

/-- R254: the formats that MXOUT accepts. -/
def mxOutputCode (n : Nat) : Bool := mxInputCode n || n == 12

/-- R254: a written format code, kept out when the CSR does not accept it. The whole written value is the code field 3:0;
bits 63:4 are ignored. -/
def formatWrite (ok : Nat → Bool) (old : BitVec 4) (v : Word) : BitVec 4 :=
  if ok (v.toNat % 16) then BitVec.ofNat 4 v.toNat else old

/-- R255: the bits of a band pointer: EN and OFF without bit 0. -/
def bandWrite (v : Word) : Word := v &&& 0x80000000000FFFFE

/-- R221: the length that a write of VL gives. -/
def vlWrite (v : Word) : Nat := min v.toNat 32

/-- R132: a write of TSTAT; PRIV keeps its value. -/
def tstatWrite (old v : Word) : Word :=
  tstatWord (subOf v) (laneOf v) (v.getLsbD 9) (old.getLsbD 8) (v.getLsbD 7) (v.getLsbD 6)

/-- The thread with one of its own CSRs written (R94, R104, R125, R132, R133, R146, R158, R221, R254, R255, R270, R360);
read-only bits keep their values. A supervisor's write of SCOPECAP gives CLIP the written bit: the rule has the core set it and
a supervisor's write clear it, and does not say what a written 1 does (DESIGN CHOICE, log entry 63). -/
def Thread.writeCsr (t : Thread) (n : CsrName) (v : Word) : Thread :=
  match n with
  | .tstat => { t with tstat := tstatWrite t.tstat v }
  | .tcause => { t with tcause := v }
  | .tval => { t with tval := v }
  | .tval2 => { t with tval2 := v }
  | .tepc => { t with tepc := v }
  | .tvec => { t with tvec := bundleOf v }
  | .tscratch => { t with tscratch := v }
  | .fcsr => { t with fcsr := fcsrWrite t.fcsr v }
  | .scopecap => { t with clip := v.getLsbD 9, clipTrap := v.getLsbD 8 }
  | .lpstart => { t.holdLoop 0 with lpstart := bundleOf v }
  | .lpend => { t.holdLoop 1 with lpend := bundleOf v }
  | .lpcount => { t.holdLoop 2 with lpcount := v.setWidth 32 }
  | .lpouter => { t.holdLoop 3 with lpouter := v }
  | .mxfmta => { t with mxfmta := formatWrite mxInputCode t.mxfmta v }
  | .mxfmtb => { t with mxfmtb := formatWrite mxInputCode t.mxfmtb v }
  | .mxbanda => { t with mxbanda := bandWrite v }
  | .mxbandb => { t with mxbandb := bandWrite v }
  | .mxout => { t with mxout := formatWrite mxOutputCode t.mxout v }
  | .rmode => if t.resv ≠ 0 ∨ t.req ≠ 0 then t else { t with met := v.getLsbD 0 }
  | .rclass => { t with rclass := v.setWidth 3 }
  | .rmargin => { t with rmargin := field v.toNat 0 40 }
  | .vl => { t with vl := vlWrite v }
  | .sigstat => { t with sigEn := v.getLsbD 0, sigMis := v.getLsbD 1 }
  | .lfsrseed => { t with lfsr := lfsrWrite v }
  | .watchA i => { t with watchA := t.watchA.set i.val v i.isLt }
  | .watchM i => { t with watchM := t.watchM.set i.val (v &&& 0x3F3F) i.isLt }
  | _ => t

/-- R305: a write of SLOTBASE reads and checks the table; a good one takes effect when the next communication phase opens,
a bad one leaves the table in place. The thread goes on by `k`, or waits while it reads. -/
def State.writeSlotBase (s : State) (v : Word) (k : State → State) : State :=
  match s.tableBy (some (dieOf s.here)) (s.partOf s.cur) v with
  | (s, .waits w) => s.wait w
  | (s, .bad) => k s
  | (s, .value rows) => k (s.modCore s.here (fun k => { k with slotNext := some (v, rows) }))

/-- R130: a CSR other than SLOTBASE takes a written value. -/
def State.writeCsr (s : State) (n : CsrName) (v : Word) : State :=
  match n with
  | .vshare => s.modCore s.here (fun k => { k with vshare := v.setWidth 4 })
  | n => s.modMe (fun t => t.writeCsr n v)

/-- A thread's entries are still in the core's vector queue (R96). -/
def State.vectorBusy (s : State) (t : Nat) : Bool := (s.coreAt (coreOf t)).vqueue.any (fun q => q.thread == t)

/-- R96: an access to FCSR or LFSRSEED waits until the thread's vector operations have retired. -/
def CsrName.waitsForVector : CsrName → Bool
  | .fcsr | .lfsrseed => true
  | _ => false

/-- R305: a write of SLOTBASE reads a table. -/
def CsrName.readsTable : CsrName → Bool
  | .slotbase => true
  | _ => false

/-- R130: reads a CSR into rd and, where `new` gives one, writes a value formed from the old one. -/
def State.accessCsr (s : State) (i : Instr) (rd : Reg) (csr : BitVec 12) (new : Option (Word → Word)) : State :=
  match csrOf csr with
  | none => s.illegal i 0
  | some n =>
    if !n.allows s.me.supervisor new.isSome then s.fault .access (csr.setWidth 64) 0
    else if n.waitsForVector && s.vectorBusy s.cur then s.wait .vectorRetired
    else if n.readsTable && new.isSome && s.writesBusy s.cur then s.wait .writesDone
    else
      let old := s.readCsr n
      match new with
      | none => s.setX rd old
      | some f =>
        if n.readsTable then s.writeSlotBase (f old) (fun s => s.setX rd old) else (s.writeCsr n (f old)).setX rd old

/-- R130 CSRRW. -/
def execCsrrw (rd ra : Reg) (csr : BitVec 12) (s : State) : Result :=
  let v := s.x ra
  .next (s.accessCsr (.csrrw rd ra csr) rd csr (some (fun _ => v)))

/-- R130 CSRRS: writes only when the ra field is not zero (R72). -/
def execCsrrs (rd ra : Reg) (csr : BitVec 12) (s : State) : Result :=
  let v := s.x ra
  .next (s.accessCsr (.csrrs rd ra csr) rd csr (if ra = 0 then none else some (fun old => old ||| v)))

end Sys2Proof.Machine
end

