-- ==== Sys2Proof/Machine/Order.lean ====
section
/-!
DEFINITION. The order of a thread's accesses: what performs an access at a scope (R154), releases (R205, R207), forwarding
and overlap (R151, R163, R215), and the scope ceiling (R158).
-/
namespace Sys2Proof

/-- The element bytes of a vector memory word and whether it stores; none for another word (R235). -/
def Instr.vectorMemory : Instr → Option (Nat × Bool)
  | .vld _ _ _ e | .vlds _ _ _ e | .vldf _ _ _ e => some (e.bytes, false)
  | .vst _ _ _ e | .vsts _ _ _ e | .vstf _ _ _ e => some (e.bytes, true)
  | _ => none

end Sys2Proof

namespace Sys2Proof.Machine

/-! Overlap with the thread's own earlier accesses. -/

/-- A queued entry accesses some byte of a .. a+n-1. -/
def VEntry.touches (e : VEntry) (a n : Nat) : Bool :=
  match e.word.vectorMemory with
  | some (b, _) => e.addrs.any (fun k => overlaps k b a n)
  | none => false

/-- R215: an entry of thread t in its core's queue accesses some byte of a .. a+n-1. -/
def State.vectorOverlap (s : State) (t a n : Nat) : Bool :=
  (s.coreAt (coreOf t)).vqueue.any (fun q => q.thread == t && q.body.any (fun e => e.touches a n))

/-- A buffered store writes some byte of a .. a+n-1. -/
def Store.hits (x : Store) (a n : Nat) : Bool :=
  match x.place with
  | .mem k => overlaps k x.size a n
  | .staging _ => false

/-- R151: a buffered store writes every byte of a .. a+n-1. -/
def Store.covers (x : Store) (a n : Nat) : Bool :=
  match x.place with
  | .mem k => decide (k ≤ a) && decide (a + n ≤ k + x.size)
  | .staging _ => false

/-- The bytes of a store from key a on, as a value. -/
def Store.valueAt (x : Store) (a : Nat) : Nat :=
  match x.place with
  | .mem k => x.data.toNat / 256^(a - k)
  | .staging _ => 0

/-- A PUTR that is not yet written where its path leads writes some byte of a .. a+n-1 (R196). -/
def Put.hits (x : Put) (a n : Nat) : Bool := x.stage != .performed && overlaps x.a x.size a n

/-- R163, R164: a PUTR of thread t in the NI, performed at PKG or not, overlaps a .. a+n-1. -/
def State.putOverlap (s : State) (t a n : Nat) : Bool := (s.thread t).puts.any (fun x => overlaps x.a x.size a n)

/-- R150, R348: what a word of thread t consumes of the bytes a .. a+n-1 holds an error: a poisoned granule that no store in
the thread's buffer and no PUTR of it covers whole. -/
def State.poisonedFor (s : State) (t a n : Nat) : Bool :=
  s.poison.any (fun g => overlaps a n g (granuleSize g) &&
    !(s.thread t).buffer.any (fun x => x.covers g (granuleSize g)) &&
    !(s.thread t).puts.any (fun x => decide (x.a ≤ g) && decide (g + granuleSize g ≤ x.a + x.size)))

/-- R151, R163, R196, R215: an earlier access of thread t to these bytes is still under way. -/
def State.overlapBusy (s : State) (t a n : Nat) : Bool :=
  (s.thread t).buffer.any (fun x => x.hits a n) || (s.thread t).puts.any (fun x => x.hits a n) || s.vectorOverlap t a n

/-- R151: what a load of the executing thread takes from its own store buffer: the newest overlapping store's bytes, or a
wait. -/
inductive Forwarded where
  | value (v : Nat)
  | waits
  | none
  deriving DecidableEq, Repr

/-- R151, R196, R215: the thread's own earlier accesses to the bytes of a load. -/
def State.forwarded (s : State) (a n : Nat) : Forwarded :=
  if s.vectorOverlap s.cur a n || s.me.puts.any (fun x => x.hits a n) then .waits
  else match s.me.buffer.reverse.find? (fun x => x.hits a n) with
    | some x => if x.covers a n then .value (x.valueAt a % 256^n) else .waits
    | none => .none

/-! Releases. -/

/-- R154, R200, R201: a PUTR of a thread on a die is seen by every agent of the die: an early one to another die's window
stands in the die's forward table, one to the own window is written, any other one has left the NI. R154 has it "accepted
by the NI" here, R200 has a FENCE at the flag's scope serve for PUTRs; the model takes the NI to accept it when the die sees
it (DEDUCED, log entry 71). -/
def Put.seenBy (x : Put) (die : Nat) : Bool :=
  match x.stage with
  | .queued | .lost _ => false
  | .sent => isHbm x.a && stackOf x.a != die && !x.g
  | .performed => !x.g

/-- R154: every access of thread t older than `stamp` is performed at a scope. At PKG and SYS that takes the NI's PUTRs and
the dirty notices of the thread's own writes, not those of its copy commands. -/
def State.performedBefore (s : State) (t stamp : Nat) (scope : Scope) : Bool :=
  let x := s.thread t
  x.buffer.all (fun e => decide (stamp ≤ e.id)) &&
  (match scope with
   | .core | .die => x.puts.all (fun e => decide (stamp ≤ e.id) || e.seenBy (dieOf (coreOf t)))
   | .pkg | .sys =>
     x.puts.all (fun e => decide (stamp ≤ e.id)) &&
       s.notices.all (fun n => n.engine || n.thread != t || decide (stamp ≤ n.origin)))

/-- R154: every access of thread t so far is performed at a scope. -/
def State.performed (s : State) (t : Nat) (scope : Scope) : Bool := s.performedBefore t s.nextId scope

/-- R154, R207: at SYS the lines that the thread wrote early are written back to the Basin. -/
def State.writeBack (s : State) (t : Nat) : State :=
  (s.recallAll (s.thread t).dirty).modThread t (fun x => { x with dirty := [] })

/-- A thread's vector memory entries are still queued (R215). -/
def State.vectorMemoryBusy (s : State) (t : Nat) : Bool :=
  (s.coreAt (coreOf t)).vqueue.any (fun q => q.thread == t && q.body.any (fun e => e.word.vectorMemory.isSome))

/-- The condition of a release of thread t at a scope (R154, R215). -/
def State.released (s : State) (t : Nat) (scope : Scope) (vector : Bool) : Bool :=
  s.performed t scope && !(vector && s.vectorMemoryBusy t)

/-- R205: the executing word goes on once its release is performed. -/
def State.releasing (s : State) (scope : Scope) (vector : Bool) (k : State → State) : State :=
  if s.released s.cur scope vector then k (if scope = .sys then s.writeBack s.cur else s)
  else s.wait (.performed scope vector)

/-! The scope ceiling. -/

/-- R158: a scope asked for, under the partition's ceiling. -/
inductive Clipped where
  | as (scope : Scope) (clip : Bool)
  | refused
  deriving DecidableEq, Repr

/-- R158: clips a scope at the ceiling, or refuses it when CLIPTRAP is set. -/
def clipScope (ceiling asked : Scope) (trap : Bool) : Clipped :=
  if scopeCode ceiling < scopeCode asked then (if trap then .refused else .as ceiling true) else .as asked false

/-- R158: the word goes on with the scope in force, or raises SCOPE. -/
def State.clipping (s : State) (asked : Scope) (k : State → Scope → State) : State :=
  match clipScope (s.part (s.partOf s.cur)).ceiling asked s.me.clipTrap with
  | .refused => s.fault .scope 0 (word (scopeCode asked))
  | .as scope c => k (if c then s.modMe (fun t => { t with clip := true }) else s) scope

/-! Watchpoints of the executing thread. -/

/-- R361: an access whose every other cause has passed: the thread's own watch raises its trap, else the other watchers are
told and the access takes effect. -/
def State.watching (s found : State) (w : Watched) (va : Word) (n : Nat) (k : State → State) : State :=
  match s.ownWatch w va n with
  | some i => s.fault (.watch i) va 0
  | none => k (found.watched s.cur w va n)

/-- The watched form of a use by the executing thread. -/
def State.asWatched (s : State) (u : Use) : Watched := ⟨s.here, false, false, u.kind.writes, u.kind.reads⟩

/-! The forward table and held lines. -/

/-- R193, R202: what die d has entered in its forward table before write number id, and not yet committed, overlaps the n
bytes at a. The agents of the die see it already, so a later write of the die commits after it (DEDUCED, log entry 72). -/
def State.forwardAhead (s : State) (die id a n : Nat) : Bool :=
  (s.forwards.takeWhile (fun f => f.id != id)).any (fun f =>
    f.die == die && f.stage == .pending && overlaps f.a f.size a n)

/-- R202: die d's forward table holds a line; an entry whose notice was lost waits for nothing more (log entry 72). -/
def State.forwardsLine (s : State) (die line : Nat) : Bool :=
  s.forwards.any (fun f => f.die == die && f.stage != .lost && f.inLine line)

/-- R201: the Basin holds reads of some line of a .. a+n-1 for another request than r. -/
def State.lineHeldFor (s : State) (r a n : Nat) : Bool :=
  (linesOf a n).any (fun l => s.heldLines.any (fun h => h.line == l && h.owner != r))

/-- R201, R212: reads of the lines of a .. a+n-1 are held from now on. -/
def State.holdLines (s : State) (owner a n : Nat) : State :=
  { s with heldLines := s.heldLines ++ (linesOf a n).map (fun l => ⟨l, owner, s.now⟩) }

/-- R308, R309: a load at this address reads the occupancy field of a scheduling page whose counter the hardware has not told:
its value is open (log entry 13). -/
def State.readsFree (s : State) (a : Nat) : Bool :=
  match s.pageAt a with
  | some h => !h.faults && h.off / 8 * 8 == 0x28 && (Sparse.find? (s.part h.part).occupancy h.die).isNone
  | none => false

/-- The state after a load at this address: a free value that was read is used up (log entry 13). -/
def State.usedFree (s : State) (a : Nat) : State :=
  if s.readsFree a then { s with freeCount := s.freeCount + 1 } else s

end Sys2Proof.Machine
end

