-- ==== Sys2Proof/Machine/Sys.lean ====
section
/-!
DEFINITION. The SYS group: traps and returns (R138, R139), thread control (R142 to R145), block signatures (R146) and
fences (R157).
-/
namespace Sys2Proof.Machine

/-- R53 NOP. -/
def execNop (s : State) : Result := .next s

/-- R142 HALT: BLOCKED until the waits of R142 end, which HALT_COMPLETE finds. -/
def execHalt (s : State) : Result := .next (s.wait .halt)

/-- R139 TRAP. -/
def execTrap (code : BitVec 12) (s : State) : Result := .next (s.fault (.software code) 0 0)

/-- R139 BRK. -/
def execBrk (s : State) : Result := .next (s.fault .brk 0 0)

/-- R138 ERET. -/
def execEret (s : State) : Result :=
  if !s.me.supervisor then .next (s.fault .access s.at 0)
  else if s.me.tepc &&& 3 ≠ 0 then .next (s.raiseAt (Trap.plain .misalign s.me.tepc 0) true)
  else .next (s.modMe Thread.leaveHandler)

/-- The other threads of a thread's core that are READY. -/
def State.readyPeers (s : State) (t : Nat) : List Nat :=
  (([0, 1, 2, 3] : List Nat).map (· + 4 * coreOf t)).filter (fun u => u != t && (s.thread u).status == .ready)

/-- R143 TYIELD: the round-robin passes over the thread until every other READY thread has issued or stopped being READY. -/
def execTyield (s : State) : Result :=
  let peers := s.readyPeers s.cur
  if peers.isEmpty then .next s
  else .next (s.modCore s.here (fun k => { k with yields := (s.cur, peers) :: k.yields.filter (fun y => y.1 != s.cur) }))

/-- The word was resumed from a sleep. -/
def Thread.wokeFromSleep (t : Thread) : Bool :=
  match t.woke with
  | some (.sleep _) => true
  | _ => false

/-- R145 TSLEEP: a wake flag is used up; a sleep that has timed out goes on; otherwise the thread sleeps, with a limit in
core cycles when x[ra] is not 0. -/
def execTsleep (ra : Reg) (s : State) : Result :=
  if s.me.wake then .next (s.modMe (fun t => { t with wake := false }))
  else if s.me.wokeFromSleep then .next s
  else
    let n := (s.x ra).toNat
    .next (s.wait (.sleep (if n = 0 then none else some ((s.coreAt s.here).cycle + n))))

/-- A packet of thread t to a rank, whose coordinates name core c (R307); `stamp` is the access that it carries, `credit`
tells of a credit (R39). It is held while its entry is IN TRANSIT (R40), and it carries the epoch of its sender's last spore
cut (R377). -/
def State.packetFrom (s : State) (t : Nat) (cargo : Cargo) (rank c stamp : Nat) (release credit : Bool) : State :=
  let p := s.partOf t
  let sp := (s.part p).spore
  let k : Packet := ⟨s.nextId, cargo, t, rank, c, p, stamp, release, (s.rankEntry p rank).holds, credit, false, false,
    (s.coreAt (coreOf t)).comm, sp.cuts, sp.pkg⟩
  { s with packets := s.packets ++ [k], nextId := s.nextId + 1 }

/-- A packet of the executing thread. A release is sent only after every earlier access of the thread is performed at PKG
(R171); the packet's stamp orders it. -/
def State.packetTo (s : State) (cargo : Cargo) (rank c : Nat) (release credit : Bool) : State :=
  s.packetFrom s.cur cargo rank c s.nextId release credit

/-- R144 TWAKE. A wake to an entry IN TRANSIT is held with the messages for it (R40). -/
def execTwake (ra : Reg) (s : State) : Result :=
  let v := s.x ra
  let rank := field v.toNat 0 10
  let h := field v.toNat 10 2
  let e := s.rankEntry (s.partOf s.cur) rank
  match e.core? with
  | none => .next (s.fault .access v 0)
  | some c =>
    if c = s.here ∧ h = s.cur % 4 then .next (s.modMe (fun t => { t with wake := true }))
    else if e.holds && s.holdFull (s.partOf s.cur) rank s.here then .next (s.wait (.inTransit rank))
    else .next (s.packetTo (.wake h) rank c false false)

/-- The checker's value (R349). -/
def Thread.checker (t : Thread) : BitVec 18 := t.chkC ++ t.chkD

/-- R146, R349 SIGCHK: at app privilege the checker is compared and restarted. -/
def execSigchk (sig : BitVec 18) (s : State) : Result :=
  if s.me.supervisor then .next s
  else
    let c := s.me.checker
    let s := s.modMe (fun t => { t with chkC := 0, chkD := 0 })
    if s.me.sigEn && c != sig then
      .next ((s.modMe (fun t => { t with sigMis := true })).fault .sig (sig.setWidth 64) (c.setWidth 64))
    else .next s

/-- R157, R158: a fence at a scope. -/
def State.fence (s : State) (scope : Scope) : State := s.clipping scope (fun s sc => s.releasing sc false id)

/-- R157 FENCE.CORE. -/
def execFenceCore (s : State) : Result := .next (s.fence .core)

/-- R157 FENCE.DIE. -/
def execFenceDie (s : State) : Result := .next (s.fence .die)

/-- R157 FENCE.PKG. -/
def execFencePkg (s : State) : Result := .next (s.fence .pkg)

/-- R157 FENCE.SYS. -/
def execFenceSys (s : State) : Result := .next (s.fence .sys)

end Sys2Proof.Machine
end

