-- ==== Sys2Proof/Machine/MxQueue.lean ====
section
/-!
DEFINITION. The MXU command slot: the record's fields and checks (R252 to R257) and the enqueuing store (R253).
-/
namespace Sys2Proof.Machine

/-- R88, R254: the element format of a code. -/
def mxFmt (code : Nat) : Fmt :=
  match code with
  | 0 => .e2m1 | 1 => .e3m2 | 2 => .e2m3 | 3 => .e4m3 | 4 => .e5m2 | 8 => .bf16 | 9 => .e4m3 | 10 => .e5m2 | _ => .f32

/-- R254: the bytes of a tile of one K-step. -/
def tileBytes (code : Nat) : Nat :=
  match code with
  | 0 => 4352 | 1 => 6400 | 2 => 6400 | 3 => 8448 | 4 => 8448 | 8 => 16384 | _ => 8192

/-- R254: the bytes of a row that MX.STORE writes. -/
def storeRowBytes (code : Nat) : Nat :=
  match code with
  | 0 => 68 | 1 => 100 | 2 => 100 | 3 => 132 | 4 => 132 | 8 => 256 | 9 => 128 | 10 => 128 | _ => 512

/-- A command record's fields (R256). -/
structure MxRecord where
  code : Nat
  flags : Nat
  tag : Nat
  acc : Nat
  fa : Nat
  fb : Nat
  ks : Nat
  qbase : Nat
  row0 : Nat
  rows : Nat
  off : Nat
  rest : List Byte
  deriving DecidableEq, Repr

/-- R256: reads a record from its 64 bytes. -/
def parseMx (b : List Byte) : MxRecord :=
  ⟨leAt b 0 1, leAt b 1 1, leAt b 2 2, leAt b 4 1, leAt b 5 1, leAt b 6 1, leAt b 7 1, leAt b 8 2, leAt b 10 1, leAt b 11 1,
   leAt b 12 4, b.drop 16⟩

/-- The command is a matrix multiply-accumulate (R256). -/
def MxRecord.isMma (r : MxRecord) : Bool := r.code == 1 || r.code == 2

/-- The command moves rows (R256). -/
def MxRecord.moves (r : MxRecord) : Bool := r.code == 4 || r.code == 5

/-- FLAGS.NC (R256). -/
def MxRecord.nc (r : MxRecord) : Bool := field r.flags 0 1 == 1

/-- FLAGS.FL (R256). -/
def MxRecord.fl (r : MxRecord) : Bool := field r.flags 1 1 == 1

/-- R257: the bytes of a row that the command moves. -/
def MxRecord.rowBytes (r : MxRecord) (out : Nat) : Nat := if r.code = 4 then 512 else storeRowBytes out

/-- R257: what the checks of a record look at beside it. -/
structure MxView where
  fmtA : Nat
  fmtB : Nat
  out : Nat
  bandA : Word
  bandB : Word
  flumes : Vector Flume 16

/-- Flume n of a core; a number above 15 reads as an unconfigured one. -/
def flumeOf (fs : Vector Flume 16) (n : Nat) : Flume := fs[n]?.getD Flume.reset

/-- R257, offset 0x00. -/
def MxRecord.bad00 (r : MxRecord) (v : MxView) : Bool :=
  r.code == 0 || decide (7 < r.code) || (r.code == 1 && !(decide (v.fmtA ≤ 4) && decide (v.fmtB ≤ 4)))
    || (r.code == 2 && !(decide (8 ≤ v.fmtA) && decide (v.fmtA ≤ 10) && decide (8 ≤ v.fmtB) && decide (v.fmtB ≤ 10)))

/-- R257, offset 0x01. -/
def MxRecord.bad01 (r : MxRecord) : Bool :=
  decide (4 ≤ r.flags) || (r.fl && !r.moves) || (r.nc && r.code == 6)

/-- R257, offset 0x04. -/
def MxRecord.bad04 (r : MxRecord) : Bool := if r.code = 6 then r.acc != 0 else decide (4 ≤ r.acc)

/-- R257: a flume of a multiply is missing or too small for its tiles. -/
def badTile (f : Flume) (n tile ks : Nat) : Bool :=
  decide (15 < n) || !f.configured || decide (f.size < tile) || decide (2^f.k < ks)

/-- R257, offset 0x05. -/
def MxRecord.bad05 (r : MxRecord) (v : MxView) : Bool :=
  let f := flumeOf v.flumes r.fa
  if r.isMma then badTile f r.fa (tileBytes v.fmtA) r.ks
  else if r.moves && r.fl then decide (15 < r.fa) || !f.configured || decide (f.size < r.rows * r.rowBytes v.out)
  else r.fa != 0

/-- R257, offset 0x06. -/
def MxRecord.bad06 (r : MxRecord) (v : MxView) : Bool :=
  if r.isMma then badTile (flumeOf v.flumes r.fb) r.fb (tileBytes v.fmtB) r.ks || r.fb == r.fa else r.fb != 0

/-- R257, offset 0x07. -/
def MxRecord.bad07 (r : MxRecord) : Bool := if r.isMma then r.ks == 0 || decide (64 < r.ks) else r.ks != 0

/-- R257: a band array passes the end of the open scratchpad. -/
def badBand (band : Word) (q n : Nat) : Bool :=
  band.getLsbD 63 && decide (0xF8000 < band.toNat % 2^20 + 4 * (q + n))

/-- R257, offset 0x08. -/
def MxRecord.bad08 (r : MxRecord) (v : MxView) : Bool :=
  if r.isMma then badBand v.bandA r.qbase r.ks || badBand v.bandB r.qbase r.ks
  else if r.code = 7 then badBand v.bandA r.qbase 1 || badBand v.bandB r.qbase 1
  else r.qbase != 0

/-- R257, offset 0x0A. -/
def MxRecord.bad0A (r : MxRecord) : Bool := if r.moves then decide (127 < r.row0) else r.row0 != 0

/-- R257, offset 0x0B. -/
def MxRecord.bad0B (r : MxRecord) : Bool := if r.moves then r.rows == 0 || decide (128 < r.row0 + r.rows) else r.rows != 0

/-- R257, offset 0x0C. -/
def MxRecord.bad0C (r : MxRecord) (v : MxView) : Bool :=
  if r.moves && !r.fl then
    decide (2^20 ≤ r.off) || r.off % 8 != 0 || decide (0xF8000 < r.off + r.rows * r.rowBytes v.out)
  else r.off != 0

/-- R257: the offset of the first malformed field. -/
def MxRecord.firstBad (r : MxRecord) (v : MxView) : Option Nat :=
  if r.bad00 v then some 0x00
  else if r.bad01 then some 0x01
  else if r.bad04 then some 0x04
  else if r.bad05 v then some 0x05
  else if r.bad06 v then some 0x06
  else if r.bad07 then some 0x07
  else if r.bad08 v then some 0x08
  else if r.bad0A then some 0x0A
  else if r.bad0B then some 0x0B
  else if r.bad0C v then some 0x0C
  else (r.rest.findIdx? (· != 0)).map (· + 0x10)

/-- R257: the CSRs and flumes in force for the executing thread. -/
def State.mxView (s : State) : MxView :=
  ⟨s.me.mxfmta.toNat, s.me.mxfmtb.toNat, s.me.mxout.toNat, s.me.mxbanda, s.me.mxbandb, (s.coreAt s.here).flumes⟩

/-- The staging buffer's bytes with bytes 0x38-0x3F taken from a value (R253). -/
def Thread.stagingImage (t : Thread) (v : Word) : List Byte :=
  ((t.staging.toList.take 7) ++ [v]).flatMap (fun w => leBytes w.toNat 8)

/-- R253: the command that an enqueuing store appends. -/
def State.mxCommand (s : State) (r : MxRecord) : MxCmd where
  code := r.code
  nc := r.nc
  fl := r.fl
  tag := r.tag
  acc := r.acc
  fa := r.fa
  fb := r.fb
  ks := r.ks
  qbase := r.qbase
  row0 := r.row0
  rows := r.rows
  off := r.off
  thread := s.cur
  fmtA := s.me.mxfmta.toNat
  fmtB := s.me.mxfmtb.toNat
  out := s.me.mxout.toNat
  bandA := s.me.mxbanda
  bandB := s.me.mxbandb
  ticket := s.me.ticket
  begun := false
  headA := 0
  headB := 0
  step := 0
  finished := false
  flags := 0
  ue := false
  since := s.now

/-- R165, R253: the thread has 64 completion entries reserved or held. -/
def Thread.fifoFull (t : Thread) : Bool := decide (64 ≤ t.fifo.length + t.reserved)

/-- R253: the command enters the queue: it draws a ticket and reserves an entry unless NC is set, and the staging buffer
takes the stored bytes. -/
def State.mxAppend (s : State) (r : MxRecord) (v : Word) : State :=
  let c := s.mxCommand r
  let s := s.modCore s.here (fun k => { k with mxqueue := k.mxqueue ++ [c] })
  s.modMe (fun t => { t with
    staging := t.staging.set 7 v
    ticket := if r.nc then t.ticket else t.ticket + 1
    reserved := if r.nc then t.reserved else t.reserved + 1 })

/-- R253: an enqueuing store of the double v at address va. After a wait for room the whole word runs again, so its checks see the
flumes and CSRs as they are then: the spec does not say whether they are made again (DESIGN CHOICE, log entry 68). -/
def State.mxEnqueue (s : State) (va v : Word) : State :=
  if !s.me.buffer.isEmpty then s.wait .bufferEmpty
  else if s.vectorMemoryBusy s.cur then s.wait .vectorMemory
  else
    let r := parseMx (s.me.stagingImage v)
    match r.firstBad s.mxView with
    | some off => s.fault .mxq va (word off)
    | none =>
      if 8 ≤ (s.coreAt s.here).mxqueue.length then s.wait .mxRoom
      else if !r.nc && s.me.fifoFull then s.wait .fifoRoom
      else s.watching s (s.asWatched .store) va 8 (fun s => s.mxAppend r v)

end Sys2Proof.Machine
end

