-- ==== Sys2Proof/Machine/LoadStore.lean ====
section
/-!
DEFINITION. Loads and stores (R151 to R156).
-/
namespace Sys2Proof.Machine

/-- R151: the value of an access that reads n bytes at key a: from the thread's own store buffer, or from memory when no
read of the line is held; poisoned bytes raise UE. `found` is the state in which the access has been checked. -/
def State.reading (s found : State) (va : Word) (a n : Nat) (k : State → Nat → State) : State :=
  let take (found : State) (v : Nat) : State := s.watching found (s.asWatched .load) va n (fun s => k s v)
  match s.forwarded a n with
  | .waits => s.wait (.overlap a n)
  | .value v => take found v
  | .none =>
    match s.lineHeld a n with
    | some l => s.wait (.held l)
    | none => if s.poisoned a n then s.fault .ue va 0 else take (found.usedFree a) (found.loadValue a n)

/-- R151, R155: a load of n bytes at va, checked, with a continuation for what is read. -/
def State.loading (s : State) (va : Word) (n : Nat) (k : State → Nat → Nat → State) : State :=
  match s.reach .load va n with
  | .trap t => s.raise t
  | .waits w s => s.wait w
  | .missed a _ s => s.wait (.storeMiss a)
  | .found a _ found => k found a n

/-- R151 LOAD: x[rd] := n bytes at x[ra] + sext(imm9) * n. -/
def execLoad (rd ra : Reg) (imm : BitVec 9) (sz : Size) (_nt z : Bool) (s : State) : Result :=
  let va := scaledAddress (s.x ra) imm sz.bytes
  .next (s.loading va sz.bytes (fun found a n =>
    s.reading found va a n (fun s v => s.setX rd (extendBytes z n v))))

/-- R155 LDA: a load, zero-extended, at a scope under the ceiling. -/
def execLda (rd ra : Reg) (imm : BitVec 7) (sz : Size) (scope : Scope) (s : State) : Result :=
  let va := scaledAddress (s.x ra) imm sz.bytes
  .next (s.loading va sz.bytes (fun found a n =>
    s.clipping scope (fun s' _ =>
      s'.reading (found.modMe (fun t => { t with clip := s'.me.clip })) va a n (fun s v => s.setX rd (extendBytes true n v)))))

/-- R152: a store is appended to the thread's store buffer; it waits for earlier vector accesses to its bytes (R215) and for
room. -/
def State.buffering (s found : State) (va : Word) (place : Place) (n : Nat) (data : Word) (g : Bool) : State :=
  let busy := match place with
    | .mem a => s.vectorOverlap s.cur a n
    | .staging _ => false
  if busy then (match place with | .mem a => s.wait (.overlap a n) | .staging _ => s)
  else if 16 ≤ s.me.buffer.length then s.wait .bufferRoom
  else
    s.watching found (s.asWatched .store) va n (fun s =>
      let x : Store := ⟨s.nextId, va, place, n, word (data.toNat % 256^n), g, false, s.now, false⟩
      s.bump.modMe (fun t => { t with buffer := t.buffer ++ [x] }))

/-- R152, R252, R253: a store to the MXU command slot: a byte of the staging buffer, or an enqueuing store. -/
def State.slotStore (s found : State) (va : Word) (off n : Nat) (data : Word) : State :=
  if off + n ≤ 0x38 then s.buffering found va (.staging off) n data false
  else if n ≠ 8 then s.fault .mxq va 0x38
  else s.mxEnqueue va data

/-- R152 STORE. -/
def execStore (rs ra : Reg) (imm : BitVec 9) (sz : Size) (_nt g : Bool) (s : State) : Result :=
  let va := scaledAddress (s.x ra) imm sz.bytes
  let v := s.x rs
  match s.reach .store va sz.bytes with
  | .trap t => .next (s.raise t)
  | .waits w s => .next (s.wait w)
  | .missed a _ s => .next (s.wait (.storeMiss a))
  | .found _ (.slot off) found => .next (s.slotStore found va off sz.bytes v)
  | .found a _ found => .next (s.buffering found va (.mem a) sz.bytes v g)

/-- R156: the store of an STL, once its release is performed. -/
def State.storing (s : State) (va : Word) (n : Nat) (v : Word) (g : Bool) : State :=
  match s.reach .stl va n with
  | .trap t => s.raise t
  | .waits w s => s.wait w
  | .missed a _ s => s.wait (.storeMiss a)
  | .found a _ found => s.buffering found va (.mem a) n v g

/-- R156 STL: a store that is a release at a scope under the ceiling. Its SCOPE cause comes before every wait (R150). -/
def execStl (rs ra : Reg) (g : Bool) (imm : BitVec 7) (sz : Size) (scope : Scope) (s : State) : Result :=
  let va := scaledAddress (s.x ra) imm sz.bytes
  let v := s.x rs
  match s.reach .stl va sz.bytes with
  | .trap t => .next (s.raise t)
  | .waits w s => .next (s.wait w)
  | .missed a _ s => .next (s.clipping scope (fun s _ => s.wait (.storeMiss a)))
  | .found _ _ _ => .next (s.clipping scope (fun s sc => s.releasing sc true (fun s => s.storing va sz.bytes v g)))

end Sys2Proof.Machine
end

