-- ==== Sys2Proof/Machine/Amo.lean ====
section
/-!
DEFINITION. Atomics (R159 to R162) and register get and put (R163, R164): what the issuing thread does. The agents that
execute requests are in Remote.lean.
-/
namespace Sys2Proof.Machine

/-! The atomic operations. -/

/-- R159: min and max as signed values of n bytes. -/
def signedLess (n a b : Nat) : Bool := (signExtendBytes n a).slt (signExtendBytes n b)

/-- R159, R161: the new value of an atomic of n bytes on an old value; float adds round once to nearest even. -/
def amoNew (op : AmoOp) (float : Bool) (n old b cmp : Nat) : Nat :=
  match op with
  | .add =>
    if float then (if n = 2 then (Fmt.bf16.add .rne old b).1 else (Fmt.f32.add .rne old b).1) else (old + b) % 256^n
  | .and => old &&& b
  | .or => old ||| b
  | .xor => old ^^^ b
  | .min => if signedLess n b old then b else old
  | .max => if signedLess n old b then b else old
  | .minu => if b < old then b else old
  | .maxu => if old < b then b else old
  | .swap => b
  | .cas => if old = cmp then b else old

/-- R159: what an atomic writes to rd: the old value, sign-extended for w and d, zero-extended for floats. -/
def amoOld (float : Bool) (n old : Nat) : Word := extendBytes float n old

/-! Hazards and forwarding between dies (R202, R210). -/

/-- A PUTR enters the NI's hazard table: another die's window, or a global write to the own one (R210). -/
def Put.hazard (x : Put) (die : Nat) : Bool := isHbm x.a && (stackOf x.a != die || x.g)

/-- The lines that thread t has in its NI's hazard table, with those it has queued (R210). -/
def State.hazardLines (s : State) (t : Nat) : List Nat :=
  let x := s.thread t
  (x.puts.filter (fun w => w.hazard (dieOf (coreOf t)))).map (fun w => lineOf w.a)
    ++ (x.buffer.filter (·.sent)).filterMap (fun w => match w.place with | .mem a => some (lineOf a) | .staging _ => none)

/-- R210, R211: an atomic of a die that acts as a global write. -/
def Request.global (r : Request) (die : Nat) : Bool := r.op.isSome && isHbm r.a && (stackOf r.a != die || r.g)

/-- The lines with an entry in the hazard table of core c (R210): of puts, of global stores, and of atomics that act as global
writes (R211). -/
def State.hazardTable (s : State) (c : Nat) : List Nat :=
  ((([0, 1, 2, 3] : List Nat).flatMap (fun i =>
    let x := s.thread (4 * c + i)
    (x.puts.filter (fun w => w.hazard (dieOf c) && w.stage != .queued)).map (fun w => lineOf w.a)
      ++ (x.buffer.filter (·.sent)).filterMap
        (fun w => match w.place with | .mem a => some (lineOf a) | .staging _ => none)))
    ++ (s.requests.filter (fun e => coreOf e.2.thread == c && e.2.global (dieOf c))).map (fun e => lineOf e.2.a)).eraseDups

/-- R202, R210: an atomic of thread t to a line waits for the thread's hazard entries; one that acts as a global write
(`wide`) for its die's forward table and for room in the hazard table too. -/
def State.lineBlocked (s : State) (t line : Nat) (wide : Bool) : Bool :=
  (s.hazardLines t).contains line
    || (wide && (s.forwardsLine (dieOf (coreOf t)) line || decide (64 ≤ (s.hazardTable (coreOf t)).length)))

/-! Requests. -/

/-- R160: the agent that executes a request of a thread on die d to a space at key a. -/
def agentOf (d : Nat) (va : Word) (a : Nat) : Space → Agent
  | .rank _ _ => .ni (spadCore a)
  | .home h => if h = d then .slice d (sliceOf va) else if h ≤ 7 then .basin else if h = 8 then .hostIO else .optical
  | .spad _ | .slot _ | .refused => .ni (spadCore a)

/-- The rank that a space names. -/
def Space.rankOf : Space → Option Nat
  | .rank r _ => some r
  | _ => none

/-- R160: the space takes integer atomics only. -/
def Space.integerOnly : Space → Bool
  | .home h => decide (8 ≤ h)
  | _ => false

/-- R162, R355: the thread's next request takes the number after this one. -/
def Thread.nextNumber (t : Thread) : Thread := { t with reqno := t.reqno + 1, again := t.again - 1 }

/-- R162: a request leaves the NI with the thread's next number; the thread waits for its response. A request through rank
space is a packet to the target's NI (R307). -/
def State.request (s : State) (va : Word) (a n : Nat) (sp : Space) (op : Option AmoOp) (float : Bool) (b cmp : Word)
    (g : Bool) : State :=
  let id := s.nextId
  let r : Request := ⟨id, s.cur, va, a, n, op, float, b, cmp, g, s.me.reqno, agentOf (dieOf s.here) va a sp, sp.rankOf,
    .sent, 0, s.now, s.me.again, s.now⟩
  let s := { s.bump with requests := Sparse.set s.requests id r }
  let s := match sp.rankOf with
    | some rank => s.packetTo (.request id) rank (spadCore a) false false
    | none => s
  (s.modMe (fun t => t.nextNumber)).wait (.reply id)

/-- R162, R163, R188: the response of the executing word's request, taken and used up: the value goes on, RETRYEXP and UE
are raised, a dropped request leaves rd unchanged (its TAG is pending). -/
def State.answered (s : State) (r : Reply) (k : State → Word → State) : State :=
  let s := s.modMe (fun t => { t with reply := none })
  match r with
  | .value v => k s v
  | .retryexp va num => s.fault .retryexp va num
  | .dropped => s
  | .fault va => s.fault .ue va 0

/-- R160: an atomic to the own scratchpad by its core-local address, at the core's scratchpad ALU. -/
def State.localAtomic (s : State) (a n : Nat) (op : AmoOp) (float : Bool) (b cmp : Nat) (rd : Reg) : State :=
  let old := s.readAt a n
  (s.writeAt a n (amoNew op float n old b cmp)).setX rd (amoOld float n old)

/-- R159: the atomic leaves for its agent, after the thread's earlier stores and its own accesses to the bytes. -/
def State.sendAtomic (s found : State) (va : Word) (a n : Nat) (sp : Space) (op : AmoOp) (float : Bool) (rd : Reg)
    (b cmp : Word) (g : Bool) : State :=
  if !s.me.buffer.isEmpty then s.wait .bufferEmpty
  else if s.overlapBusy s.cur a n then s.wait (.overlap a n)
  else match sp with
    | .spad _ =>
      if s.poisoned a n then s.fault .ue va 0
      else s.watching found (s.asWatched .amo) va n (fun s => s.localAtomic a n op float b.toNat cmp.toNat rd)
    | _ =>
      let wide := stackOf a != dieOf s.here || g
      if isHbm a && s.lineBlocked s.cur (lineOf a) wide then s.wait (.forward (lineOf a) wide)
      else s.watching found (s.asWatched .amo) va n (fun s => s.request va a n sp (some op) float b cmp g)

/-- R159: an AMO of n bytes by the executing thread. -/
def State.atomic (s : State) (op : AmoOp) (float : Bool) (n : Nat) (rd ra rb : Reg) (g : Bool) : State :=
  match s.me.reply with
  | some r => s.answered r (fun s v => s.setX rd (amoOld float n v.toNat))
  | none =>
    let va := s.x ra
    let b := word ((s.x rb).toNat % 256^n)
    let cmp := word ((s.x rd).toNat % 256^n)
    match s.reach .amo va n with
    | .trap t => s.raise t
    | .waits w s => s.wait w
    | .missed a sp s => if float && sp.integerOnly then s.fault .typ va 0 else s.wait (.storeMiss a)
    | .found a sp found =>
      if float && sp.integerOnly then s.fault .typ va 0 else s.sendAtomic found va a n sp op float rd b cmp g

/-- Types s and h are float (R159). -/
def AmoTy.float : AmoTy → Bool
  | .s | .h => true
  | .w | .d => false

/-- R159 AMO.ADD. -/
def execAmoAdd (rd ra rb : Reg) (ty : AmoTy) (g : Bool) (s : State) : Result :=
  .next (s.atomic .add (AmoTy.float ty) ty.bytes rd ra rb g)

/-- R159 AMO.AND. -/
def execAmoAnd (rd ra rb : Reg) (ty : IntSize) (g : Bool) (s : State) : Result :=
  .next (s.atomic .and false ty.bytes rd ra rb g)

/-- R159 AMO.OR. -/
def execAmoOr (rd ra rb : Reg) (ty : IntSize) (g : Bool) (s : State) : Result :=
  .next (s.atomic .or false ty.bytes rd ra rb g)

/-- R159 AMO.XOR. -/
def execAmoXor (rd ra rb : Reg) (ty : IntSize) (g : Bool) (s : State) : Result :=
  .next (s.atomic .xor false ty.bytes rd ra rb g)

/-- R159 AMO.MIN. -/
def execAmoMin (rd ra rb : Reg) (ty : IntSize) (g : Bool) (s : State) : Result :=
  .next (s.atomic .min false ty.bytes rd ra rb g)

/-- R159 AMO.MAX. -/
def execAmoMax (rd ra rb : Reg) (ty : IntSize) (g : Bool) (s : State) : Result :=
  .next (s.atomic .max false ty.bytes rd ra rb g)

/-- R159 AMO.MINU. -/
def execAmoMinu (rd ra rb : Reg) (ty : IntSize) (g : Bool) (s : State) : Result :=
  .next (s.atomic .minu false ty.bytes rd ra rb g)

/-- R159 AMO.MAXU. -/
def execAmoMaxu (rd ra rb : Reg) (ty : IntSize) (g : Bool) (s : State) : Result :=
  .next (s.atomic .maxu false ty.bytes rd ra rb g)

/-- R159 AMO.SWAP. -/
def execAmoSwap (rd ra rb : Reg) (ty : IntSize) (g : Bool) (s : State) : Result :=
  .next (s.atomic .swap false ty.bytes rd ra rb g)

/-- R159 AMO.CAS. -/
def execAmoCas (rd ra rb : Reg) (ty : IntSize) (g : Bool) (s : State) : Result :=
  .next (s.atomic .cas false ty.bytes rd ra rb g)

/-! Register get and put. -/

/-- R163: the read leaves for its agent. A GETR of the own scratchpad draws a number too (R162). -/
def State.sendGet (s found : State) (va : Word) (a n : Nat) (sp : Space) (rd : Reg) : State :=
  if s.overlapBusy s.cur a n || s.putOverlap s.cur a n then s.wait (.putsDone a n)
  else match sp with
    | .spad _ =>
      if s.poisoned a n then s.fault .ue va 0
      else s.watching found (s.asWatched .getr) va n (fun s =>
        (s.modMe (fun t => t.nextNumber)).setX rd (signExtendBytes n (s.readAt a n)))
    | _ => s.watching found (s.asWatched .getr) va n (fun s => s.request va a n sp none false 0 0 false)

/-- R163 GETR. -/
def execGetr (rd ra : Reg) (ty : IntSize) (s : State) : Result :=
  match s.me.reply with
  | some r => .next (s.answered r (fun s v => s.setX rd (signExtendBytes ty.bytes v.toNat)))
  | none =>
    let va := s.x ra
    match s.reach .getr va ty.bytes with
    | .trap t => .next (s.raise t)
    | .waits w s => .next (s.wait w)
    | .missed a _ s => .next (s.wait (.storeMiss a))
    | .found a sp found => .next (s.sendGet found va a ty.bytes sp rd)

/-- R164: a PUTR is handed to the NI, which holds at most 32 of the thread. -/
def State.handPut (s found : State) (va : Word) (a n : Nat) (v : Word) (g : Bool) : State :=
  if s.vectorOverlap s.cur a n then s.wait (.overlap a n)
  else if 32 ≤ s.me.puts.length then s.wait .putRoom
  else s.watching found (s.asWatched .putr) va n (fun s =>
    let w : Put := ⟨s.nextId, va, a, n, word (v.toNat % 256^n), g, .queued, s.now⟩
    s.bump.modMe (fun t => { t with puts := t.puts ++ [w] }))

/-- R164 PUTR. -/
def execPutr (ra rb : Reg) (ty : IntSize) (g : Bool) (s : State) : Result :=
  let va := s.x ra
  let v := s.x rb
  match s.reach .putr va ty.bytes with
  | .trap t => .next (s.raise t)
  | .waits w s => .next (s.wait w)
  | .missed a _ s => .next (s.wait (.storeMiss a))
  | .found a _ found => .next (s.handPut found va a ty.bytes v g)

end Sys2Proof.Machine
end

