-- ==== Sys2Proof/Machine/CopyCmd.lean ====
section
/-!
DEFINITION. Bulk get and put and the completion FIFO (R165 to R170): what the issuing thread does. The engines are in
CopyEngine.lean.
-/
namespace Sys2Proof.Machine

/-- R149: the scratchpad offset of n bytes at a core-local address, when they lie in the open scratchpad. -/
def ownRange (va : Word) (n : Nat) : Option Nat :=
  match classify va with
  | .spad off => if off + n ≤ 0xF8000 then some off else none
  | _ => none

/-- The kind of a space, so that two addresses can be compared (R165). -/
def Space.sameAs (x y : Space) : Bool :=
  match x, y with
  | .spad _, .spad _ => true
  | .home a, .home b => a == b
  | .rank a _, .rank b _ => a == b
  | _, _ => false

/-- R165: the n bytes at va lie within one space. -/
def withinSpace (va : Word) (n : Nat) : Bool := (classify va).sameAs (classify (va + word (n - 1)))

/-- R149, R165: the cause of a local range, if any: ACCESS, then FARORD. -/
def localError (die : Nat) (lo : Word) (n : Nat) : Option Cause :=
  if !withinSpace lo n then some .access
  else match classify lo with
    | .spad _ => none
    | .home d => if d = die then none else some .farord
    | .rank _ _ => some .farord
    | .slot _ | .refused => some .access

/-- R149, R165: a remote range lies within one allowed space and names no INVALID rank. -/
def State.remoteOk (s : State) (re : Word) (n : Nat) : Bool :=
  withinSpace re n &&
  (match classify re with
   | .rank r _ => Sparse.get (s.part (s.partOf s.cur)).ranks r .invalid != .invalid
   | _ => true)

/-- R168: a range lies in host memory or fabric devices. -/
def outsideRange (va : Word) : Bool :=
  match classify va with
  | .home d => decide (8 ≤ d)
  | _ => false

/-- R168: the scope of a copy command. -/
def copyScope (n : Nat) (lo re : Word) : Scope := if n ≠ 0 ∧ (outsideRange lo ∨ outsideRange re) then .sys else .pkg

/-- R165: the command takes its ticket and goes to the engines of the die. -/
def State.handCopy (s : State) (put g : Bool) (n : Nat) (lo re : Word) (rd : Reg) : State :=
  let c : Copy := ⟨s.nextId, s.cur, s.partOf s.cur, s.me.supervisor, dieOf s.here, put, g, n, lo, re, s.me.ticket, false, 0, false, [], [],
    [], [], [], none⟩
  let tk : Word := s.me.ticket.setWidth 64
  let s := { s.bump with copies := s.copies ++ [c] }
  (s.modMe (fun t => { t with ticket := t.ticket + 1, reserved := t.reserved + 1 })).setX rd tk

/-- R165: GET or PUT at issue. The local address is checked whole before the remote one: R137 ranks ACCESS before FARORD, R165
lists the local checks first (DESIGN CHOICE, log entry 70). -/
def State.copyCommand (s : State) (put g : Bool) (rd ra rb : Reg) : State :=
  let n := (s.x32 rd).toNat
  let lo := s.x ra
  let re := s.x rb
  let bad := if n = 0 then none else localError (dieOf s.here) lo n
  match bad with
  | some c => s.fault c lo 0
  | none =>
    if n ≠ 0 ∧ !s.remoteOk re n then s.fault .access re 0
    else if s.me.fifoFull then s.wait .fifoRoom
    else s.releasing (copyScope n lo re) true (fun s => s.handCopy put g n lo re rd)

/-- R165 GET. -/
def execGet (rd ra rb : Reg) (s : State) : Result := .next (s.copyCommand false false rd ra rb)

/-- R165 PUT. -/
def execPut (rd ra rb : Reg) (g : Bool) (s : State) : Result := .next (s.copyCommand true g rd ra rb)

/-- R149: a core-local operand of n bytes at an alignment, checked: ACCESS, then MISALIGN. -/
def State.ownOperand (s : State) (va : Word) (n align : Nat) (k : Nat → State) : State :=
  match ownRange va n with
  | none => s.fault .access va 0
  | some off => if va.toNat % align ≠ 0 then s.fault .misalign va 0 else k (spadKey s.here off)

/-- R170 CPOP. -/
def execCpop (rd ra : Reg) (s : State) : Result :=
  let va := s.x ra
  .next (s.ownOperand va 16 16 (fun a =>
    match s.me.fifo with
    | [] => s.setX rd (BitVec.allOnes 64)
    | e :: r =>
      if s.overlapBusy s.cur a 16 then s.wait (.overlap a 16)
      else
        let s := s.writeBytesAt a (leBytes e.lo.toNat 8 ++ leBytes e.hi.toNat 8)
        (s.modMe (fun t => { t with fifo := r })).setX rd (e.lo &&& 0xFFFF)))

/-- R170 CWAIT. -/
def execCwait (s : State) : Result :=
  if s.me.fifo.isEmpty && s.me.reserved != 0 then .next (s.wait .completion) else .next s

end Sys2Proof.Machine
end

