-- ==== Sys2Proof/Machine/Msg.lean ====
section
/-!
DEFINITION. Messages (R171 to R173): what the issuing thread does. The links are in Network.lean.
-/
namespace Sys2Proof.Machine

/-- R39: the free credits of a channel. -/
def Channel.free (ch : Channel) : Nat := 16 - (ch.queue.length + ch.claimed.length + ch.promised)

/-! The slot table (R29, R301). -/

/-- PHASECYC of a core (R28, R301). -/
def Core.phaseCyc (k : Core) : Nat := k.cycle - k.phaseStart

/-- A row's destination, channel and window match (R29). -/
def SlotRow.inWindow (r : SlotRow) (rank ch cyc : Nat) : Bool :=
  r.rank == rank && r.channel == ch && decide (r.start ≤ cyc) && decide (cyc < r.stop)

/-- R29: a message of len bytes fits a row in its window. -/
def SlotRow.takes (r : SlotRow) (rank ch cyc len : Nat) : Bool := r.inWindow rank ch cyc && decide (r.sent + len ≤ r.limit)

/-- R29: the row that a message of len bytes matches. -/
def Core.matchRow (k : Core) (rank ch len : Nat) : Option Nat := k.rows.findIdx? (fun r => r.takes rank ch k.phaseCyc len)

/-- R39: the row of a waiting send: the one that it matched when it began to wait, while it still takes the message. One that
began to wait in a compute phase has matched none yet. -/
def Core.rowOf (k : Core) (row : Option Nat) (rank ch len : Nat) : Option Nat :=
  match row with
  | some i => if (k.rows[i]?).any (fun r => r.takes rank ch k.phaseCyc len) then some i else none
  | none => k.matchRow rank ch len

/-- R29, R301, R305: a message counts toward its row. -/
def Core.countRow (k : Core) (i len : Nat) : Core :=
  { k with rows := k.rows.modify i (fun r => { r with sent := r.sent + len }), slotCur := some i }

/-- R29: a send of thread t has counted in a row and not left. -/
def Core.counted (k : Core) (t : Nat) : Bool := k.slotHeld.any (fun e => e.1 == t)

/-- R29, R39, R171: in the communication phase a send of thread t counts in the row it matches, or matched when it began to
wait; none when that row does not take it. -/
def State.countSend (s : State) (t rank ch len : Nat) (row : Option Nat) : Option State :=
  let c := coreOf t
  let k := s.coreAt c
  if !k.comm || k.counted t then some s
  else (k.rowOf row rank ch len).map (fun i => s.setCore c { k.countRow i len with slotHeld := k.slotHeld ++ [(t, i, len)] })

/-- R36: a message's header. -/
def messageHeader (rank len ch : Nat) : Word := word (rank + len * 2^10 + ch * 2^16)

/-- R171: the payload is copied and the message leaves the thread. -/
def State.launchMessage (s : State) (c rank ch len a : Nat) (credit : Bool) : State :=
  let payload := Memory.readBytes s.mem a len ++ List.replicate (56 - len) 0
  let m : Message := ⟨messageHeader (s.coreAt s.here).rank len ch, payload, s.cur⟩
  let s := s.modChannelFor (s.partOf s.cur) c ch (fun q => { q with granted := q.granted.erase s.cur })
  (s.modCore s.here (fun k => { k with slotHeld := k.slotHeld.filter (fun e => e.1 != s.cur) })).packetTo (.message ch m)
    rank c true credit

/-- R171, R215: the message has its credit: it leaves once its payload can be copied and the thread's earlier vector memory
operations have retired. -/
def State.sendPayload (s : State) (c rank ch len a : Nat) (credit : Bool) : State :=
  if s.overlapBusy s.cur a len then s.wait (.overlap a len)
  else if s.vectorMemoryBusy s.cur then s.wait .vectorMemory
  else s.launchMessage c rank ch len a credit

/-- The executing thread's send counts in its row, which it matches (R29). -/
def State.counting (s : State) (rank ch len : Nat) : State := (s.countSend s.cur rank ch len none).getD s

/-- R39, R171: the message obtains its credit: at once when one is free and nothing asks before it, else by waiting. A core that
holds nothing of the partition has no channel to ask: its router will drop the message (R307). -/
def State.sendWithCredit (s : State) (c rank ch len a : Nat) : State :=
  let p := s.partOf s.cur
  match s.channelFor p c ch with
  | none => (s.counting rank ch len).sendPayload c rank ch len a false
  | some q =>
    if q.granted.contains s.cur then s.sendPayload c rank ch len a true
    else if 0 < q.free ∧ q.asking.isEmpty then
      ((s.counting rank ch len).modChannelFor p c ch (fun q =>
        { q with promised := q.promised + 1, granted := q.granted ++ [s.cur] })).sendPayload c rank ch len a true
    else
      (s.modChannelFor p c ch (fun q =>
        { q with asking := if q.asking.contains (.thread s.cur) then q.asking else q.asking ++ [.thread s.cur] })).wait
          (.credit c ch rank len (if (s.coreAt s.here).comm then (s.coreAt s.here).matchRow rank ch len else none))

/-- R29, R39: the executing thread's message holds what lets it leave: it has counted in its row, or has its credit. -/
def State.mayLeave (s : State) (c ch : Nat) : Bool :=
  (s.coreAt s.here).counted s.cur || (match s.channelFor (s.partOf s.cur) c ch with
    | some q => q.granted.contains s.cur
    | none => false)

/-- R29, R39: in the communication phase the executing thread's message matches no slot row: none takes it, or the row that it
matched closed while it waited for a credit. -/
def State.noRow (s : State) (c rank ch len : Nat) : Bool :=
  let k := s.coreAt s.here
  k.comm && !s.mayLeave c ch && ((k.matchRow rank ch len).isNone || (match s.me.woke with
    | some (.credit _ _ _ _ _) => (s.channelFor (s.partOf s.cur) c ch).isSome
    | _ => false))

/-- R171 SEND: the payload's uncorrectable error comes before SEND's own causes that R150 puts after it. A message to an entry
IN TRANSIT needs room in the sending NI instead of a credit (R40). -/
def execSend (rs ra : Reg) (ch : BitVec 5) (s : State) : Result :=
  let v := s.x ra
  let rank := field v.toNat 0 10
  let len := field v.toNat 16 6
  let p := s.x rs
  if len = 0 ∨ 56 < len then .next (s.fault .access v 0)
  else match ownRange p len with
    | none => .next (s.fault .access p 0)
    | some off =>
      let a := spadKey s.here off
      let e := s.rankEntry (s.partOf s.cur) rank
      if s.poisonedFor s.cur a len then .next (s.fault .ue p 0)
      else match e.core? with
      | none => .next (s.fault .access v 0)
      | some c =>
        if s.noRow c rank ch.toNat len then .next (s.fault .slot v (word (s.coreAt s.here).phaseCyc))
        else if !e.holds then .next (s.sendWithCredit c rank ch.toNat len a)
        else if s.holdFull (s.partOf s.cur) rank s.here then .next (s.wait (.inTransit rank))
        else .next ((s.counting rank ch.toNat len).sendPayload c rank ch.toNat len a false)

/-- R172: a message is copied to its buffer and its header to rd; its entry and credit are free again. -/
def State.takeMessage (s : State) (rd : Reg) (a : Nat) (m : Message) : State :=
  (s.writeBytesAt a (leBytes m.header.toNat 8 ++ m.payload)).setX rd m.header

/-- R172, R173: the message of channel ch for the executing thread: one it has claimed, else the head of the queue. -/
def State.receive (s : State) (rd : Reg) (a ch : Nat) : Option State :=
  let q := s.channel s.here ch
  match List.find? (fun e => e.1 == s.cur) q.claimed with
  | some e =>
    some ((s.modChannel s.here ch (fun q => { q with claimed := q.claimed.filter (fun x => x.1 != s.cur) })).takeMessage
      rd a e.2)
  | none =>
    match q.queue with
    | [] => none
    | m :: r =>
      some ((s.modChannel s.here ch (fun q =>
        { q with queue := r, waiting := q.waiting.filter (· != s.cur) })).takeMessage rd a m)

/-- R172: the executing thread's word takes the channel's message, once no earlier access of the thread is under way to its
buffer; none without a message for it. -/
def State.receiving (s : State) (rd : Reg) (a ch : Nat) : Option State :=
  (s.receive rd a ch).map (fun u => if s.overlapBusy s.cur a 64 then s.wait (.overlap a 64) else u)

/-- R172 RECV: waits as the last of the channel's waiters. -/
def execRecv (rd ra : Reg) (ch : BitVec 5) (s : State) : Result :=
  .next (s.ownOperand (s.x ra) 64 8 (fun a =>
    match s.receiving rd a ch.toNat with
      | some s => s
      | none =>
        (s.modChannel s.here ch.toNat (fun q =>
          { q with waiting := if q.waiting.contains s.cur then q.waiting else q.waiting ++ [s.cur] })).wait
            (.recv ch.toNat)))

/-- R172, R173 RPOLL: never blocks on an empty channel. -/
def execRpoll (rd ra : Reg) (ch : BitVec 5) (s : State) : Result :=
  .next (s.ownOperand (s.x ra) 64 8 (fun a =>
    match s.receiving rd a ch.toNat with
      | some s => s
      | none => s.setX rd 0))

end Sys2Proof.Machine
end

