-- ==== Sys2Proof/Machine/Barrier.lean ====
section
/-!
DEFINITION. BAR, STEP and BDOM (R174 to R176, R28, R33 to R35). The completion of a generation is in Generation.lean.
-/
namespace Sys2Proof.Machine

/-- R174: the scope of a domain. -/
def Domain.scope (d : Domain) : Scope := if d.level = 3 then .pkg else .die

/-- R35: the generation to which a member's next arrival belongs. -/
def Domain.nextOf (d : Domain) (t : Nat) : Nat := Sparse.get d.left t d.base

/-- R35: the member has left generation g; in a domain installed since, its next one is that domain's first. -/
def Domain.leave (d : Domain) (t g : Nat) : Domain := { d with left := Sparse.set d.left t (max (g + 1) d.base) }

/-- R174: the word was resumed by the completion of a generation of domain k, whose number it gives. -/
def State.wokeFromBarrier (s : State) (k : Nat) : Option Nat :=
  match s.me.woke with
  | some (.barrier j g) => if j = k ∧ g < (s.domain k).gen then some g else none
  | _ => none

/-- R35: the generation of the domain that an arrival of the member belongs to: at package level its own next one, elsewhere the
open one. -/
def Domain.arrivalGen (d : Domain) (t : Nat) : Nat := if d.level = 3 then d.nextOf t else d.gen

/-- R174: the member has arrived in the generation that its arrival belongs to. -/
def Domain.hasArrived (d : Domain) (t : Nat) : Bool := d.arrived.contains t || d.early.any (fun e => e.2 == t)

/-- R34, R35: at package level an arrival of generation g is excess: that generation has completed, or its first count arrivals
have come. -/
def State.excess (s : State) (d : Domain) (g : Nat) : Bool :=
  let b := s.weirBar (s.weirOf d)
  d.level == 3 && (decide (g < d.gen) || decide (b.count ≤ if g = d.gen then b.arrived else s.earlyArrivals d.part d.weir g))

/-- R35: an arrival of a generation after the open one, whose first count arrivals have come and which has not completed (R30). -/
def State.arriveEarly (s : State) (k : Nat) (d : Domain) (g : Nat) : State :=
  (s.setDomain k { d with early := d.early ++ [(g, s.cur)] }).wait (.barrier k g)

/-- R32, R174: the arrival counts: in the domain, and at the Weir barrier of a package-level one. -/
def State.arrive (s : State) (k : Nat) (d : Domain) : State :=
  let s := s.setDomain k { d with arrived := d.arrived ++ [s.cur] }
  let s :=
    if d.level = 3 then
      let b := s.weirOf d
      { s with weirBars := Sparse.set s.weirBars b { s.weirBar b with arrived := (s.weirBar b).arrived + 1 } }
    else s
  s.wait (.barrier k d.gen)

/-- R174: an arrival at domain n of the die, by a thread that the checks of its word let arrive. One that a completed generation
has resumed leaves it, whatever has been installed since. -/
def State.arriving (s : State) (n k : Nat) (member : Bool) : State :=
  let d := s.domain k
  match s.wokeFromBarrier k with
  | some g => s.setDomain k (d.leave s.cur g)
  | none =>
    if !member then s.fault .barmemb (word n) 0
    else if d.hasArrived s.cur then s.fault .bartwice (word n) 0
    else s.releasing d.scope true (fun s =>
      if s.excess d (d.arrivalGen s.cur) then
        (s.setDomain k (d.leave s.cur (d.nextOf s.cur))).fault .barcount (word n) (word d.weir)
      else if d.gen < d.arrivalGen s.cur then s.arriveEarly k d (d.arrivalGen s.cur)
      else s.arrive k d)

/-- R174 BAR. -/
def execBar (dom : BitVec 4) (s : State) : Result :=
  let k := domainKey (dieOf s.here) dom.toNat
  .next (s.arriving dom.toNat k ((s.domain k).member s.cur))

/-- R28: the step domain of the executing thread's launch. -/
def State.stepDomain (s : State) (t : Nat) : Option Nat :=
  match (s.thread t).launch with
  | some l => (Sparse.find? s.launches l).bind Launch.stepDomain
  | none => none

/-- R174 STEP. -/
def execStep (dom : BitVec 4) (s : State) : Result :=
  let k := domainKey (dieOf s.here) dom.toNat
  .next (s.arriving dom.toNat k ((s.domain k).member s.cur && s.stepDomain s.cur == some dom.toNat))

/-- R176: the word that BDOM returns. -/
def State.bdomWord (s : State) (k outcome : Nat) : Word :=
  let d := s.domain k
  let n := if d.level = 3 then (s.weirBar (s.weirOf d)).arrived else d.arrived.length
  word (outcome * 2^62 + d.level * 2^48 + d.gen % 2^16 * 2^32 + n % 2^13)

/-- R176: a write of an image, refused while a member waits or when it is malformed. -/
def State.bdomWrite (s : State) (k a : Nat) (rd : Reg) : State :=
  let bs := Memory.readBytes s.mem a 64
  let p := s.partOf s.cur
  if s.memberWaits k then s.setX rd (s.bdomWord k 1)
  else if !imageOk (s.part p).barriers.2 bs then s.setX rd (s.bdomWord k 2)
  else
    let s := s.installImage k bs p none
    s.setX rd (s.bdomWord k 0)

/-- R176 BDOM. -/
def execBdom (rd ra : Reg) (dom : BitVec 4) (s : State) : Result :=
  let va := s.x ra
  let k := domainKey (dieOf s.here) dom.toNat
  if va = 0 then .next (s.setX rd (s.bdomWord k 0))
  else if !s.me.supervisor then .next (s.fault .access va 0)
  else .next (s.ownOperand va 64 8 (fun a =>
    if s.poisonedFor s.cur a 64 then s.fault .ue va 0
    else if s.overlapBusy s.cur a 64 then s.wait (.overlap a 64)
    else s.bdomWrite k a rd))

end Sys2Proof.Machine
end

