-- ==== Sys2Proof/Machine/Weir.lean ====
section
/-!
DEFINITION. The Weir's counters and semaphores (R177 to R180) and replay windows (R162, R355).
-/
namespace Sys2Proof.Machine

/-! Replay windows. -/

/-- What an agent's window says of a request's number (R162, R355). -/
inductive Seen where
  | fresh
  | stored (v : Word)
  | expired
  deriving DecidableEq, Repr

/-- R162: the window entries of a thread at an agent, newest first. -/
def State.window (s : State) (g : Agent) (t : Nat) : List Replayed :=
  s.windows.filter (fun e => e.agent == g && e.thread == t)

/-- R162, R355: more than 64 newer results: each of 64 kept ones is of a number that the thread used after num, one of the `ahead`
that it used from num on. -/
def olderThanWindow (w : List Replayed) (num : BitVec 16) (ahead : Nat) : Bool :=
  decide (64 ≤ w.length) && w.all (fun e => decide (0 < (e.num - num).toNat) && decide ((e.num - num).toNat < ahead))

/-- R162, R355: a kept result is of this request: of one whose number a rollback repeats, or one that the agent has executed since
the first send. Numbers wrap, so another may stand there. -/
def Replayed.isOf (e : Replayed) (ahead first : Nat) : Bool := ahead != 0 || decide (first ≤ e.time)

/-- R162, R355: looks a number up: the results of the last 64 operations are kept for 1 ms; an older number has expired. Only a
resend or a number that a rollback repeats is looked for; the first send of a number is fresh. -/
def State.lookup (s : State) (g : Agent) (t : Nat) (num : BitVec 16) (resent : Bool) (ahead first : Nat) : Seen :=
  let w := s.window g t
  if !resent && ahead == 0 then .fresh
  else match w.find? (fun e => e.num == num) with
    | some e =>
      if !e.isOf ahead first then .fresh
      else if s.now < e.time + 1000000 then .stored e.value else .expired
    | none => if olderThanWindow w num ahead then .expired else .fresh

/-- R162: an agent keeps a result; of each thread it keeps 64. -/
def State.keepResult (s : State) (g : Agent) (t : Nat) (num : BitVec 16) (v : Word) : State :=
  let others := s.windows.filter (fun e => !(e.agent == g && e.thread == t))
  { s with windows := (⟨g, t, num, v, s.now⟩ :: (s.window g t).filter (fun e => e.num != num)).take 64 ++ others }

/-! Weir operations. -/

/-- R177: the Weir object that x[ra] names: its index, within an allotment and an index width. -/
def allotted (v : Word) (width : Nat) (allot : Nat × Nat) : Option Nat :=
  if v.toNat < 2^width ∧ v.toNat < allot.2 then some (allot.1 + v.toNat) else none

/-- R162, R177, R180: a WEIR operation: the index is checked, earlier accesses are performed at PKG, and the operation
takes the thread's next number. A number found in the Weir's window is not applied again (R355). -/
def State.weirOp (s : State) (v : Word) (width : Nat) (allot : Nat × Nat) (answer : State → Word → State)
    (k : Nat → State → State × Word) : State :=
  match allotted v width allot with
  | none => s.fault .access v 0
  | some i =>
    s.releasing .pkg true (fun s =>
      let num := s.me.reqno
      match s.lookup .weir s.cur num false s.me.again s.now with
      | .stored r => answer (s.modMe (fun t => t.nextNumber)) r
      | .expired => (s.modMe (fun t => t.nextNumber)).fault .retryexp v (num.setWidth 64)
      | .fresh =>
        let (s, r) := k i s
        answer ((s.keepResult .weir s.cur num r).modMe (fun t => t.nextNumber)) r)

/-- Counter i of the Weir. -/
def State.counter (s : State) (i : Nat) : Word := Sparse.get s.counters i 0

/-- Counter i set. -/
def State.setCounter (s : State) (i : Nat) (v : Word) : State := { s with counters := Sparse.set s.counters i v }

/-- The counter allotment of the executing thread's partition. -/
def State.counterOp (s : State) (ra : Reg) (rd : Reg) (k : Nat → State → State × Word) : State :=
  s.weirOp (s.x ra) 12 (s.part (s.partOf s.cur)).counters (fun s v => s.setX rd v) k

/-- R178 WEIR.CADD. -/
def execWeirCadd (rd ra rb : Reg) (s : State) : Result :=
  let b := s.x rb
  .next (s.counterOp ra rd (fun i s => (s.setCounter i (s.counter i + b), s.counter i)))

/-- R178 WEIR.CREAD. -/
def execWeirCread (rd ra : Reg) (s : State) : Result := .next (s.counterOp ra rd (fun i s => (s, s.counter i)))

/-- R178 WEIR.CSWAP: compares with rd. -/
def execWeirCswap (rd ra rb : Reg) (s : State) : Result :=
  let b := s.x rb
  let cmp := s.x rd
  .next (s.counterOp ra rd (fun i s => (if s.counter i = cmp then s.setCounter i b else s, s.counter i)))

/-- Semaphore i of the Weir. -/
def State.sem (s : State) (i : Nat) : Semaphore := Sparse.get s.sems i ⟨0, [], []⟩

/-- Semaphore i set. -/
def State.setSem (s : State) (i : Nat) (v : Semaphore) : State := { s with sems := Sparse.set s.sems i v }

/-- The semaphore allotment of the executing thread's partition. -/
def State.semOp (s : State) (ra : Reg) (answer : State → Word → State) (k : Nat → State → State × Word) : State :=
  s.weirOp (s.x ra) 10 (s.part (s.partOf s.cur)).semaphores answer k

/-- R179: a unit is granted to the longest waiter, or counts in the value. -/
def Semaphore.post (m : Semaphore) : Semaphore :=
  match m.waiting with
  | t :: r => { m with waiting := r, granted := m.granted ++ [t] }
  | [] => { m with value := min (m.value + 1) (2^32 - 1) }

/-- R179: the waiting thread's SWAIT: 1 while it waits, 0 when a unit is its own. -/
def Semaphore.take (m : Semaphore) (t : Nat) : Semaphore × Bool :=
  if m.granted.contains t then ({ m with granted := m.granted.erase t }, true)
  else if 0 < m.value then ({ m with value := m.value - 1 }, true)
  else ({ m with waiting := if m.waiting.contains t then m.waiting else m.waiting ++ [t] }, false)

/-- R179, R180 WEIR.SWAIT. The number is drawn when the operation is performed. -/
def execWeirSwait (ra : Reg) (s : State) : Result :=
  let v := s.x ra
  match allotted v 10 (s.part (s.partOf s.cur)).semaphores with
  | none => .next (s.fault .access v 0)
  | some i =>
    .next (s.releasing .pkg true (fun s =>
      let num := s.me.reqno
      let s' := s.modMe (fun t => t.nextNumber)
      match s.lookup .weir s.cur num false s.me.again s.now with
      | .stored _ => s'
      | .expired => s'.fault .retryexp v (num.setWidth 64)
      | .fresh =>
        let (m, done) := (s.sem i).take s.cur
        if done then (s'.setSem i m).keepResult .weir s.cur num 0 else (s.setSem i m).wait (.semaphore i)))

/-- R179 WEIR.SPOST. -/
def execWeirSpost (ra : Reg) (s : State) : Result :=
  .next (s.semOp ra (fun s _ => s) (fun i s => (s.setSem i (s.sem i).post, 0)))

/-- R179 WEIR.STRY. -/
def execWeirStry (rd ra : Reg) (s : State) : Result :=
  .next (s.semOp ra (fun s v => s.setX rd v) (fun i s =>
    if 0 < (s.sem i).value then (s.setSem i { s.sem i with value := (s.sem i).value - 1 }, 1) else (s, 0)))

end Sys2Proof.Machine
end

