-- ==== Sys2Proof/Machine/FlumeOps.lean ====
section
/-!
DEFINITION. Flumes (R181 to R186).
-/
namespace Sys2Proof.Machine

/-- Flume n of the executing thread's core. -/
def State.flume (s : State) (n : BitVec 4) : Flume := (s.coreAt s.here).flumes.get n.toFin

/-- The core with flume n set. -/
def Core.setFlume (k : Core) (n : Nat) (f : Flume) : Core :=
  if h : n < 16 then { k with flumes := k.flumes.set n f h } else k

/-- Flume n of the executing thread's core set. -/
def State.setFlume (s : State) (n : BitVec 4) (f : Flume) : State := s.modCore s.here (fun k => k.setFlume n.toNat f)

/-- R231: a stream register is bound to flume n. -/
def Core.bound (k : Core) (n : Nat) : Bool :=
  k.binds.toList.any (fun b => match b with | some x => x.fl.toNat == n | none => false)

/-- R257: the command uses flume n. -/
def MxCmd.uses (c : MxCmd) (n : Nat) : Bool :=
  ((c.code == 1 || c.code == 2) && (c.fa == n || c.fb == n)) || ((c.code == 4 || c.code == 5) && c.fl && c.fa == n)

/-- R182: the first bad field of an FCFG record, as its value. -/
def fcfgBad (bs : List Byte) : Option Nat :=
  let base := leAt bs 0 4
  let k := leAt bs 4 1
  let size := leAt bs 6 2
  if base % 64 ≠ 0 ∨ 2^20 ≤ base then some base
  else if 12 < k then some k
  else if size % 8 ≠ 0 ∨ size = 0 then some size
  else if leAt bs 8 8 ≠ 0 then some (leAt bs 8 8)
  else none

/-- R182: installs a record on flume n. -/
def State.configure (s : State) (n : BitVec 4) (bs : List Byte) : State :=
  let base := leAt bs 0 4
  let k := leAt bs 4 1
  let size := leAt bs 6 2
  if 0xF8000 < base + 2^k * size then s.fault .flume (n.setWidth 64) (word (base + 2^k * size))
  else s.setFlume n ⟨base, k, size, 0, 0, 0, true, s.me.launch⟩

/-- R182, R150 FCFG: UE, then a flume in use, before it waits for what overlaps its record. -/
def execFcfg (ra : Reg) (fl : BitVec 4) (s : State) : Result :=
  let va := s.x ra
  .next (s.ownOperand va 16 8 (fun a =>
    let k := s.coreAt s.here
    if s.poisonedFor s.cur a 16 then s.fault .ue va 0
    else if k.bound fl.toNat || k.mxqueue.any (fun c => c.uses fl.toNat) then s.fault .flume (fl.setWidth 64) va
    else if s.overlapBusy s.cur a 16 then s.wait (.overlap a 16)
    else
        let bs := Memory.readBytes s.mem a 16
        match fcfgBad bs with
        | some v => s.fault .flume (fl.setWidth 64) (word v)
        | none => s.configure fl bs))

/-- R183, R186: waits for n slots, filled or free. A waiter whose condition held at an update has left BLOCKED, and its word is
done: what other updates do until it issues does not hold it back again. -/
def State.flumeWait (s : State) (fl : BitVec 4) (n : Nat) (have' : Flume → Nat) (w : Wait) : State :=
  let f := s.flume fl
  if s.me.woke = some w then s
  else if !f.configured then s.fault .flume (fl.setWidth 64) 0
  else if 2^f.k < n then s.fault .flume (fl.setWidth 64) (word n)
  else if have' f < n then s.wait w
  else s

/-- R183 FWAITF. -/
def execFwaitf (ra : Reg) (fl : BitVec 4) (s : State) : Result :=
  let n := (s.x ra).toNat
  .next (s.flumeWait fl n (fun f => f.filled) (.filled fl.toNat n))

/-- R183 FWAITE. -/
def execFwaite (ra : Reg) (fl : BitVec 4) (s : State) : Result :=
  let n := (s.x ra).toNat
  .next (s.flumeWait fl n (fun f => 2^f.k - f.filled) (.free fl.toNat n))

/-- R184: the flume with n slots produced at its tail. -/
def Flume.produce (f : Flume) (n : Nat) : Flume := { f with tail := (f.tail + n) % 2^f.k, filled := f.filled + n }

/-- R184: the flume with n slots consumed at its head. -/
def Flume.consume (f : Flume) (n : Nat) : Flume := { f with head := (f.head + n) % 2^f.k, filled := f.filled - n }

/-- R184, R205 FPROD: a release at CORE scope of the slots. -/
def execFprod (ra : Reg) (fl : BitVec 4) (s : State) : Result :=
  let n := (s.x ra).toNat
  let f := s.flume fl
  if !f.configured then .next (s.fault .flume (fl.setWidth 64) 0)
  else if !s.released s.cur .core true then .next (s.wait (.performed .core true))
  else if 2^f.k - f.filled < n then .next (s.fault .flume (fl.setWidth 64) (word n))
  else .next (s.setFlume fl (f.produce n))

/-- R184, R238 FCONS: waits for the thread's vector memory entries. -/
def execFcons (ra : Reg) (fl : BitVec 4) (s : State) : Result :=
  let n := (s.x ra).toNat
  let f := s.flume fl
  if !f.configured then .next (s.fault .flume (fl.setWidth 64) 0)
  else if s.vectorMemoryBusy s.cur then .next (s.wait (.performed .core true))
  else if f.filled < n then .next (s.fault .flume (fl.setWidth 64) (word n))
  else .next (s.setFlume fl (f.consume n))

/-- R185: the word of FRD. -/
def Flume.word (f : Flume) : Word :=
  if f.configured then Machine.word (2^63 + f.k * 2^48 + f.filled * 2^32 + f.tail * 2^16 + f.head) else 0

/-- R185 FRD. -/
def execFrd (rd : Reg) (fl : BitVec 4) (s : State) : Result := .next (s.setX rd (s.flume fl).word)

end Sys2Proof.Machine
end

