-- ==== Sys2Proof/Machine/Resv.lean ====
section
/-!
DEFINITION. The reservoir: reserving, spending, reading the fill and sprinting (R272 to R278).
-/
namespace Sys2Proof.Machine

/-! Headroom and ranks. -/

/-- R267: the headroom of a partition, in whole partition units. -/
def Partition.headroom (q : Partition) : Nat := (q.pcap * 2^16 - q.pf - q.po * 2^16) / 2^16

/-- R274: the outstanding reservations of all partitions, in 2 mJ units with 32 fraction bits. -/
def State.outstanding (s : State) : Nat := s.parts.foldl (fun a e => a + e.2.po * 2^(32 - e.2.k)) 0

/-- R274: the package headroom in units of a partition with exponent k; 0 while the sluice is closed. -/
def State.packageHeadroom (s : State) (k : Nat) : Nat :=
  if s.sluiceClosed then 0 else (15 * 2^52 - s.fill * 2^16 - s.outstanding) * 2^k / 2^32

/-- R272: what partition p can be granted now. -/
def State.available (s : State) (p : Nat) : Nat := min (s.part p).headroom (s.packageHeadroom (s.part p).k)

/-- R273: a ranks above b: partition priority, CLASS, age. -/
def State.ranksAbove (s : State) (a b : Waiting) : Bool :=
  let pa := (s.part a.part).priority
  let pb := (s.part b.part).priority
  decide (pb < pa) || (pa == pb && (decide (b.cls < a.cls) || (a.cls == b.cls && decide (a.age < b.age))))

/-- R272: what a request gets of an amount: all or nothing, or as much as there is. -/
def Waiting.share (w : Waiting) (avail : Nat) : Nat := if w.partial? then min w.n avail else if w.n ≤ avail then w.n else 0

/-- R273: the request waits only because the package headroom is too small: its partition's is enough, and no request of its
partition ranks above it. -/
def State.waitsForPackage (s : State) (w : Waiting) : Bool :=
  decide (0 < w.share (s.part w.part).headroom) && w.share (s.available w.part) == 0
    && !s.sluice.any (fun (d : Waiting) => d.waits && d.thread != w.thread && d.part == w.part && s.ranksAbove d w)

/-- R273: the waiting request a stands before b. -/
def State.standsBefore (s : State) (a b : Waiting) : Bool :=
  a.waits && a.thread != b.thread && s.ranksAbove a b && (a.part == b.part || s.waitsForPackage a)

/-- R272: the grant that a request can have now; 0 while another stands before it. -/
def State.grantFor (s : State) (w : Waiting) : Nat :=
  if s.sluice.any (fun (a : Waiting) => s.standsBefore a w) then 0 else w.share (s.available w.part)

/-- R269, R272: u units are granted to thread t. Its grant age is set by the oldest grant still held (R285), which is
the first one since RESV was 0: the spec does not say which granted units a spend consumes (DESIGN CHOICE, log entry 86). -/
def State.grant (s : State) (t u : Nat) : State :=
  let s := s.modPart (s.partOf t) (fun q => { q with po := q.po + u })
  let age := s.nextId
  s.bump.modThread t (fun x => { x with resv := x.resv + u, grantAge := if x.resv = 0 then age else x.grantAge })

/-- R274, R328: sluice admission is host-assisted. -/
def State.sluiceAssisted (s : State) : Bool := s.modes.getLsbD 3

/-- R274, R395: the monitor is asked for a grant. -/
def State.askSluice (s : State) (w : Waiting) : State :=
  s.post 0 ⟨4, w.part, 0, word w.n, [word w.n, s.who w.thread 0, word w.cls]⟩

/-- R272: RSV in its four forms. A waiting thread is answered by RESERVATION_GRANT; in host-assisted mode every grant is the
monitor's, and a plain RSV or RSV.p that finds one waits for it (R274). -/
def State.reserve (s : State) (waits partial? : Bool) (rd ra : Reg) : State :=
  match s.me.reply with
  | some (.value v) => (s.modMe (fun t => { t with reply := none })).setX rd v
  | some _ => s.modMe (fun t => { t with reply := none })
  | none =>
    let n := (s.x ra).toNat
    let p := s.partOf s.cur
    let w : Waiting := ⟨s.cur, p, n, partial?, waits, s.me.rclass.toNat, s.nextId, s.sluiceAssisted⟩
    if n = 0 then s.setX rd 0
    else if waits ∧ (s.part p).pcap < n then s.fault .spill (word n) (word s.me.resv)
    else
      let g := s.grantFor w
      if 0 < g ∧ !s.sluiceAssisted then (s.grant s.cur g).setX rd (word g)
      else if g = 0 ∧ !waits then s.setX rd 0
      else
        let s := { s.bump with sluice := s.sluice.filter (fun (a : Waiting) => a.thread != s.cur) ++ [w] }
        (if s.sluiceAssisted then s.askSluice w else s).wait .reservation

/-- R272 RSV. -/
def execRsv (rd ra : Reg) (s : State) : Result := .next (s.reserve false false rd ra)

/-- R272 RSV.w. -/
def execRsvW (rd ra : Reg) (s : State) : Result := .next (s.reserve true false rd ra)

/-- R272 RSV.p. -/
def execRsvP (rd ra : Reg) (s : State) : Result := .next (s.reserve false true rd ra)

/-- R272 RSV.w.p. -/
def execRsvWP (rd ra : Reg) (s : State) : Result := .next (s.reserve true true rd ra)

/-! Spending. -/

/-- R275 SPND. -/
def execSpnd (ra : Reg) (s : State) : Result :=
  let n := (s.x ra).toNat
  let p := s.partOf s.cur
  if s.me.met then .next s
  else if s.me.resv < n then .next (s.fault .spill (word n) (word s.me.resv))
  else
    let s := (s.modPart p (fun q => { q with po := q.po - n })).heat p n
    .next (s.modMe (fun t => { t with resv := t.resv - n, dc := t.dc + n }))

/-- R276 RREL: the metered units that have accrued are debited first. -/
def execRrel (rd : Reg) (s : State) : Result :=
  let s := s.flushResidue s.here
  let u := s.me.resv
  let s := s.modPart (s.partOf s.cur) (fun q => { q with po := q.po - u })
  let s := s.modMe (fun t => { t with resv := 0, req := 0, dc := 0, mc := 0 })
  .next ((s.setX rd (word u)).relevel s.here)

/-- R277: floor(PF). -/
def State.fillOf (s : State) (p : Nat) : Nat := (s.part p).pf / 2^16

/-- R277 RFILL. -/
def execRfill (rd : Reg) (s : State) : Result := .next (s.setX rd (word (s.fillOf (s.partOf s.cur))))

/-- R277 RWAIT. -/
def execRwait (ra : Reg) (s : State) : Result :=
  let n := (s.x ra).toNat
  if s.fillOf (s.partOf s.cur) ≤ n then .next s else .next (s.wait (.fill n))

/-- R278 SPRINT. -/
def execSprint (level : BitVec 2) (s : State) : Result :=
  let q := s.part (s.partOf s.cur)
  if level ≠ 0 ∧ s.me.resv = 0 then .next (s.fault .nores (level.setWidth 64) 0)
  else if level ≠ 0 ∧ q.pcap * 2^16 ≤ q.pf then .next (s.fault .spill 0 (word s.me.resv))
  else .next ((s.modMe (fun t => { t with req := level })).relevel s.here)

end Sys2Proof.Machine
end

