-- ==== Sys2Proof/Machine/VecOps.lean ====
section
/-!
DEFINITION. What the vector functions compute, on register images (R239 to R249, R108).
-/
namespace Sys2Proof

/-- The format of a float lane type (R240, R242). -/
def FloatTy.fmt : FloatTy → Machine.Fmt
  | .f32 => Machine.Fmt.f32
  | .bf16 => Machine.Fmt.bf16

/-- The width of an integer lane type (R241). -/
def IntTy.width : IntTy → Nat
  | .i8 => 8 | .i16 => 16 | .i32 => 32

/-- The width of a permutation's lanes (R248). -/
def MoveTy.width : MoveTy → Nat
  | .w => 32 | .h => 16

/-- The width of a reduction's or comparison's lanes (R246, R247). -/
def RedTy.width : RedTy → Nat
  | .f32 | .i32 => 32
  | .bf16 => 16

end Sys2Proof

namespace Sys2Proof.Machine

/-! Lanes (R221). -/

/-- Lane i of width w of a register image. -/
def laneAt (w v i : Nat) : Nat := v / 2^(w * i) % 2^w

/-- The image of lanes of width w, lane 0 first. -/
def ofLanes (w : Nat) : List Nat → Nat
  | [] => 0
  | x :: xs => x % 2^w + 2^w * ofLanes w xs

/-- R221: a register image whose first lanes are written; the others keep their value. -/
def writeLanes (w : Nat) (old : Nat) (xs : List Nat) : Nat :=
  ofLanes w xs + old / 2^(w * xs.length) * 2^(w * xs.length)

/-- R221: the lanes of width w in force for a length in 32-bit lanes. -/
def lanesInForce (w len : Nat) : Nat := len * (32 / w)

/-- What a function writes: lanes from lane 0 on of a width, with its flags and the generator after its draws. -/
structure VOut where
  width : Nat
  lanes : List Nat
  flags : Flags
  lfsr : BitVec 32
  deriving DecidableEq, Repr

/-- One function over n lanes; the flags of all lanes gather. -/
def overLanes (w n : Nat) (g : BitVec 32) (f : Nat → Nat × Flags) : VOut :=
  let rs := (List.range n).map f
  ⟨w, rs.map (·.1), rs.foldl (fun a r => a ||| r.2) 0, g⟩

/-- What an entry reads: its length, the images of va, vb and vd, and its thread's generator. -/
structure VIn where
  len : Nat
  a : Nat
  b : Nat
  d : Nat
  lfsr : BitVec 32
  deriving DecidableEq, Repr

/-- A float function of two lanes (R240). -/
def VIn.float2 (x : VIn) (ty : FloatTy) (f : Fmt → Nat → Nat → Nat × Flags) : VOut :=
  let w := ty.fmt.width
  overLanes w (lanesInForce w x.len) x.lfsr (fun i => f ty.fmt (laneAt w x.a i) (laneAt w x.b i))

/-- A float function of three lanes (R242). -/
def VIn.float3 (x : VIn) (ty : FloatTy) (np nc : Bool) : VOut :=
  let w := ty.fmt.width
  overLanes w (lanesInForce w x.len) x.lfsr
    (fun i => ty.fmt.fma .rne np nc (laneAt w x.a i) (laneAt w x.b i) (laneAt w x.d i))

/-- A signed lane value of width w. -/
def signedLane (w v : Nat) : Int := if 2^(w - 1) ≤ v then (v : Int) - (2^w : Nat) else v

/-- A value modulo 2^w. -/
def wrapLane (w : Nat) (v : Int) : Nat := (v % (2^w : Nat)).toNat

/-- R241: signed saturation to width w. -/
def saturateLane (w : Nat) (v : Int) : Nat :=
  let hi : Int := (2^(w - 1) : Nat) - 1
  let lo : Int := -(2^(w - 1) : Nat)
  wrapLane w (if hi < v then hi else if v < lo then lo else v)

/-- An integer function of two lanes of width w (R241). -/
def VIn.int2 (x : VIn) (ty : IntTy) (f : Nat → Nat → Nat → Nat) : VOut :=
  let w := ty.width
  overLanes w (lanesInForce w x.len) x.lfsr (fun i => (f w (laneAt w x.a i) (laneAt w x.b i), 0))

/-- R241: the shift amount of a lane. -/
def laneShift (w b : Nat) : Nat := b % w

/-! Conversions (R243). -/

/-- The source lane of a narrowing conversion: va's 32 lanes, then vb's. -/
def VIn.narrowSource (x : VIn) (i : Nat) : Nat := if i < 32 then laneAt 32 x.a i else laneAt 32 x.b (i - 32)

/-- R105, R106: n lanes converted stochastically from lane i on, one draw each. -/
def VIn.stochLanes (x : VIn) (f : Fmt) (g : BitVec 32) (i : Nat) : Nat → List Nat × Flags × BitVec 32
  | 0 => ([], 0, g)
  | n + 1 =>
    let (g, d) := lfsrAdvance g
    let (r, fl) := f.stochConvert d (x.narrowSource i)
    let (rs, fr, g) := x.stochLanes f g (i + 1) n
    (r :: rs, fl ||| fr, g)

/-- R243: FP32 lanes narrowed to a 16-bit format, to nearest even or stochastically. -/
def VIn.narrow (x : VIn) (f : Fmt) (sr : Bool) : VOut :=
  if sr then
    let (ls, fl, g) := x.stochLanes f x.lfsr 0 (2 * x.len)
    ⟨16, ls, fl, g⟩
  else overLanes 16 (2 * x.len) x.lfsr (fun i => Fmt.f32.convert f .rne (x.narrowSource i))

/-- R243: 16-bit lanes from lane `lo` on widened to FP32. -/
def VIn.widen (x : VIn) (f : Fmt) (lo : Nat) : VOut :=
  overLanes 32 x.len x.lfsr (fun i => f.convert Fmt.f32 .rne (laneAt 16 x.a (lo + i)))

/-- R244: a block record decoded into 32 FP32 lanes. -/
def VIn.unpackRecord (x : VIn) (f : Fmt) : VOut := overLanes 32 32 x.lfsr (fun i => f.unpack x.a i)

/-- R245: 32 FP32 lanes quantised into one record, zero above it. -/
def VIn.packRecord (x : VIn) (f : Fmt) (sr : Bool) : VOut :=
  let (v, fl, g) := f.packRecord sr x.lfsr ((List.range 32).map (laneAt 32 x.a))
  ⟨1024, [v], fl, g⟩

/-! Reductions (R246, R108). -/

/-- One level of the tree of R108: neighbours combine; an absent value leaves the other as it is. -/
def treeLevel (f : Nat → Nat → Nat × Flags) : List (Option Nat) → List (Option Nat) × Flags
  | some a :: some b :: r =>
    let (v, fl) := f a b
    let (vs, fr) := treeLevel f r
    (some v :: vs, fl ||| fr)
  | a :: b :: r =>
    let (vs, fr) := treeLevel f r
    ((if a.isSome then a else b) :: vs, fr)
  | r => (r, 0)

/-- R108: n levels of the tree. -/
def treeReduce (f : Nat → Nat → Nat × Flags) : Nat → List (Option Nat) → Option Nat × Flags
  | 0, ts => (ts.headD none, 0)
  | n + 1, ts =>
    let (us, fl) := treeLevel f ts
    let (v, fr) := treeReduce f n us
    (v, fl ||| fr)

/-- The lanes of width w of va that take part, absent above the length (R108). -/
def VIn.taking (x : VIn) (w : Nat) : List (Option Nat) :=
  (List.range (1024 / w)).map (fun i => if i < lanesInForce w x.len then some (laneAt w x.a i) else none)

/-- R246, R90: a lane of a float reduction, as FP32: a NaN is canonical, a signalling one raises IV. -/
def redLane (f : Fmt) (v : Nat) : Nat × Flags := f.convert Fmt.f32 .rne v

/-- The lanes that take part in a float reduction, as FP32, with the flags of R246. -/
def VIn.takingFloat (x : VIn) (f : Fmt) : List (Option Nat) × Flags :=
  let ls := (x.taking f.width).map (fun o => o.map (redLane f))
  (ls.map (fun o => o.map (·.1)), ls.foldl (fun a o => a ||| (match o with | some r => r.2 | none => 0)) 0)

/-- R108: the sum of a float reduction; the result is rounded to BF16 once for bf16. -/
def VIn.sumFloat (x : VIn) (f : Fmt) : VOut :=
  let (ts, f0) := x.takingFloat f
  let (v, f1) := treeReduce (Fmt.f32.add .rne) (1024 / f.width).log2 ts
  let (r, f2) := match v with
    | none => (0, 0)
    | some v => if f.width = 32 then (v, 0) else Fmt.f32.convert f .rne v
  ⟨f.width, [r], f0 ||| f1 ||| f2, x.lfsr⟩

/-- R108: the maximum or minimum of a float reduction. -/
def VIn.extremeFloat (x : VIn) (f : Fmt) (wantMax : Bool) : VOut :=
  let (_, f0) := x.takingFloat f
  let ts := x.taking f.width
  let nan := ts.any (fun o => match o with | some v => (f.decode v).isNan | none => false)
  let r := match (treeReduce (fun a b => (f.minMax wantMax a b).1 |> fun v => (v, (0 : Flags))) (1024 / f.width).log2 ts).1 with
    | none => 0
    | some v => if nan then f.nan else v
  ⟨f.width, [r], f0, x.lfsr⟩

/-- R246: an i32 reduction. -/
def VIn.reduceInt (x : VIn) (f : Nat → Nat → Nat) : VOut :=
  let v := (treeReduce (fun a b => (f a b, (0 : Flags))) 5 (x.taking 32)).1
  ⟨32, [v.getD 0], 0, x.lfsr⟩

/-- R246: VRSUM. -/
def VIn.rsum (x : VIn) : RedTy → VOut
  | .f32 => x.sumFloat Fmt.f32
  | .bf16 => x.sumFloat Fmt.bf16
  | .i32 => x.reduceInt (fun a b => (a + b) % 2^32)

/-- R246: VRMAX and VRMIN. -/
def VIn.rextreme (x : VIn) (wantMax : Bool) : RedTy → VOut
  | .f32 => x.extremeFloat Fmt.f32 wantMax
  | .bf16 => x.extremeFloat Fmt.bf16 wantMax
  | .i32 => x.reduceInt (fun a b => if decide (signedLane 32 a < signedLane 32 b) == wantMax then b else a)

/-- R247: a comparison; all ones where it holds. -/
def VIn.compare (x : VIn) (ty : RedTy) (ff : Fmt → Nat → Nat → Bool × Flags) (fi : Int → Int → Bool) : VOut :=
  let w := ty.width
  overLanes w (lanesInForce w x.len) x.lfsr (fun i =>
    let a := laneAt w x.a i
    let b := laneAt w x.b i
    let (c, fl) := match ty with
      | .f32 => ff Fmt.f32 a b
      | .bf16 => ff Fmt.bf16 a b
      | .i32 => (fi (signedLane 32 a) (signedLane 32 b), 0)
    (if c then 2^w - 1 else 0, fl))

/-- R248: a permutation: lane i comes from a selection. -/
def VIn.permute (x : VIn) (ty : MoveTy) (f : Nat → Nat → Nat) : VOut :=
  let w := ty.width
  overLanes w (lanesInForce w x.len) x.lfsr (fun i => (f w i, 0))

/-- R249: one function of FP32 lanes of va. -/
def VIn.sfu (x : VIn) (f : Nat → Nat × Flags) : VOut := overLanes 32 x.len x.lfsr (fun i => f (laneAt 32 x.a i))

end Sys2Proof.Machine

namespace Sys2Proof

open Machine

/-- What a vector word writes and reads: the register written, the register of the vd field that is read, va and vb with
their hold bits (R69, R239). -/
structure VShape where
  dest : Option VReg
  srcD : Option VReg
  srcA : Option (VReg × Bool)
  srcB : Option (VReg × Bool)
  deriving DecidableEq, Repr

/-- The shape of a word that becomes a vector queue entry; none for another word (R219). -/
def Instr.vshape : Instr → Option VShape
  | .vld vd _ _ _ => some ⟨some vd, none, none, none⟩
  | .vlds vd _ _ _ => some ⟨some vd, none, none, none⟩
  | .vldf vd _ _ _ => some ⟨some vd, none, none, none⟩
  | .vst vd _ _ _ => some ⟨none, some vd, none, none⟩
  | .vsts vd _ _ _ => some ⟨none, some vd, none, none⟩
  | .vstf vd _ _ _ => some ⟨none, some vd, none, none⟩
  | .vmovxVx vd _ _ => some ⟨some vd, none, none, none⟩
  | .varithVadd vd va vb ha hb _ => some ⟨some vd, none, some (va, ha), some (vb, hb)⟩
  | .varithVsub vd va vb ha hb _ => some ⟨some vd, none, some (va, ha), some (vb, hb)⟩
  | .varithVmul vd va vb ha hb _ => some ⟨some vd, none, some (va, ha), some (vb, hb)⟩
  | .varithVmin vd va vb ha hb _ => some ⟨some vd, none, some (va, ha), some (vb, hb)⟩
  | .varithVmax vd va vb ha hb _ => some ⟨some vd, none, some (va, ha), some (vb, hb)⟩
  | .varithVabs vd va ha _ => some ⟨some vd, none, some (va, ha), none⟩
  | .varithVneg vd va ha _ => some ⟨some vd, none, some (va, ha), none⟩
  | .vintVadd vd va vb ha hb _ => some ⟨some vd, none, some (va, ha), some (vb, hb)⟩
  | .vintVsub vd va vb ha hb _ => some ⟨some vd, none, some (va, ha), some (vb, hb)⟩
  | .vintVmul vd va vb ha hb _ => some ⟨some vd, none, some (va, ha), some (vb, hb)⟩
  | .vintVmin vd va vb ha hb _ => some ⟨some vd, none, some (va, ha), some (vb, hb)⟩
  | .vintVmax vd va vb ha hb _ => some ⟨some vd, none, some (va, ha), some (vb, hb)⟩
  | .vintVminu vd va vb ha hb _ => some ⟨some vd, none, some (va, ha), some (vb, hb)⟩
  | .vintVmaxu vd va vb ha hb _ => some ⟨some vd, none, some (va, ha), some (vb, hb)⟩
  | .vintVand vd va vb ha hb _ => some ⟨some vd, none, some (va, ha), some (vb, hb)⟩
  | .vintVor vd va vb ha hb _ => some ⟨some vd, none, some (va, ha), some (vb, hb)⟩
  | .vintVxor vd va vb ha hb _ => some ⟨some vd, none, some (va, ha), some (vb, hb)⟩
  | .vintVsll vd va vb ha hb _ => some ⟨some vd, none, some (va, ha), some (vb, hb)⟩
  | .vintVsrl vd va vb ha hb _ => some ⟨some vd, none, some (va, ha), some (vb, hb)⟩
  | .vintVsra vd va vb ha hb _ => some ⟨some vd, none, some (va, ha), some (vb, hb)⟩
  | .vintVadds vd va vb ha hb _ => some ⟨some vd, none, some (va, ha), some (vb, hb)⟩
  | .vintVsubs vd va vb ha hb _ => some ⟨some vd, none, some (va, ha), some (vb, hb)⟩
  | .vcvtBf16F32 vd va vb ha hb _ => some ⟨some vd, none, some (va, ha), some (vb, hb)⟩
  | .vcvtF32Bf16Lo vd va ha => some ⟨some vd, none, some (va, ha), none⟩
  | .vcvtF32Bf16Hi vd va ha => some ⟨some vd, none, some (va, ha), none⟩
  | .vcvtF16F32 vd va vb ha hb _ => some ⟨some vd, none, some (va, ha), some (vb, hb)⟩
  | .vcvtF32F16Lo vd va ha => some ⟨some vd, none, some (va, ha), none⟩
  | .vcvtF32F16Hi vd va ha => some ⟨some vd, none, some (va, ha), none⟩
  | .vcvtF32I32 vd va ha => some ⟨some vd, none, some (va, ha), none⟩
  | .vcvtI32F32 vd va ha => some ⟨some vd, none, some (va, ha), none⟩
  | .vunpkE2m1 vd va ha => some ⟨some vd, none, some (va, ha), none⟩
  | .vunpkE3m2 vd va ha => some ⟨some vd, none, some (va, ha), none⟩
  | .vunpkE2m3 vd va ha => some ⟨some vd, none, some (va, ha), none⟩
  | .vunpkE4m3 vd va ha => some ⟨some vd, none, some (va, ha), none⟩
  | .vunpkE5m2 vd va ha => some ⟨some vd, none, some (va, ha), none⟩
  | .vpackE2m1 vd va ha _ => some ⟨some vd, none, some (va, ha), none⟩
  | .vpackE3m2 vd va ha _ => some ⟨some vd, none, some (va, ha), none⟩
  | .vpackE2m3 vd va ha _ => some ⟨some vd, none, some (va, ha), none⟩
  | .vpackE4m3 vd va ha _ => some ⟨some vd, none, some (va, ha), none⟩
  | .vpackE5m2 vd va ha _ => some ⟨some vd, none, some (va, ha), none⟩
  | .vrsum vd va ha _ => some ⟨some vd, none, some (va, ha), none⟩
  | .vrmax vd va ha _ => some ⟨some vd, none, some (va, ha), none⟩
  | .vrmin vd va ha _ => some ⟨some vd, none, some (va, ha), none⟩
  | .vcmpeq vd va vb ha hb _ => some ⟨some vd, none, some (va, ha), some (vb, hb)⟩
  | .vcmplt vd va vb ha hb _ => some ⟨some vd, none, some (va, ha), some (vb, hb)⟩
  | .vcmple vd va vb ha hb _ => some ⟨some vd, none, some (va, ha), some (vb, hb)⟩
  | .vsel vd va vb ha hb _ => some ⟨some vd, some vd, some (va, ha), some (vb, hb)⟩
  | .vshuf vd va vb ha hb _ => some ⟨some vd, none, some (va, ha), some (vb, hb)⟩
  | .vbcast vd va ha _ => some ⟨some vd, none, some (va, ha), none⟩
  | .vrcp vd va ha => some ⟨some vd, none, some (va, ha), none⟩
  | .vrsqrt vd va ha => some ⟨some vd, none, some (va, ha), none⟩
  | .vsqrt vd va ha => some ⟨some vd, none, some (va, ha), none⟩
  | .vexp2 vd va ha => some ⟨some vd, none, some (va, ha), none⟩
  | .vlog2 vd va ha => some ⟨some vd, none, some (va, ha), none⟩
  | .vfma vd va vb ha hb _ => some ⟨some vd, some vd, some (va, ha), some (vb, hb)⟩
  | .vfms vd va vb ha hb _ => some ⟨some vd, some vd, some (va, ha), some (vb, hb)⟩
  | .vfnma vd va vb ha hb _ => some ⟨some vd, some vd, some (va, ha), some (vb, hb)⟩
  | _ => none

/-- What the function of a V-format word computes (R239 to R249); none for another word. -/
def Instr.vcompute (i : Instr) (x : VIn) : Option VOut :=
  match i with
  | .varithVadd _ _ _ _ _ ty => some (x.float2 ty (fun f a b => f.add .rne a b))
  | .varithVsub _ _ _ _ _ ty => some (x.float2 ty (fun f a b => f.sub .rne a b))
  | .varithVmul _ _ _ _ _ ty => some (x.float2 ty (fun f a b => f.mul .rne a b))
  | .varithVmin _ _ _ _ _ ty => some (x.float2 ty (fun f a b => f.minMax false a b))
  | .varithVmax _ _ _ _ _ ty => some (x.float2 ty (fun f a b => f.minMax true a b))
  | .varithVabs _ _ _ ty => some (x.float2 ty (fun f a _ => f.abs a))
  | .varithVneg _ _ _ ty => some (x.float2 ty (fun f a _ => f.negate a))
  | .vintVadd _ _ _ _ _ ty => some (x.int2 ty (fun w a b => (a + b) % 2^w))
  | .vintVsub _ _ _ _ _ ty => some (x.int2 ty (fun w a b => (a + 2^w - b) % 2^w))
  | .vintVmul _ _ _ _ _ ty => some (x.int2 ty (fun w a b => a * b % 2^w))
  | .vintVmin _ _ _ _ _ ty => some (x.int2 ty (fun w a b => if signedLane w b < signedLane w a then b else a))
  | .vintVmax _ _ _ _ _ ty => some (x.int2 ty (fun w a b => if signedLane w a < signedLane w b then b else a))
  | .vintVminu _ _ _ _ _ ty => some (x.int2 ty (fun _ a b => Nat.min a b))
  | .vintVmaxu _ _ _ _ _ ty => some (x.int2 ty (fun _ a b => Nat.max a b))
  | .vintVand _ _ _ _ _ ty => some (x.int2 ty (fun _ a b => a &&& b))
  | .vintVor _ _ _ _ _ ty => some (x.int2 ty (fun _ a b => a ||| b))
  | .vintVxor _ _ _ _ _ ty => some (x.int2 ty (fun _ a b => a ^^^ b))
  | .vintVsll _ _ _ _ _ ty => some (x.int2 ty (fun w a b => a * 2^laneShift w b % 2^w))
  | .vintVsrl _ _ _ _ _ ty => some (x.int2 ty (fun w a b => a / 2^laneShift w b))
  | .vintVsra _ _ _ _ _ ty => some (x.int2 ty (fun w a b => wrapLane w (signedLane w a / (2^laneShift w b : Nat))))
  | .vintVadds _ _ _ _ _ ty => some (x.int2 ty (fun w a b => saturateLane w (signedLane w a + signedLane w b)))
  | .vintVsubs _ _ _ _ _ ty => some (x.int2 ty (fun w a b => saturateLane w (signedLane w a - signedLane w b)))
  | .vcvtBf16F32 _ _ _ _ _ sr => some (x.narrow Fmt.bf16 sr)
  | .vcvtF32Bf16Lo _ _ _ => some (x.widen Fmt.bf16 0)
  | .vcvtF32Bf16Hi _ _ _ => some (x.widen Fmt.bf16 32)
  | .vcvtF16F32 _ _ _ _ _ sr => some (x.narrow Fmt.f16 sr)
  | .vcvtF32F16Lo _ _ _ => some (x.widen Fmt.f16 0)
  | .vcvtF32F16Hi _ _ _ => some (x.widen Fmt.f16 32)
  | .vcvtF32I32 _ _ _ => some (overLanes 32 x.len x.lfsr (fun i => Fmt.f32.ofInt .rne (signedLane 32 (laneAt 32 x.a i))))
  | .vcvtI32F32 _ _ _ => some (overLanes 32 x.len x.lfsr (fun i => Fmt.f32.toInt .rne 32 (laneAt 32 x.a i)))
  | .vunpkE2m1 _ _ _ => some (x.unpackRecord Fmt.e2m1)
  | .vunpkE3m2 _ _ _ => some (x.unpackRecord Fmt.e3m2)
  | .vunpkE2m3 _ _ _ => some (x.unpackRecord Fmt.e2m3)
  | .vunpkE4m3 _ _ _ => some (x.unpackRecord Fmt.e4m3)
  | .vunpkE5m2 _ _ _ => some (x.unpackRecord Fmt.e5m2)
  | .vpackE2m1 _ _ _ sr => some (x.packRecord Fmt.e2m1 sr)
  | .vpackE3m2 _ _ _ sr => some (x.packRecord Fmt.e3m2 sr)
  | .vpackE2m3 _ _ _ sr => some (x.packRecord Fmt.e2m3 sr)
  | .vpackE4m3 _ _ _ sr => some (x.packRecord Fmt.e4m3 sr)
  | .vpackE5m2 _ _ _ sr => some (x.packRecord Fmt.e5m2 sr)
  | .vrsum _ _ _ ty => some (x.rsum ty)
  | .vrmax _ _ _ ty => some (x.rextreme true ty)
  | .vrmin _ _ _ ty => some (x.rextreme false ty)
  | .vcmpeq _ _ _ _ _ ty => some (x.compare ty (fun f a b => f.cmpEq a b) (fun a b => a == b))
  | .vcmplt _ _ _ _ _ ty => some (x.compare ty (fun f a b => f.cmpLt a b) (fun a b => decide (a < b)))
  | .vcmple _ _ _ _ _ ty => some (x.compare ty (fun f a b => f.cmpLe a b) (fun a b => decide (a ≤ b)))
  | .vsel _ _ _ _ _ ty => some (x.permute ty (fun w i => if (laneAt w x.d i).testBit (w - 1) then laneAt w x.a i else laneAt w x.b i))
  | .vshuf _ _ _ _ _ ty => some (x.permute ty (fun w i => laneAt w x.a (laneAt w x.b i % (1024 / w))))
  | .vbcast _ _ _ ty => some (x.permute ty (fun w _ => laneAt w x.a 0))
  | .vrcp _ _ _ => some (x.sfu sfuRcp)
  | .vrsqrt _ _ _ => some (x.sfu sfuRsqrt)
  | .vsqrt _ _ _ => some (x.sfu (Fmt.f32.sqrt .rne))
  | .vexp2 _ _ _ => some (x.sfu sfuExp2)
  | .vlog2 _ _ _ => some (x.sfu sfuLog2)
  | .vfma _ _ _ _ _ ty => some (x.float3 ty false false)
  | .vfms _ _ _ _ _ ty => some (x.float3 ty false true)
  | .vfnma _ _ _ _ _ ty => some (x.float3 ty true false)
  | _ => none

/-- R249: a word of the special-function unit. -/
def Instr.isSfu : Instr → Bool
  | .vrcp _ _ _ | .vrsqrt _ _ _ | .vsqrt _ _ _ | .vexp2 _ _ _ | .vlog2 _ _ _ => true
  | _ => false

end Sys2Proof
end

