-- ==== Sys2Proof/Machine/VecQueue.lean ====
section
/-!
DEFINITION. The vector queue at issue: what a word captures when it is queued (R219 to R222, R235) and the vector control
words (R227 to R233).
-/
namespace Sys2Proof

/-- The registers that a vector word names: written and read (R221, R232). -/
def Instr.vregs (i : Instr) : List VReg :=
  match i.vshape with
  | some h => h.dest.toList ++ h.srcD.toList ++ (h.srcA.map (·.1)).toList ++ (h.srcB.map (·.1)).toList
  | none => []

end Sys2Proof

namespace Sys2Proof.Machine

/-! What the executing word sees. -/

/-- VL.LEN; the second word of a pair sees the value before the pair (R51, R222). -/
def State.vlNow (s : State) : Nat :=
  match s.pair with
  | some p => p.vl
  | none => s.me.vl

/-- The bindings of v28-v31; the second word of a pair sees those before the pair (R51, R222). -/
def State.bindsNow (s : State) : Vector (Option Bind) 4 :=
  match s.pair with
  | some p => p.binds
  | none => (s.coreAt s.here).binds

/-- The binding of vector register v among four (R70). -/
def bindOf (bs : List (Option Bind)) (v : VReg) : Option Bind := if v.toNat < 28 then none else bs.getD (v.toNat - 28) none

/-- R221: the length in force: VL, or the smallest bound of the streams that the word names. -/
def lengthInForce (vl : Nat) (bs : List (Option Bind)) (named : List VReg) : Nat :=
  match named.filterMap (bindOf bs) with
  | [] => vl
  | b :: r => r.foldl (fun a x => min a x.bound) b.bound

/-- R219: the core's vector queue holds 16 entries. -/
def State.queueFull (s : State) (c : Nat) : Bool := decide (16 ≤ (s.coreAt c).vqueue.length)

/-- R222: the entry of the second word of a pair whose first word has created an entry. -/
def State.secondEntry (s : State) : Bool :=
  match s.pair with
  | some p => decide (p.queued < (s.coreAt s.here).vqueue.length)
  | none => false

/-- R220: the entry of a word. -/
def State.entryOf (s : State) (i : Instr) (xa xb : Word) (addrs : List Nat) : VEntry :=
  let bs := s.bindsNow.toList
  ⟨i, s.cur, lengthInForce s.vlNow bs i.vregs, xa, xb, addrs, bs, if s.secondEntry then some [] else none,
    s.pair.bind (·.seed), ((s.pair.map (·.got)).getD []), [], false⟩

/-- An item with a body enters the core's queue (R219). -/
def State.append (s : State) (body : List VEntry) (isLoop : Bool) (passes : Nat) : State :=
  let q : VItem := ⟨body, isLoop, passes, 0, body.any (fun e => !e.got.isEmpty), false, false, 0, s.nextId, s.now, s.cur⟩
  s.bump.modCore s.here (fun k => { k with vqueue := k.vqueue ++ [q] })

/-- R228: the thread's last 16 entries, newest last, in the form they were enqueued in; a replay reads as an ordinary
entry does. -/
def Thread.remember (t : Thread) (e : VEntry) : Thread :=
  let r := t.replay ++ [{ e with old := none, seed := none, got := [] }]
  { t with replay := r.drop (r.length - 16) }

/-- R219, R220: a word becomes an entry, or waits for a free slot. -/
def State.enqueue (s : State) (i : Instr) (xa xb : Word) (addrs : List Nat) : State :=
  if s.queueFull s.here then s.wait (.queueRoom 1)
  else
    let e := s.entryOf i xa xb addrs
    (s.append [e] false 1).modMe (fun t => t.remember e)

/-! Vector loads and stores (R235). -/

/-- The core-local address of a scratchpad offset (R73, R74). -/
def spadVa (off : Nat) : Word := word (15 * 2^51 + off)

/-- R73: the rank-space form of an address, whatever its offset. -/
def isRankForm (a : Word) : Bool := decide (2^63 ≤ a.toNat) && a.toNat / 2^61 % 4 == 0 && a.toNat / 2^20 % 2^31 == 0

/-- R235: what is wrong with element address a of e bytes. A canonical rank-space address is no core-local one, whatever its
offset. -/
def elementError (a : Word) (e : Nat) : Option Cause :=
  if isRankForm a then (if a.toNat % e ≠ 0 then some .misalign else some .farord)
  else match classify a with
  | .spad off => if 0xF8000 < off + e then some .access else if a.toNat % e ≠ 0 then some .misalign else none
  | .slot _ | .refused => some .access
  | .home _ | .rank _ _ => if a.toNat % e ≠ 0 then some .misalign else some .farord

/-- R235: the first lane that fails, with its trap. -/
def firstBadLane (e : Nat) : List Word → Nat → Option Trap
  | [], _ => none
  | a :: r, i =>
    match elementError a e with
    | some c => some ⟨c, a, 0, 0, BitVec.ofNat 8 i⟩
    | none => firstBadLane e r (i + 1)

/-- R361: the first lane that the thread's own watch matches. -/
def State.watchedLane (s : State) (writes : Bool) (e : Nat) : List Word → Nat → Option Trap
  | [], _ => none
  | a :: r, i =>
    match s.ownWatch ⟨s.here, false, true, writes, !writes⟩ a e with
    | some n => some ⟨.watch n, a, 0, 0, BitVec.ofNat 8 i⟩
    | none => s.watchedLane writes e r (i + 1)

/-- R235: the word's element addresses are checked and it is queued with them. -/
def State.vectorAccess (s : State) (i : Instr) (writes : Bool) (e : Nat) (va : List Word) (xa xb : Word) : State :=
  match firstBadLane e va 0 with
  | some t => s.raise t
  | none =>
    match s.watchedLane writes e va 0 with
    | some t => s.raise t
    | none => s.enqueue i xa xb (va.map (fun a => spadKey s.here (a.toNat % 2^51)))

/-- R235: the lanes in force of a vector memory word on register v with elements of e bytes. -/
def State.elements (s : State) (v : VReg) (e : Nat) : Nat :=
  lanesInForce (8 * e) (lengthInForce s.vlNow s.bindsNow.toList [v])

/-- R235: contiguous elements. -/
def State.contiguous (s : State) (i : Instr) (writes : Bool) (v : VReg) (ra rb : Reg) (el : Elem) : State :=
  let e := el.bytes
  let n := s.elements v e
  s.vectorAccess i writes e ((List.range n).map (fun j => s.x ra + s.x rb + word (j * e))) (s.x ra) (s.x rb)

/-- R235: strided elements. -/
def State.strided (s : State) (i : Instr) (writes : Bool) (v : VReg) (ra rb : Reg) (el : Elem) : State :=
  let e := el.bytes
  let n := s.elements v e
  s.vectorAccess i writes e ((List.range n).map (fun j => s.x ra + word j * s.x rb)) (s.x ra) (s.x rb)

/-- R235: elements in the head slot (load) or the tail slot (store) of a flume. -/
def State.inFlume (s : State) (i : Instr) (writes : Bool) (v : VReg) (ra rb : Reg) (el : Elem) : State :=
  let e := el.bytes
  let n := s.elements v e
  let num := (s.x ra).toNat
  if 15 < num then s.fault .flume (s.x ra) (s.x ra)
  else
    let f := s.flume (BitVec.ofNat 4 num)
    if !f.configured then s.fault .flume (word num) 0
    else if f.size < (s.x rb).toNat + n * e then s.fault .flume (word num) (s.x rb)
    else
      let slot := if writes then f.tail else f.head
      let base := spadVa (f.base + slot * f.size) + s.x rb
      s.vectorAccess i writes e ((List.range n).map (fun j => base + word (j * e))) (s.x ra) (s.x rb)

/-! Vector control. -/

/-- R227 VSETL. -/
def execVsetl (rd ra : Reg) (s : State) : Result :=
  let n := vlWrite (s.x ra)
  .next ((s.modMe (fun t => { t with vl := n })).setX rd (word n))

/-- R228 VLOOP: the thread's last k entries are queued as one loop entry of n passes. -/
def execVloop (ra : Reg) (k : BitVec 6) (s : State) : Result :=
  let n := (s.x32 ra).toNat
  if n = 0 then .next s
  else if s.queueFull s.here then .next (s.wait (.queueRoom 1))
  else .next (s.append (s.me.replay.drop (s.me.replay.length - k.toNat)) true n)

/-- An item of the queue writes register v. -/
def VItem.writes (q : VItem) (v : Nat) : Bool :=
  q.body.any (fun e => match e.word.vshape with
    | some h => (match h.dest with | some d => d.toNat == v | none => false)
    | none => false)

/-- An item of the queue names register v (R232, R233). -/
def VItem.names (q : VItem) (v : Nat) : Bool := q.body.any (fun e => e.word.vregs.any (fun r => r.toNat == v))

/-- R229: an entry queued before number n that writes register v has not retired. -/
def State.writerBefore (s : State) (c v n : Nat) : Bool :=
  (s.coreAt c).vqueue.any (fun q => decide (q.age < n) && q.writes v)

/-- R232, R233: an entry of the core's queue names register v. -/
def State.namedInQueue (s : State) (c v : Nat) : Bool := (s.coreAt c).vqueue.any (fun q => q.names v)

/-- R229 VMOVX.XV: waits for the earlier entries that write vb, then reads a lane. -/
def execVmovxXv (rd ra : Reg) (vb : VReg) (s : State) : Result :=
  match bindOf (s.coreAt s.here).binds.toList vb with
  | some b => .next (s.fault .flume (b.fl.setWidth 64) (vb.setWidth 64))
  | none =>
    let wait : Option Nat := match s.me.woke with
      | some (.vwriter _ _) => none
      | _ => if s.writerBefore s.here vb.toNat s.nextId then some s.nextId else none
    match wait with
    | some n => .next (s.bump.wait (.vwriter vb.toNat n))
    | none => .next (s.setX rd (word (laneAt 32 ((s.coreAt s.here).vregs.get vb.toFin).toNat ((s.x ra).toNat % 32))))

/-- R230 VMOVX.VX. -/
def execVmovxVx (vd : VReg) (ra rb : Reg) (s : State) : Result :=
  match bindOf s.bindsNow.toList vd with
  | some b => .next (s.fault .flume (b.fl.setWidth 64) (vd.setWidth 64))
  | none => .next (s.enqueue (.vmovxVx vd ra rb) (word ((s.x ra).toNat % 2^32)) (word ((s.x rb).toNat % 32)) [])

/-- The core with the binding of vector register v set (R231); a hold of v ends (R226). -/
def Core.setBind (k : Core) (v : Nat) (b : Option Bind) : Core :=
  { k with
    binds := if h : v - 28 < 4 then k.binds.set (v - 28) b h else k.binds
    holds := k.holds.filter (fun x => x.v.toNat != v) }

/-- R232: the stream register that is bound to flume n. -/
def Core.boundTo (k : Core) (n : Nat) : Option Nat :=
  ([28, 29, 30, 31] : List Nat).find? (fun v => match bindOf k.binds.toList (BitVec.ofNat 5 v) with
    | some b => b.fl.toNat == n
    | none => false)

/-- The stream register that the field of SBIND and SUNBIND names: v28 to v31 (R70, R232). -/
def streamReg (v : BitVec 2) : VReg := 28 + v.setWidth 5

/-- R232 SBIND. -/
def execSbind (v : BitVec 2) (ra : Reg) (fl : BitVec 4) (s : State) : Result :=
  let vd := streamReg v
  let k := s.coreAt s.here
  let b := (s.x32 ra).toNat
  let f := s.flume fl
  let n : Word := fl.setWidth 64
  if !f.configured then .next (s.fault .flume n 0)
  else if b = 0 ∨ 32 < b then .next (s.fault .flume n (word b))
  else if f.size % (4 * b) ≠ 0 then .next (s.fault .flume n (word f.size))
  else if (bindOf k.binds.toList vd).isSome then .next (s.fault .flume n (vd.setWidth 64))
  else match k.boundTo fl.toNat with
    | some v => .next (s.fault .flume n (word v))
    | none =>
      if s.namedInQueue s.here vd.toNat then .next (s.wait (.streamIdle vd.toNat))
      else .next (s.modCore s.here (fun k => k.setBind vd.toNat (some ⟨fl, b, 0, 0, s.me.launch⟩)))

/-- R233: the partly read head slot is popped and the partly written tail slot produced, as far as the flume allows. -/
def closeStream (f : Flume) (b : Bind) : Flume :=
  let f := if b.ro ≠ 0 ∧ 0 < f.filled then f.consume 1 else f
  if b.wo ≠ 0 ∧ f.filled < 2^f.k then f.produce 1 else f

/-- R233 SUNBIND. -/
def execSunbind (v : BitVec 2) (s : State) : Result :=
  let vd := streamReg v
  match bindOf (s.coreAt s.here).binds.toList vd with
  | none => .next s
  | some b =>
    if s.namedInQueue s.here vd.toNat then .next (s.wait (.streamIdle vd.toNat))
    else
      let s := s.setFlume b.fl (closeStream (s.flume b.fl) b)
      .next (s.modCore s.here (fun k => k.setBind vd.toNat none))

/-! The words that become entries (R219). -/

/-- R235 VLD. -/
def execVld (vd : VReg) (ra : Reg) (rb : Reg) (e : Elem) (s : State) : Result :=
  .next (s.contiguous (.vld vd ra rb e) false vd ra rb e)

/-- R235 VLDS. -/
def execVlds (vd : VReg) (ra : Reg) (rb : Reg) (e : Elem) (s : State) : Result :=
  .next (s.strided (.vlds vd ra rb e) false vd ra rb e)

/-- R235 VLDF. -/
def execVldf (vd : VReg) (ra : Reg) (rb : Reg) (e : Elem) (s : State) : Result :=
  .next (s.inFlume (.vldf vd ra rb e) false vd ra rb e)

/-- R235 VST. -/
def execVst (vd : VReg) (ra : Reg) (rb : Reg) (e : Elem) (s : State) : Result :=
  .next (s.contiguous (.vst vd ra rb e) true vd ra rb e)

/-- R235 VSTS. -/
def execVsts (vd : VReg) (ra : Reg) (rb : Reg) (e : Elem) (s : State) : Result :=
  .next (s.strided (.vsts vd ra rb e) true vd ra rb e)

/-- R235 VSTF. -/
def execVstf (vd : VReg) (ra : Reg) (rb : Reg) (e : Elem) (s : State) : Result :=
  .next (s.inFlume (.vstf vd ra rb e) true vd ra rb e)

/-- R240 VARITH_VADD. -/
def execVarithVadd (vd : VReg) (va : VReg) (vb : VReg) (ha : Bool) (hb : Bool) (ty : FloatTy) (s : State) : Result :=
  .next (s.enqueue (.varithVadd vd va vb ha hb ty) 0 0 [])

/-- R240 VARITH_VSUB. -/
def execVarithVsub (vd : VReg) (va : VReg) (vb : VReg) (ha : Bool) (hb : Bool) (ty : FloatTy) (s : State) : Result :=
  .next (s.enqueue (.varithVsub vd va vb ha hb ty) 0 0 [])

/-- R240 VARITH_VMUL. -/
def execVarithVmul (vd : VReg) (va : VReg) (vb : VReg) (ha : Bool) (hb : Bool) (ty : FloatTy) (s : State) : Result :=
  .next (s.enqueue (.varithVmul vd va vb ha hb ty) 0 0 [])

/-- R240 VARITH_VMIN. -/
def execVarithVmin (vd : VReg) (va : VReg) (vb : VReg) (ha : Bool) (hb : Bool) (ty : FloatTy) (s : State) : Result :=
  .next (s.enqueue (.varithVmin vd va vb ha hb ty) 0 0 [])

/-- R240 VARITH_VMAX. -/
def execVarithVmax (vd : VReg) (va : VReg) (vb : VReg) (ha : Bool) (hb : Bool) (ty : FloatTy) (s : State) : Result :=
  .next (s.enqueue (.varithVmax vd va vb ha hb ty) 0 0 [])

/-- R240 VARITH_VABS. -/
def execVarithVabs (vd : VReg) (va : VReg) (ha : Bool) (ty : FloatTy) (s : State) : Result :=
  .next (s.enqueue (.varithVabs vd va ha ty) 0 0 [])

/-- R240 VARITH_VNEG. -/
def execVarithVneg (vd : VReg) (va : VReg) (ha : Bool) (ty : FloatTy) (s : State) : Result :=
  .next (s.enqueue (.varithVneg vd va ha ty) 0 0 [])

/-- R241 VINT_VADD. -/
def execVintVadd (vd : VReg) (va : VReg) (vb : VReg) (ha : Bool) (hb : Bool) (ty : IntTy) (s : State) : Result :=
  .next (s.enqueue (.vintVadd vd va vb ha hb ty) 0 0 [])

/-- R241 VINT_VSUB. -/
def execVintVsub (vd : VReg) (va : VReg) (vb : VReg) (ha : Bool) (hb : Bool) (ty : IntTy) (s : State) : Result :=
  .next (s.enqueue (.vintVsub vd va vb ha hb ty) 0 0 [])

/-- R241 VINT_VMUL. -/
def execVintVmul (vd : VReg) (va : VReg) (vb : VReg) (ha : Bool) (hb : Bool) (ty : IntTy) (s : State) : Result :=
  .next (s.enqueue (.vintVmul vd va vb ha hb ty) 0 0 [])

/-- R241 VINT_VMIN. -/
def execVintVmin (vd : VReg) (va : VReg) (vb : VReg) (ha : Bool) (hb : Bool) (ty : IntTy) (s : State) : Result :=
  .next (s.enqueue (.vintVmin vd va vb ha hb ty) 0 0 [])

/-- R241 VINT_VMAX. -/
def execVintVmax (vd : VReg) (va : VReg) (vb : VReg) (ha : Bool) (hb : Bool) (ty : IntTy) (s : State) : Result :=
  .next (s.enqueue (.vintVmax vd va vb ha hb ty) 0 0 [])

/-- R241 VINT_VMINU. -/
def execVintVminu (vd : VReg) (va : VReg) (vb : VReg) (ha : Bool) (hb : Bool) (ty : IntTy) (s : State) : Result :=
  .next (s.enqueue (.vintVminu vd va vb ha hb ty) 0 0 [])

/-- R241 VINT_VMAXU. -/
def execVintVmaxu (vd : VReg) (va : VReg) (vb : VReg) (ha : Bool) (hb : Bool) (ty : IntTy) (s : State) : Result :=
  .next (s.enqueue (.vintVmaxu vd va vb ha hb ty) 0 0 [])

/-- R241 VINT_VAND. -/
def execVintVand (vd : VReg) (va : VReg) (vb : VReg) (ha : Bool) (hb : Bool) (ty : IntTy) (s : State) : Result :=
  .next (s.enqueue (.vintVand vd va vb ha hb ty) 0 0 [])

/-- R241 VINT_VOR. -/
def execVintVor (vd : VReg) (va : VReg) (vb : VReg) (ha : Bool) (hb : Bool) (ty : IntTy) (s : State) : Result :=
  .next (s.enqueue (.vintVor vd va vb ha hb ty) 0 0 [])

/-- R241 VINT_VXOR. -/
def execVintVxor (vd : VReg) (va : VReg) (vb : VReg) (ha : Bool) (hb : Bool) (ty : IntTy) (s : State) : Result :=
  .next (s.enqueue (.vintVxor vd va vb ha hb ty) 0 0 [])

/-- R241 VINT_VSLL. -/
def execVintVsll (vd : VReg) (va : VReg) (vb : VReg) (ha : Bool) (hb : Bool) (ty : IntTy) (s : State) : Result :=
  .next (s.enqueue (.vintVsll vd va vb ha hb ty) 0 0 [])

/-- R241 VINT_VSRL. -/
def execVintVsrl (vd : VReg) (va : VReg) (vb : VReg) (ha : Bool) (hb : Bool) (ty : IntTy) (s : State) : Result :=
  .next (s.enqueue (.vintVsrl vd va vb ha hb ty) 0 0 [])

/-- R241 VINT_VSRA. -/
def execVintVsra (vd : VReg) (va : VReg) (vb : VReg) (ha : Bool) (hb : Bool) (ty : IntTy) (s : State) : Result :=
  .next (s.enqueue (.vintVsra vd va vb ha hb ty) 0 0 [])

/-- R241 VINT_VADDS. -/
def execVintVadds (vd : VReg) (va : VReg) (vb : VReg) (ha : Bool) (hb : Bool) (ty : IntTy) (s : State) : Result :=
  .next (s.enqueue (.vintVadds vd va vb ha hb ty) 0 0 [])

/-- R241 VINT_VSUBS. -/
def execVintVsubs (vd : VReg) (va : VReg) (vb : VReg) (ha : Bool) (hb : Bool) (ty : IntTy) (s : State) : Result :=
  .next (s.enqueue (.vintVsubs vd va vb ha hb ty) 0 0 [])

/-- R243 VCVT_BF16_F32. -/
def execVcvtBf16F32 (vd : VReg) (va : VReg) (vb : VReg) (ha : Bool) (hb : Bool) (sr : Bool) (s : State) : Result :=
  .next (s.enqueue (.vcvtBf16F32 vd va vb ha hb sr) 0 0 [])

/-- R243 VCVT_F32_BF16_LO. -/
def execVcvtF32Bf16Lo (vd : VReg) (va : VReg) (ha : Bool) (s : State) : Result :=
  .next (s.enqueue (.vcvtF32Bf16Lo vd va ha) 0 0 [])

/-- R243 VCVT_F32_BF16_HI. -/
def execVcvtF32Bf16Hi (vd : VReg) (va : VReg) (ha : Bool) (s : State) : Result :=
  .next (s.enqueue (.vcvtF32Bf16Hi vd va ha) 0 0 [])

/-- R243 VCVT_F16_F32. -/
def execVcvtF16F32 (vd : VReg) (va : VReg) (vb : VReg) (ha : Bool) (hb : Bool) (sr : Bool) (s : State) : Result :=
  .next (s.enqueue (.vcvtF16F32 vd va vb ha hb sr) 0 0 [])

/-- R243 VCVT_F32_F16_LO. -/
def execVcvtF32F16Lo (vd : VReg) (va : VReg) (ha : Bool) (s : State) : Result :=
  .next (s.enqueue (.vcvtF32F16Lo vd va ha) 0 0 [])

/-- R243 VCVT_F32_F16_HI. -/
def execVcvtF32F16Hi (vd : VReg) (va : VReg) (ha : Bool) (s : State) : Result :=
  .next (s.enqueue (.vcvtF32F16Hi vd va ha) 0 0 [])

/-- R243 VCVT_F32_I32. -/
def execVcvtF32I32 (vd : VReg) (va : VReg) (ha : Bool) (s : State) : Result :=
  .next (s.enqueue (.vcvtF32I32 vd va ha) 0 0 [])

/-- R243 VCVT_I32_F32. -/
def execVcvtI32F32 (vd : VReg) (va : VReg) (ha : Bool) (s : State) : Result :=
  .next (s.enqueue (.vcvtI32F32 vd va ha) 0 0 [])

/-- R244 VUNPK_E2M1. -/
def execVunpkE2m1 (vd : VReg) (va : VReg) (ha : Bool) (s : State) : Result :=
  .next (s.enqueue (.vunpkE2m1 vd va ha) 0 0 [])

/-- R244 VUNPK_E3M2. -/
def execVunpkE3m2 (vd : VReg) (va : VReg) (ha : Bool) (s : State) : Result :=
  .next (s.enqueue (.vunpkE3m2 vd va ha) 0 0 [])

/-- R244 VUNPK_E2M3. -/
def execVunpkE2m3 (vd : VReg) (va : VReg) (ha : Bool) (s : State) : Result :=
  .next (s.enqueue (.vunpkE2m3 vd va ha) 0 0 [])

/-- R244 VUNPK_E4M3. -/
def execVunpkE4m3 (vd : VReg) (va : VReg) (ha : Bool) (s : State) : Result :=
  .next (s.enqueue (.vunpkE4m3 vd va ha) 0 0 [])

/-- R244 VUNPK_E5M2. -/
def execVunpkE5m2 (vd : VReg) (va : VReg) (ha : Bool) (s : State) : Result :=
  .next (s.enqueue (.vunpkE5m2 vd va ha) 0 0 [])

/-- R245 VPACK_E2M1. -/
def execVpackE2m1 (vd : VReg) (va : VReg) (ha : Bool) (sr : Bool) (s : State) : Result :=
  .next (s.enqueue (.vpackE2m1 vd va ha sr) 0 0 [])

/-- R245 VPACK_E3M2. -/
def execVpackE3m2 (vd : VReg) (va : VReg) (ha : Bool) (sr : Bool) (s : State) : Result :=
  .next (s.enqueue (.vpackE3m2 vd va ha sr) 0 0 [])

/-- R245 VPACK_E2M3. -/
def execVpackE2m3 (vd : VReg) (va : VReg) (ha : Bool) (sr : Bool) (s : State) : Result :=
  .next (s.enqueue (.vpackE2m3 vd va ha sr) 0 0 [])

/-- R245 VPACK_E4M3. -/
def execVpackE4m3 (vd : VReg) (va : VReg) (ha : Bool) (sr : Bool) (s : State) : Result :=
  .next (s.enqueue (.vpackE4m3 vd va ha sr) 0 0 [])

/-- R245 VPACK_E5M2. -/
def execVpackE5m2 (vd : VReg) (va : VReg) (ha : Bool) (sr : Bool) (s : State) : Result :=
  .next (s.enqueue (.vpackE5m2 vd va ha sr) 0 0 [])

/-- R246 VRSUM. -/
def execVrsum (vd : VReg) (va : VReg) (ha : Bool) (ty : RedTy) (s : State) : Result :=
  .next (s.enqueue (.vrsum vd va ha ty) 0 0 [])

/-- R246 VRMAX. -/
def execVrmax (vd : VReg) (va : VReg) (ha : Bool) (ty : RedTy) (s : State) : Result :=
  .next (s.enqueue (.vrmax vd va ha ty) 0 0 [])

/-- R246 VRMIN. -/
def execVrmin (vd : VReg) (va : VReg) (ha : Bool) (ty : RedTy) (s : State) : Result :=
  .next (s.enqueue (.vrmin vd va ha ty) 0 0 [])

/-- R247 VCMPEQ. -/
def execVcmpeq (vd : VReg) (va : VReg) (vb : VReg) (ha : Bool) (hb : Bool) (ty : RedTy) (s : State) : Result :=
  .next (s.enqueue (.vcmpeq vd va vb ha hb ty) 0 0 [])

/-- R247 VCMPLT. -/
def execVcmplt (vd : VReg) (va : VReg) (vb : VReg) (ha : Bool) (hb : Bool) (ty : RedTy) (s : State) : Result :=
  .next (s.enqueue (.vcmplt vd va vb ha hb ty) 0 0 [])

/-- R247 VCMPLE. -/
def execVcmple (vd : VReg) (va : VReg) (vb : VReg) (ha : Bool) (hb : Bool) (ty : RedTy) (s : State) : Result :=
  .next (s.enqueue (.vcmple vd va vb ha hb ty) 0 0 [])

/-- R248 VSEL. -/
def execVsel (vd : VReg) (va : VReg) (vb : VReg) (ha : Bool) (hb : Bool) (ty : MoveTy) (s : State) : Result :=
  .next (s.enqueue (.vsel vd va vb ha hb ty) 0 0 [])

/-- R248 VSHUF. -/
def execVshuf (vd : VReg) (va : VReg) (vb : VReg) (ha : Bool) (hb : Bool) (ty : MoveTy) (s : State) : Result :=
  .next (s.enqueue (.vshuf vd va vb ha hb ty) 0 0 [])

/-- R248 VBCAST. -/
def execVbcast (vd : VReg) (va : VReg) (ha : Bool) (ty : MoveTy) (s : State) : Result :=
  .next (s.enqueue (.vbcast vd va ha ty) 0 0 [])

/-- R249 VRCP. -/
def execVrcp (vd : VReg) (va : VReg) (ha : Bool) (s : State) : Result :=
  .next (s.enqueue (.vrcp vd va ha) 0 0 [])

/-- R249 VRSQRT. -/
def execVrsqrt (vd : VReg) (va : VReg) (ha : Bool) (s : State) : Result :=
  .next (s.enqueue (.vrsqrt vd va ha) 0 0 [])

/-- R249 VSQRT. -/
def execVsqrt (vd : VReg) (va : VReg) (ha : Bool) (s : State) : Result :=
  .next (s.enqueue (.vsqrt vd va ha) 0 0 [])

/-- R249 VEXP2. -/
def execVexp2 (vd : VReg) (va : VReg) (ha : Bool) (s : State) : Result :=
  .next (s.enqueue (.vexp2 vd va ha) 0 0 [])

/-- R249 VLOG2. -/
def execVlog2 (vd : VReg) (va : VReg) (ha : Bool) (s : State) : Result :=
  .next (s.enqueue (.vlog2 vd va ha) 0 0 [])

/-- R242 VFMA. -/
def execVfma (vd : VReg) (va : VReg) (vb : VReg) (ha : Bool) (hb : Bool) (ty : FloatTy) (s : State) : Result :=
  .next (s.enqueue (.vfma vd va vb ha hb ty) 0 0 [])

/-- R242 VFMS. -/
def execVfms (vd : VReg) (va : VReg) (vb : VReg) (ha : Bool) (hb : Bool) (ty : FloatTy) (s : State) : Result :=
  .next (s.enqueue (.vfms vd va vb ha hb ty) 0 0 [])

/-- R242 VFNMA. -/
def execVfnma (vd : VReg) (va : VReg) (vb : VReg) (ha : Bool) (hb : Bool) (ty : FloatTy) (s : State) : Result :=
  .next (s.enqueue (.vfnma vd va vb ha hb ty) 0 0 [])

end Sys2Proof.Machine
end

