-- ==== Sys2Proof/Machine/VecExec.lean ====
section
/-!
DEFINITION. The execution of queued vector entries: stream registers, holds, the lane groups, the SFU and retirement (R219,
R222 to R226, R228, R231, R236, R237, R250). VECTOR_ENTRY_EXECUTE executes one entry of the head item; of a loop item one
entry of the pass that is under way.
-/
namespace Sys2Proof.Machine

/-! Reading with poison (R223, R348). -/

/-- A read of n bytes for an asynchronous consumer: its value, and whether an uncorrectable error was met. The spec gives no
value to data with an uncorrectable error: it is a free value (log entry 13). -/
def State.consume (s : State) (a n j : Nat) : Nat × Bool :=
  if s.poisoned a n then ((Config.freeValue (s.freeCount + j)).toNat % 256^n, true) else (s.readAt a n, false)

/-- The free values that a consumer may have read are used up. -/
def State.useFree (s : State) (n : Nat) : State := { s with freeCount := s.freeCount + n }

/-- R223: UE is pending in the thread of the entry. -/
def State.vectorUe (s : State) (t a : Nat) : State := s.pendUe t (spadVa (a % 2^20)) (.spad a)

/-- Elements of e bytes at a list of keys, with the key of the first that holds an error. -/
def State.consumeList (s : State) (e : Nat) : List Nat → Nat → List Nat × Option Nat
  | [], _ => ([], none)
  | a :: r, j =>
    let (v, bad) := s.consume a e j
    let (vs, rest) := s.consumeList e r (j + 1)
    (v :: vs, if bad then some a else rest)

/-- A list of elements is read for thread t: UE is pending when one holds an error. -/
def State.takeElements (s : State) (t e : Nat) (as : List Nat) : List Nat × State :=
  let (vs, bad) := s.consumeList e as 0
  match bad with
  | none => (vs, s)
  | some a => (vs, (s.useFree as.length).vectorUe t a)

/-! Streams (R231). -/

/-- The binding that an entry captured for a stream register, with the core's offsets while the core still holds it (R220;
log entry 26). -/
def Core.streamOf (k : Core) (e : VEntry) (v : VReg) : Option Bind :=
  match bindOf e.binds v with
  | none => none
  | some b =>
    match bindOf k.binds.toList v with
    | some now => if now.fl = b.fl ∧ now.bound = b.bound ∧ now.launch = b.launch then some now else some b
    | none => some b

/-- The core with the offsets of a stream register moved, where it still holds the binding. -/
def Core.moveStream (k : Core) (v : VReg) (b : Bind) : Core :=
  match bindOf k.binds.toList v with
  | some now =>
    if now.fl = b.fl ∧ now.bound = b.bound ∧ now.launch = b.launch then
      (if h : v.toNat - 28 < 4 then { k with binds := k.binds.set (v.toNat - 28) (some b) h } else k)
    else k
  | none => k

/-- The entry with its captured offsets moved. -/
def VEntry.moveStream (e : VEntry) (v : VReg) (b : Bind) : VEntry := { e with binds := e.binds.set (v.toNat - 28) (some b) }

/-- R231: one pop: the element, the entry and the state after it; none while the flume holds no slot. -/
def State.popStream (s : State) (c : Nat) (e : VEntry) (v : VReg) (b : Bind) : Option (Nat × VEntry × State) :=
  let k := s.coreAt c
  let f := flumeOf k.flumes b.fl.toNat
  if f.filled = 0 then none
  else
    let a := spadKey c (f.base + f.head * f.size + b.ro)
    let (vs, s) := s.takeElements e.thread 4 ((List.range b.bound).map (fun i => a + 4 * i))
    let ro := b.ro + 4 * b.bound
    let b := { b with ro := if f.size ≤ ro then 0 else ro }
    let f := if f.size ≤ ro then f.consume 1 else f
    let s := s.watched e.thread ⟨c, false, true, false, true⟩ (spadVa (a % 2^20)) (4 * b.bound)
    some (ofLanes 32 vs, e.moveStream v b, s.modCore c (fun k => (k.setFlume b.fl.toNat f).moveStream v b))

/-- R231: one push of the bytes 0 to 4b-1 of an image; none while the flume has no free slot. -/
def State.pushStream (s : State) (c : Nat) (e : VEntry) (v : VReg) (b : Bind) (image : Nat) : Option (VEntry × State) :=
  let k := s.coreAt c
  let f := flumeOf k.flumes b.fl.toNat
  if 2^f.k ≤ f.filled then none
  else
    let a := spadKey c (f.base + f.tail * f.size + b.wo)
    let s := s.writeBytesAt a (leBytes image (4 * b.bound))
    let wo := b.wo + 4 * b.bound
    let b := { b with wo := if f.size ≤ wo then 0 else wo }
    let f := if f.size ≤ wo then f.produce 1 else f
    let s := s.watched e.thread ⟨c, false, true, true, false⟩ (spadVa (a % 2^20)) (4 * b.bound)
    some (e.moveStream v b, s.modCore c (fun k => (k.setFlume b.fl.toNat f).moveStream v b))

/-! Holds (R69, R226). -/

/-- The held value of a source position. -/
def Core.held (k : Core) (pos : Nat) (v : VReg) : Option (BitVec 1024) :=
  (k.holds.find? (fun h => h.position == pos && h.v == v)).map (·.value)

/-- A held value is read once; after its second reuse the hold ends. -/
def Core.useHold (k : Core) (pos : Nat) (v : VReg) : Core :=
  let hs := k.holds.map (fun h => if h.position = pos ∧ h.v = v then { h with uses := h.uses - 1 } else h)
  { k with holds := hs.filter (fun h => h.uses != 0) }

/-- A source with its hold bit stays in the operand buffer for the next two entries that name it in this position. -/
def Core.addHold (k : Core) (pos : Nat) (v : VReg) (x : BitVec 1024) : Core :=
  { k with holds := k.holds.filter (fun h => h.position != pos || h.v != v) ++ [⟨pos, v, x, 2⟩] }

/-- A write to a register ends its holds. -/
def Core.endHolds (k : Core) (v : VReg) : Core := { k with holds := k.holds.filter (fun h => h.v != v) }

/-! Sources. -/

/-- The value that an ordinary source gives: for the second word of a pair what stood before the first word's entry wrote
(R222), else the register. -/
def Core.plainSource (k : Core) (e : VEntry) (v : VReg) : BitVec 1024 :=
  match e.old with
  | some l => (match l.find? (fun x => x.1 == v.toNat) with | some x => x.2 | none => k.vregs.get v.toFin)
  | none => k.vregs.get v.toFin

/-- The sources of a shape with their positions: vd where read, va, vb (R231). -/
def sourcesOf (h : VShape) : List (Nat × VReg × Bool) :=
  (h.srcD.map (fun v => (0, v, false))).toList ++ (h.srcA.map (fun x => (1, x.1, x.2))).toList
    ++ (h.srcB.map (fun x => (2, x.1, x.2))).toList

/-- R231, R226: takes the sources that stand in the operand buffer and pops the streams of the others, in order; true when
every source stands ready. -/
def State.gather (s : State) (c : Nat) (e : VEntry) : List (Nat × VReg × Bool) → Bool × VEntry × State
  | [] => (true, e, s)
  | (pos, v, _) :: r =>
    if e.got.any (fun g => g.1 == pos) then s.gather c e r
    else match (s.coreAt c).held pos v with
      | some x => (s.modCore c (fun k => k.useHold pos v)).gather c { e with got := e.got ++ [(pos, x)] } r
      | none =>
        match (s.coreAt c).streamOf e v with
        | none => s.gather c e r
        | some b =>
          match s.popStream c e v b with
          | none => (false, e, s)
          | some (x, e, s) => s.gather c { e with got := e.got ++ [(pos, BitVec.ofNat 1024 x)] } r

/-- The image of a source position. -/
def Core.sourceImage (k : Core) (e : VEntry) (h : VShape) (pos : Nat) : Nat :=
  match e.got.find? (fun g => g.1 == pos) with
  | some g => g.2.toNat
  | none =>
    match (sourcesOf h).find? (fun x => x.1 == pos) with
    | some x => (k.plainSource e x.2.1).toNat
    | none => 0

/-- R69, R226: the sources whose hold bit is set stay in the operand buffer, with what the entry has read of them. -/
def State.keepHolds (s : State) (c : Nat) (e : VEntry) (h : VShape) : State :=
  s.modCore c (fun k => ((sourcesOf h).filter (fun x => x.2.2)).foldl (fun k' x =>
    k'.addHold x.1 x.2.1 (BitVec.ofNat 1024 (k.sourceImage e h x.1))) k)

/-! Writing the result. -/

/-- The destination takes lanes of a width: an ordinary register keeps its other lanes (R221), a stream gets zeros there
(R231); none while a stream has no free slot. The write ends a hold of its register, the one that the same entry made too:
the spec does not say whether the holding entry's own write counts (DESIGN CHOICE, log entry 65). -/
def State.deliverLanes (s : State) (c : Nat) (e : VEntry) (v : VReg) (w : Nat) (lanes : List Nat) : Option (VEntry × State) :=
  match (s.coreAt c).streamOf e v with
  | some b => (s.pushStream c e v b (ofLanes w lanes)).map (fun r => (r.1, r.2.modCore c (fun k => k.endHolds v)))
  | none =>
    some (e, s.modCore c (fun k =>
      let old := (k.vregs.get v.toFin).toNat
      { k.endHolds v with vregs := k.vregs.set v.toNat (BitVec.ofNat 1024 (writeLanes w old lanes)) v.isLt }))

/-- R230: VMOVX.VX writes one lane. -/
def State.writeLane (s : State) (c : Nat) (v : VReg) (lane val : Nat) : State :=
  s.modCore c (fun k =>
    let old := (k.vregs.get v.toFin).toNat
    let new := old - laneAt 32 old lane * 2^(32 * lane) + val % 2^32 * 2^(32 * lane)
    { k.endHolds v with vregs := k.vregs.set v.toNat (BitVec.ofNat 1024 new) v.isLt })

/-- R237: the elements of a store, in ascending lane order. -/
def State.storeElements (s : State) (t c e image : Nat) : List Nat → Nat → State
  | [], _ => s
  | a :: r, i =>
    let s := s.writeBytesAt a (leBytes (laneAt (8 * e) image i) e)
    (s.watched t ⟨c, false, true, true, false⟩ (spadVa (a % 2^20)) e).storeElements t c e image r (i + 1)

/-- R361: the watchers are told of the elements of a load. -/
def State.loadWatched (s : State) (t c e : Nat) : List Nat → State
  | [] => s
  | a :: r => (s.watched t ⟨c, false, true, false, true⟩ (spadVa (a % 2^20)) e).loadWatched t c e r

/-- R223, R236 to R249: the entry's effect once its sources stand ready: the flags, the entry and the state after it; none
while its push must wait. -/
def State.effect (s : State) (c : Nat) (e : VEntry) (h : VShape) : Option (Flags × VEntry × State) :=
  match e.word.vectorMemory, h.dest with
  | some (b, true), _ =>
    let n := e.part.length
    some (0, e, s.storeElements e.thread c b ((s.coreAt c).sourceImage e h 0) (e.addrs.drop n) n)
  | some (b, false), some v =>
    let rest := e.addrs.drop e.part.length
    let (vs, s') := s.takeElements e.thread b rest
    (s'.loadWatched e.thread c b rest).deliverLanes c e v (8 * b) (e.part ++ vs) |>.map (fun r => (0, r.1, r.2))
  | none, some v =>
    let k := s.coreAt c
    let x : VIn := ⟨e.len, k.sourceImage e h 1, k.sourceImage e h 2, k.sourceImage e h 0,
      e.seed.getD (s.thread e.thread).lfsr⟩
    (match e.word.vcompute x with
     | some o =>
       (s.deliverLanes c e v o.width o.lanes).map (fun r => (o.flags, r.1,
         if e.seed.isSome then r.2 else r.2.modThread e.thread (fun t => { t with lfsr := o.lfsr })))
     | none => some (0, e, s.writeLane c v e.xb.toNat e.xa.toNat))
  | _, none => some (0, e, s)

/-! The queue. -/

/-- The head item of core c changed. -/
def State.modHead (s : State) (c : Nat) (f : VItem → VItem) : State :=
  s.modCore c (fun k => { k with vqueue := match k.vqueue with | [] => [] | q :: r => f q :: r })

/-- R222: the entry of a pair's second word keeps what its sources hold before the entry ahead of it writes. -/
def Core.keepOld (k : Core) : Core :=
  match k.vqueue with
  | q :: r :: rest =>
    if q.pos = 0 ∧ r.body.any (fun e => e.old = some []) then
      { k with vqueue := q :: { r with body := r.body.map (fun e =>
          if e.old = some [] then { e with old := some (e.word.vregs.map (fun v => (v.toNat, k.vregs.get v.toFin))) } else e) } :: rest }
    else k
  | _ => k

/-- R215, R196: a vector access waits for the thread's earlier scalar stores and puts to its bytes. -/
def State.accessWaits (s : State) (e : VEntry) (age : Nat) : Bool :=
  match e.word.vectorMemory with
  | none => false
  | some (b, _) =>
    let t := s.thread e.thread
    e.addrs.any (fun a =>
      t.buffer.any (fun x => decide (x.id < age) && x.hits a b) || t.puts.any (fun x => decide (x.id < age) && x.hits a b))

/-- The item after one of its entries has executed: the next entry, the next pass (R228), or done; flags of a loop are
ORed pass by pass. A loop has begun with its first entry (R224). -/
def VItem.advance (q : VItem) (e : VEntry) (f : Flags) : VItem :=
  let body := q.body.set q.pos { e with got := [], part := [], ue := false, old := none }
  let q := { q with body := body, flags := q.flags ||| f, begun := true, sent := false }
  if q.pos + 1 < q.body.length then { q with pos := q.pos + 1 }
  else if 1 < q.passes then { q with pos := 0, passes := q.passes - 1 }
  else { q with pos := 0, passes := 0, done := true }

/-- R250: the position of core c's request among those of its cluster. -/
def State.sfuFirst (s : State) (c : Nat) : Bool :=
  match s.sfu.find? (fun x => x.1 == c / 4) with
  | some x => x.2 == c
  | none => true

/-- R250: core c has a request at the SFU. -/
def State.sfuAsked (s : State) (c : Nat) : Bool := s.sfu.any (fun x => x.2 == c)

/-- The entry under way at the head of core c's queue. -/
def State.headEntry (s : State) (c : Nat) : Option (VItem × VEntry) :=
  match (s.coreAt c).vqueue with
  | q :: _ => if q.done then none else (q.body[q.pos]?).map (fun e => (q, e))
  | [] => none

/-- Saves what an entry has popped while it waits. -/
def State.saveEntry (s : State) (c : Nat) (e : VEntry) : State :=
  s.modHead c (fun q => { q with
    body := q.body.set q.pos e
    begun := q.begun || !e.got.isEmpty || !e.part.isEmpty })

/-- An entry of the item pops stream register v. -/
def VItem.pops (q : VItem) (v : VReg) : Bool :=
  q.body.any (fun e => match e.word.vshape with
    | some h => (sourcesOf h).any (fun x => x.2.1 == v)
    | none => false)

/-- R69: the entry under way in the item holds a source position of register v, and does not write v. -/
def VItem.holds (q : VItem) (pos : Nat) (v : VReg) : Bool :=
  match (q.body[q.pos]?).bind (fun e => e.word.vshape) with
  | some h => (sourcesOf h).contains (pos, v, true) && h.dest != some v
  | none => false

/-- R51, R222: a source of the second word of a pair that is taken only when its own entry executes: an operand that the first
word's entry, at the head, holds (R69), and a stream that a loop at the head pops too, whose pops come first in every pass
(DEDUCED, log entry 81). -/
def VItem.precedes (q : VItem) (pos : Nat) (v : VReg) : Bool := if q.isLoop then q.pops v else q.holds pos v

/-- R51, R222: the entry of a pair's second word behind the head item, with the sources that it takes before that item writes
anything. -/
def Core.secondSources (k : Core) : Option (VEntry × List (Nat × VReg × Bool)) :=
  match k.vqueue with
  | q :: r :: _ =>
    (match r.body with
     | [e] =>
       (match e.word.vshape, e.old with
        | some h, some _ =>
          some (e, (sourcesOf h).filter (fun x => !((k.streamOf e x.2.1).isSome && q.precedes x.1 x.2.1)))
        | _, _ => none)
     | _ => none)
  | _ => none

/-- R51, R222: the second word of a pair takes its sources before the entry of the first word, at the head, writes anything;
true when they stand ready. -/
def State.gatherSecond (s : State) (c : Nat) : Bool × State :=
  match (s.coreAt c).secondSources with
  | none => (true, s)
  | some (e, l) =>
    let (ready, e, s) := s.gather c e l
    (ready, s.modCore c (fun k => { k with vqueue := match k.vqueue with
      | q :: r :: rest => q :: { r with body := [e], begun := r.begun || !e.got.isEmpty } :: rest
      | l => l }))

/-- The sources of the head entry are gathered, then those of the second word of its pair; `k` goes on once both stand
ready. -/
def State.gathering (s : State) (c : Nat) (e : VEntry) (h : VShape) (k : VEntry → State → State) : State :=
  let s := s.modCore c Core.keepOld
  match s.gather c e (sourcesOf h) with
  | (false, e, s) => s.saveEntry c e
  | (true, e, s) =>
    match s.gatherSecond c with
    | (false, s) => s.saveEntry c e
    | (true, s) => k e s

/-- R219: executes an entry whose sources can be read now. A loop entry's time at the head begins again with each of its
entries (R223). -/
def State.runEntry (s : State) (c : Nat) (e : VEntry) (h : VShape) : State :=
  s.gathering c e h (fun e s =>
    match (s.keepHolds c e h).effect c e h with
    | none => s.saveEntry c e
    | some (f, e, s) => s.modHead c (fun q => { q.advance e f with since := s.now }))

/-- R190, R236, R237: one element of a vector load or store is read or written: one event. VECTOR_ENTRY_EXECUTE does those
that are left. -/
def State.elementEvent (s : State) (c : Nat) : State :=
  match s.headEntry c with
  | none => s
  | some (q, e) =>
    match e.word.vshape, e.word.vectorMemory, e.addrs[e.part.length]? with
    | some h, some (b, stores), some a =>
      if s.accessWaits e q.age then s
      else s.gathering c e h (fun e s =>
        if stores then
          let v := (s.coreAt c).sourceImage e h 0
          (s.storeElements e.thread c b v [a] e.part.length).saveEntry c { e with part := e.part ++ [laneAt (8 * b) v e.part.length] }
        else
          let (v, bad) := s.consume a b 0
          let s := if bad then s.useFree 1 else s
          let s := if bad && !e.ue then s.vectorUe e.thread a else s
          (s.loadWatched e.thread c b [a]).saveEntry c { e with part := e.part ++ [v], ue := e.ue || bad })
    | _, _, _ => s

/-- R231: a source of an entry, of a list of them, waits for an element of its stream. -/
def State.popWaits (s : State) (c : Nat) (e : VEntry) (l : List (Nat × VReg × Bool)) : Bool :=
  let k := s.coreAt c
  l.any (fun x => !e.got.any (fun g => g.1 == x.1) && (k.held x.1 x.2.1).isNone
    && (match k.streamOf e x.2.1 with
      | some b => (flumeOf k.flumes b.fl.toNat).filled == 0
      | none => false))

/-- R231: the destination of an entry waits for a free slot of its stream. -/
def State.pushWaits (s : State) (c : Nat) (e : VEntry) (h : VShape) : Bool :=
  let k := s.coreAt c
  match h.dest.bind (k.streamOf e) with
  | some b => let f := flumeOf k.flumes b.fl.toNat; decide (2^f.k ≤ f.filled)
  | none => false

/-- R223, R222: the second word of a pair waits for an element, and with it the entry at the head. -/
def State.secondWaits (s : State) (c : Nat) : Bool :=
  match (s.coreAt c).secondSources with
  | some (e, l) => s.popWaits c e l
  | none => false

/-- R223: the head item of core c's queue waits for a stream, its own or that of its pair's second word, or for the SFU. -/
def State.streamOrSfuWait (s : State) (c : Nat) (q : VItem) : Bool :=
  match q.body[q.pos]? with
  | none => false
  | some e =>
    match e.word.vshape with
    | none => false
    | some h => !s.accessWaits e q.age && (q.sent || s.popWaits c e (sourcesOf h) || s.secondWaits c || s.pushWaits c e h)

/-- R219, R250: the head entry of core c executes. An SFU entry executes once the SFU has accepted it and its turn has come;
an empty loop entry is done at once (R228). -/
def State.executeHead (s : State) (c : Nat) : State :=
  match s.headEntry c with
  | none => s.modHead c (fun q => if q.body.isEmpty then { q with passes := 0, done := true } else q)
  | some (q, e) =>
    match e.word.vshape with
    | none => s
    | some h =>
      if s.accessWaits e q.age then s
      else if e.word.isSfu then
        (if !q.sent then s
         else if s.sfuAsked c then
           (if s.sfuFirst c then { s with sfu := s.sfu.filter (fun x => x.2 != c) }.runEntry c e h else s)
         else s.runEntry c e h)
      else s.runEntry c e h

/-- R219: VECTOR_ENTRY_EXECUTE. -/
def execVectorEntryExecute (c : Nat) (s : State) : Result := .next (s.executeHead c)

/-- 1024 bits of free values, from the j-th on (log entry 13). -/
def State.freeLanes (s : State) (j : Nat) : BitVec 1024 :=
  BitVec.ofNat 1024 ((List.range 16).foldl (fun a i => a * 2^64 + (Config.freeValue (s.freeCount + j + i)).toNat) 0)

/-- R346, R223, R358: the head entry of core c meets an uncorrectable error in vector register v, one of its own: UE is pending
in its thread, the entry reads a free value (log entry 13), and the rewrite test leaves all ones in the register. -/
def State.laneError (s : State) (c : Nat) (v : VReg) : State :=
  match s.headEntry c with
  | some (_, e) =>
    if e.word.vregs.contains v then
      (let k := s.coreAt c
       let reads := e.word.vregs.map (fun w => (w.toNat, if w = v then s.freeLanes 0 else k.plainSource e w))
       let e := { e with old := some reads }
       (((s.saveEntry c e).modCore c (fun k => { k with vregs := k.vregs.set v.toNat (BitVec.allOnes 1024) })).useFree 16).pendUe
         e.thread 0 .register)
    else s
  | none => s

/-- R358, R223: the head entry of core c meets an error in the cluster's vector unit or SFU: UE is pending in its thread, and the
entry works on free values (log entry 13). -/
def State.unitError (s : State) (c : Nat) : State :=
  match s.headEntry c with
  | some (_, e) =>
    ((s.saveEntry c { e with
        old := some (e.word.vregs.map (fun w => (w.toNat, s.freeLanes 0)))
        got := e.got.map (fun g => (g.1, s.freeLanes 0)) }).useFree 16).pendUe e.thread 0 .unit
  | none => s

/-- R223, R96: the head item retires: its flags are ORed into its thread's FCSR, and the next item heads the queue. -/
def State.retireHead (s : State) (c : Nat) : State :=
  match (s.coreAt c).vqueue with
  | q :: r =>
    if q.done then
      (s.modCore c (fun k => { k with vqueue := match r with
        | [] => []
        | n :: rest => { n with since := s.now } :: rest })).modThread q.thread (fun t => t.orFlags q.flags)
    else s
  | [] => s

/-- R223: VECTOR_ENTRY_RETIRE. -/
def execVectorEntryRetire (c : Nat) (s : State) : Result := .next (s.retireHead c)

/-- R250: SFU_REQUEST: a VSFU entry at the head of its queue, its streams popped, goes to the cluster's SFU queue. -/
def State.sfuSend (s : State) (c : Nat) : State :=
  match s.headEntry c with
  | none => s
  | some (q, e) =>
    if !e.word.isSfu || q.sent then s
    else match e.word.vshape with
      | none => s
      | some h =>
        s.gathering c e h (fun e s =>
          let s := (s.saveEntry c e).modHead c (fun q => { q with begun := true, sent := true })
          { s with sfu := s.sfu ++ [(c / 4, c)] })

/-- R250: SFU_REQUEST. -/
def execSfuRequest (c : Nat) (s : State) : Result := .next (s.sfuSend c)

end Sys2Proof.Machine
end

