-- ==== Sys2Proof/Machine/Mxu.lean ====
section
/-!
DEFINITION. The MXU's sequencer (R107, R251, R258 to R265). Each step acts on the command at the head of core c's queue and
leaves the state as it is when that command is another one or must wait.
-/
namespace Sys2Proof.Machine

/-! Accumulators (R251). -/

/-- The key of element (i, j) of accumulator n. -/
def accKey (n i j : Nat) : Nat := n * 16384 + i * 128 + j

/-- Element (i, j) of accumulator n of a core. -/
def Core.acc (k : Core) (n i j : Nat) : Nat := (Sparse.get k.accs (accKey n i j) 0).toNat

/-- The core with `rows` rows of accumulator n from row r0 on set; a zero is not listed, and the accumulator counts as written
(R353). -/
def Core.setRows (k : Core) (n r0 rows : Nat) (f : Nat → Nat → Nat) : Core :=
  let lo := accKey n r0 0
  let new := (List.range (rows * 128)).filterMap (fun x =>
    let v : BitVec 32 := BitVec.ofNat 32 (f (r0 + x / 128) (x % 128))
    if v = 0 then none else some (lo + x, v))
  { k with
    accs := k.accs.filter (fun e => decide (e.1 < lo)) ++ new ++ k.accs.filter (fun e => decide (lo + rows * 128 ≤ e.1))
    accsWritten := if k.accsWritten.contains n then k.accsWritten else n :: k.accsWritten }

/-! Operands (R258). -/

/-- Bytes off .. off+n-1 of a little-endian image. -/
def imageAt (img off n : Nat) : Nat := img / 2^(8 * off) % 2^(8 * n)

/-- A K-step's operand: its format, and its tile as a little-endian image. -/
structure Tile where
  fmt : Fmt
  img : Nat

/-- R258: record (i, b) of a tile. -/
def Tile.record (t : Tile) (i b : Nat) : Nat := imageAt t.img ((2 * i + b) * t.fmt.recordSize) t.fmt.recordSize

/-- R258: element kk of line i of a dense tile. -/
def Tile.dense (t : Tile) (i kk : Nat) : Nat :=
  let w := t.fmt.width / 8
  imageAt t.img ((64 * i + kk) * w) w

/-- R255: the band scale at band step q for half r, and whether its bytes hold an error; 1.0 where the CSR is disabled. -/
def State.bandScale (s : State) (c : Nat) (band : Word) (q r : Nat) : FVal × Bool :=
  if band.getLsbD 63 then
    let a := spadKey c (band.toNat % 2^20 + 4 * q + 2 * r)
    (Fmt.bf16.decode (s.readAt a 2), s.poisoned a 2)
  else (.fin false 1 0, false)

/-! One K-step (R107). -/

/-- A product of exact values, with the flags gathered. -/
def mulFlags (x y : FVal × Flags) : FVal × Flags :=
  let (v, f) := FVal.mul x.1 y.1
  (v, x.2 ||| y.2 ||| f)

/-- R107: the exact sum of one block, scaled. -/
def blockSum (ta tb : Tile) (i j b : Nat) : FVal × Flags :=
  let ra := ta.record i b
  let rb := tb.record j b
  let p := sumExact ((List.range 32).map (fun n =>
    FVal.mul (ta.fmt.decode (ta.fmt.recordElem ra n)) (tb.fmt.decode (tb.fmt.recordElem rb n))))
  mulFlags (mulFlags p (scaleVal (ra % 256), 0)) (scaleVal (rb % 256), 0)

/-- R107: the exact sum of the 64 products of a dense K-step. -/
def denseSum (ta tb : Tile) (i j : Nat) : FVal × Flags :=
  sumExact ((List.range 64).map (fun kk => FVal.mul (ta.fmt.decode (ta.dense i kk)) (tb.fmt.decode (tb.dense j kk))))

/-- R107: the sum of a K-step before the bands. -/
def stepSum (isDense : Bool) (ta tb : Tile) (i j : Nat) : FVal × Flags :=
  if isDense then denseSum ta tb i j
  else sumExact [blockSum ta tb i j 0, blockSum ta tb i j 1]

/-- R107: the terms that take part in a K-step's sum, each with its block's scales. -/
def stepTerms (isDense : Bool) (ta tb : Tile) (i j : Nat) : List FVal :=
  if isDense then (List.range 64).map (fun kk => (FVal.mul (ta.fmt.decode (ta.dense i kk)) (tb.fmt.decode (tb.dense j kk))).1)
  else (List.range 64).map (fun n =>
    let ra := ta.record i (n / 32)
    let rb := tb.record j (n / 32)
    let p := FVal.mul (ta.fmt.decode (ta.fmt.recordElem ra (n % 32))) (tb.fmt.decode (tb.fmt.recordElem rb (n % 32)))
    (FVal.mul (FVal.mul p.1 (scaleVal (ra % 256))).1 (scaleVal (rb % 256))).1)

/-- R107: an exact sum T that is zero is +0, unless every term taking part, with the scales that apply to it, is -0 (DEDUCED, log
entry 60). -/
def zeroSum (t : FVal) (terms : List FVal) : FVal :=
  match t with
  | .fin _ 0 e => .fin (terms.all (fun x => match x with
      | .fin true 0 _ => true
      | _ => false)) 0 e
  | t => t

/-- R107: an accumulator element after one K-step. -/
def kstepElement (isDense : Bool) (ta tb : Tile) (bandA bandB : Nat → FVal) (old i j : Nat) : Nat × Flags :=
  let x := mulFlags (mulFlags (stepSum isDense ta tb i j) (bandA (i / 64), 0)) (bandB (j / 64), 0)
  let terms := (stepTerms isDense ta tb i j).map (fun y => (FVal.mul (FVal.mul y (bandA (i / 64))).1 (bandB (j / 64))).1)
  let (t, f1) := Fmt.f32.deliver .rne (zeroSum x.1 terms)
  let (r, f2) := Fmt.f32.add .rne old t
  (r, x.2 ||| f1 ||| f2)

/-! The head command. -/

/-- The command at the head of core c's queue. -/
def State.mxHead (s : State) (c : Nat) : Option MxCmd := (s.coreAt c).mxqueue.head?

/-- The head command changed. -/
def State.modMxHead (s : State) (c : Nat) (f : MxCmd → MxCmd) : State :=
  s.modCore c (fun k => { k with mxqueue := match k.mxqueue with | [] => [] | q :: r => f q :: r })

/-- R263: the next command heads the queue. -/
def State.dropMxHead (s : State) (c : Nat) : State :=
  s.modCore c (fun k => { k with mxqueue := match k.mxqueue with
    | _ :: n :: r => { n with since := s.now } :: r
    | _ => [] })

/-- R264: the 16 bytes of a completion, as two doubles. -/
def mxCompletion (q : MxCmd) (status count short : Nat) (flags : Flags) : Completion :=
  ⟨word (q.ticket.toNat + 2 * 2^16 + status * 2^24 + flags.toNat * 2^32 + q.code * 2^40 + q.tag * 2^48),
   word (count + short * 2^32)⟩

/-- R169, R264: a completion enters the thread's FIFO in the place reserved for it. -/
def Thread.complete (t : Thread) (e : Completion) : Thread := { t with fifo := t.fifo ++ [e], reserved := t.reserved - 1 }

/-- R262: what a suppressed command leaves for the thread's next MX.FENCE. -/
def Tally.add (y : Tally) (status : Nat) (flags : Flags) : Tally :=
  ⟨y.flags ||| flags, y.count + 1, if y.status = 0 then status else y.status⟩

/-- R262, R264: the head command retires with a status, a count and shortfall bits. -/
def State.mxRetire (s : State) (c : Nat) (q : MxCmd) (status count short : Nat) (flags : Flags) : State :=
  (s.dropMxHead c).modThread q.thread (fun t =>
    if q.nc then { t with tally := t.tally.add status flags }
    else t.complete (mxCompletion q status count short flags))

/-- R263: n slots are popped, as many as are filled; true when they fall short. -/
def State.popSlots (s : State) (c fl n : Nat) : Bool × State :=
  let f := flumeOf (s.coreAt c).flumes fl
  (decide (f.filled < n), s.modCore c (fun k => k.setFlume fl (f.consume (min n f.filled))))

/-- R263: one slot is produced if one is free; true when none is. -/
def State.produceSlot (s : State) (c fl : Nat) : Bool × State :=
  let f := flumeOf (s.coreAt c).flumes fl
  if f.filled < 2^f.k then (false, s.modCore c (fun k => k.setFlume fl (f.produce 1))) else (true, s)

/-- R265: UE is pending in the command's thread. -/
def State.mxUe (s : State) (q : MxCmd) (a : Nat) : State := s.pendUe q.thread (spadVa (a % 2^20)) (.spad a)

/-- R360: the watchers are told of the sequencer's access. -/
def State.mxWatched (s : State) (c : Nat) (q : MxCmd) (writes : Bool) (a n : Nat) : State :=
  s.watched q.thread ⟨c, true, false, writes, !writes⟩ (spadVa (a % 2^20)) n

/-! MX.MMA and MX.MMAD (R259). -/

/-- The key of slot x of a flume. -/
def Flume.slotKey (f : Flume) (c x : Nat) : Nat := spadKey c (f.base + x * f.size)

/-- R259, R263, R265: a multiply retires: its slots are popped. -/
def State.retireMma (s : State) (c : Nat) (q : MxCmd) : State :=
  let n := if q.ue then q.step + 1 else q.ks
  let (sa, s) := s.popSlots c q.fa n
  let (sb, s) := s.popSlots c q.fb n
  s.mxRetire c q (if q.ue then 6 else 0) q.step (bit sa + 2 * bit sb) q.flags

/-- R259: a multiply begins, taking the heads of its flumes, or retires once its K-steps are done. -/
def State.runMma (s : State) (c code : Nat) : State :=
  match s.mxHead c with
  | none => s
  | some q =>
    if q.code ≠ code then s
    else if !q.begun then
      let fs := (s.coreAt c).flumes
      s.modMxHead c (fun q => { q with begun := true, headA := (flumeOf fs q.fa).head, headB := (flumeOf fs q.fb).head })
    else if q.ue || q.step == q.ks then s.retireMma c q
    else s

/-- R259: MX_MMA. -/
def execMxMma (c : Nat) (s : State) : Result := .next (s.runMma c 1)

/-- R259: MX_MMAD. -/
def execMxMmad (c : Nat) (s : State) : Result := .next (s.runMma c 2)

/-- R265: the first key among a K-step's operands that holds an error. -/
def State.stepError (s : State) (c : Nat) (q : MxCmd) (a b : Nat) : Option Nat :=
  let bands := ([0, 1] : List Nat).flatMap (fun r =>
    [(q.bandA, r), (q.bandB, r)].filterMap (fun x =>
      if (s.bandScale c x.1 (q.qbase + q.step) x.2).2 then
        some (spadKey c (x.1.toNat % 2^20 + 4 * (q.qbase + q.step) + 2 * x.2)) else none))
  if s.poisoned a (tileBytes q.fmtA) then some a
  else if s.poisoned b (tileBytes q.fmtB) then some b
  else bands.head?

/-- R107, R259: the sums of one K-step enter the accumulator. -/
def State.kstepSums (s : State) (c : Nat) (q : MxCmd) (a b : Nat) : State :=
  let ta : Tile := ⟨mxFmt q.fmtA, s.readAt a (tileBytes q.fmtA)⟩
  let tb : Tile := ⟨mxFmt q.fmtB, s.readAt b (tileBytes q.fmtB)⟩
  let bA := fun r => (s.bandScale c q.bandA (q.qbase + q.step) r).1
  let bB := fun r => (s.bandScale c q.bandB (q.qbase + q.step) r).1
  let k := s.coreAt c
  let elem := fun i j => kstepElement (q.code == 2) ta tb bA bB (k.acc q.acc i j) i j
  let fl := (List.range 16384).foldl (fun f x => f ||| (elem (x / 128) (x % 128)).2) (0 : Flags)
  (s.modCore c (fun k => k.setRows q.acc 0 128 (fun i j => (elem i j).1))).modMxHead c (fun q =>
    { q with step := q.step + 1, flags := q.flags ||| fl, since := s.now })

/-- R259: one K-step of the head command, once both flumes hold its slot. -/
def State.kstep (s : State) (c : Nat) : State :=
  match s.mxHead c with
  | none => s
  | some q =>
    let fa := flumeOf (s.coreAt c).flumes q.fa
    let fb := flumeOf (s.coreAt c).flumes q.fb
    if !(q.code == 1 || q.code == 2) || !q.begun || q.ue || decide (q.ks ≤ q.step) then s
    else if fa.filled < q.step + 1 ∨ fb.filled < q.step + 1 then s
    else
      let a := fa.slotKey c ((q.headA + q.step) % 2^fa.k)
      let b := fb.slotKey c ((q.headB + q.step) % 2^fb.k)
      let s := (s.mxWatched c q false a (tileBytes q.fmtA)).mxWatched c q false b (tileBytes q.fmtB)
      match s.stepError c q a b with
      | some x => (s.mxUe q x).modMxHead c (fun q => { q with ue := true })
      | none => s.kstepSums c q a b

/-- R259: MX_KSTEP. -/
def execMxKstep (c : Nat) (s : State) : Result := .next (s.kstep c)

/-! The other commands. -/

/-- Runs f on the head command when its code fits. -/
def State.mxRun (s : State) (c code : Nat) (f : MxCmd → State) : State :=
  match s.mxHead c with
  | some q => if q.code = code then f q else s
  | none => s

/-- R260: MX_ZERO. -/
def execMxZero (c : Nat) (s : State) : Result :=
  .next (s.mxRun c 3 (fun q =>
    (s.modCore c (fun k => k.setRows q.acc 0 128 (fun _ _ => 0))).mxRetire c q 0 1 0 0))

/-- R260, R265: n rows of a load from row r on, of the rows at key a, up to the first that holds an error. -/
def State.loadRows (s : State) (c : Nat) (q : MxCmd) (a : Nat) : Nat → Nat → Nat × Option Nat × State
  | 0, r => (r, none, s)
  | n + 1, r =>
    let at' := a + 512 * r
    if s.poisoned at' 512 then (r, some at', s)
    else
      let img := s.readAt at' 512
      (s.modCore c (fun k => k.setRows q.acc (q.row0 + r) 1 (fun _ j => imageAt img (4 * j) 4))).loadRows c q a n (r + 1)

/-- R260: the bytes that a load or a store moves. -/
def MxCmd.moveBytes (q : MxCmd) : Nat := q.rows * (if q.code = 4 then 512 else storeRowBytes q.out)

/-- R260: the slot that a load reads, or a store writes, when the flume lets it begin. -/
def MxCmd.moveSlot (q : MxCmd) (f : Flume) : Option Nat :=
  if q.code = 4 then (if f.filled = 0 then none else some f.head) else if 2^f.k ≤ f.filled then none else some f.tail

/-- R260: the key from which a load or a store that has begun moves its rows. -/
def MxCmd.moveKey (q : MxCmd) (k : Core) (c : Nat) : Nat :=
  if q.fl then (flumeOf k.flumes q.fa).slotKey c q.headA else spadKey c q.off

/-- R260: a load or a store that begins, with its slot; none while its flume makes it wait. A command that has begun keeps
its slot. -/
def State.mxEnter (s : State) (c : Nat) (q : MxCmd) : Option (MxCmd × State) :=
  if q.begun then some (q, s)
  else
    match (if q.fl then q.moveSlot (flumeOf (s.coreAt c).flumes q.fa) else some 0) with
    | none => none
    | some x =>
      let q := { q with begun := true, headA := x }
      some (q, (s.modMxHead c (fun _ => q)).mxWatched c q (q.code == 5) (q.moveKey (s.coreAt c) c) q.moveBytes)

/-- R260, R263, R265: a load that has begun moves the rows it has left and retires. -/
def State.mxLoadFrom (s : State) (c : Nat) (q : MxCmd) : State :=
  let (done, bad, s) := s.loadRows c q (q.moveKey (s.coreAt c) c) (q.rows - q.step) q.step
  let s := match bad with
    | some x => s.mxUe q x
    | none => s
  let (short, s) := if q.fl then s.popSlots c q.fa 1 else (false, s)
  s.mxRetire c q (if bad.isSome then 6 else 0) done (bit short) 0

/-- R260: MX_LOAD. -/
def execMxLoad (c : Nat) (s : State) : Result :=
  .next (s.mxRun c 4 (fun q =>
    match s.mxEnter c q with
    | some (q, s) => s.mxLoadFrom c q
    | none => s))

/-- R260: the bytes of row r of a store, with their flags. -/
def storeRow (k : Core) (q : MxCmd) (r : Nat) : List Byte × Flags :=
  let xs := (List.range 128).map (fun j => k.acc q.acc (q.row0 + r) j)
  let f := mxFmt q.out
  if q.out = 12 then (xs.flatMap (fun x => leBytes x 4), 0)
  else if 8 ≤ q.out then
    let ys := xs.map (if q.out = 8 then Fmt.f32.convert f .rne else f.toElement)
    (ys.flatMap (fun y => leBytes y.1 (f.width / 8)), ys.foldl (fun a y => a ||| y.2) 0)
  else
    let rs := (List.range 4).map (fun n => f.packRecord false 1 ((xs.drop (32 * n)).take 32))
    (rs.flatMap (fun x => leBytes x.1 f.recordSize), rs.foldl (fun a x => a ||| x.2.1) 0)

/-- R260: the bytes of the first n rows of a store, with their flags. -/
def storeImage (k : Core) (q : MxCmd) (n : Nat) : List Byte × Flags :=
  let rs := (List.range n).map (storeRow k q)
  (rs.flatMap (·.1), rs.foldl (fun f r => f ||| r.2) 0)

/-- R260: what a store has not yet written of its first n rows is written; `step` counts the aligned units of 8 bytes that
it has (R190). -/
def State.storeRows (s : State) (c : Nat) (q : MxCmd) (n : Nat) : Flags × State :=
  let (bs, f) := storeImage (s.coreAt c) q n
  (f, s.writeBytesAt (q.moveKey (s.coreAt c) c + 8 * q.step) (bs.drop (8 * q.step)))

/-- R260, R263: a store that has begun writes what it has left and retires. -/
def State.mxStoreTo (s : State) (c : Nat) (q : MxCmd) : State :=
  let (f, s) := s.storeRows c q q.rows
  let (short, s) := if q.fl then s.produceSlot c q.fa else (false, s)
  s.mxRetire c q 0 q.rows (bit short) f

/-- R260: MX_STORE. -/
def execMxStore (c : Nat) (s : State) : Result :=
  .next (s.mxRun c 5 (fun q =>
    match s.mxEnter c q with
    | some (q, s) => s.mxStoreTo c q
    | none => s))

/-- R190: one event of a load or store at the head of core c's queue: a row that it reads, or an aligned unit of 8 bytes that
it writes. MX_LOAD and MX_STORE do the events that are left and retire. -/
def State.mxEvent (s : State) (c : Nat) : State :=
  match s.mxHead c with
  | none => s
  | some q =>
    if q.code ≠ 4 ∧ q.code ≠ 5 then s
    else match s.mxEnter c q with
      | none => s
      | some (q, s) =>
        if q.code = 4 then
          (if q.rows ≤ q.step then s
           else match s.loadRows c q (q.moveKey (s.coreAt c) c) 1 q.step with
             | (_, none, s) => s.modMxHead c (fun q => { q with step := q.step + 1 })
             | _ => s)
        else if q.moveBytes ≤ 8 * q.step then s
        else
          let bs := (((storeImage (s.coreAt c) q q.rows).1).drop (8 * q.step)).take 8
          (s.writeBytesAt (q.moveKey (s.coreAt c) c + 8 * q.step) bs).modMxHead c (fun q => { q with step := q.step + 1 })

/-- R262: MX_FENCE: the suppressed commands of its thread since the last one. -/
def execMxFence (c : Nat) (s : State) : Result :=
  .next (s.mxRun c 6 (fun q =>
    let y := (s.thread q.thread).tally
    (s.mxRetire c q y.status y.count 0 y.flags).modThread q.thread (fun t => { t with tally := ⟨0, 0, 0⟩ })))

/-- R261: an element scaled by its bands. -/
def scaledElement (bandA bandB : FVal) (x : Nat) : Nat × Flags :=
  let p := mulFlags (mulFlags (Fmt.f32.decode x, 0) (bandA, 0)) (bandB, 0)
  let (r, f) := Fmt.f32.deliver .rne p.1
  (r, p.2 ||| f)

/-- R261: MX.SCALEBAND. One that ends with status UE counts 0: R264 gives SCALEBAND the count 1 and R265 the whole K-steps or rows
done (DESIGN CHOICE, log entry 82). -/
def State.scaleBand (s : State) (c : Nat) (q : MxCmd) : State :=
  let sc := fun band r => s.bandScale c band q.qbase r
  let bad := ([(q.bandA, 0), (q.bandA, 1), (q.bandB, 0), (q.bandB, 1)] : List (Word × Nat)).find? (fun x => (sc x.1 x.2).2)
  match bad with
  | some x => (s.mxUe q (spadKey c (x.1.toNat % 2^20 + 4 * q.qbase + 2 * x.2))).mxRetire c q 6 0 0 0
  | none =>
    let k := s.coreAt c
    let elem := fun i j => scaledElement (sc q.bandA (i / 64)).1 (sc q.bandB (j / 64)).1 (k.acc q.acc i j)
    let fl := (List.range 16384).foldl (fun f x => f ||| (elem (x / 128) (x % 128)).2) (0 : Flags)
    (s.modCore c (fun k => k.setRows q.acc 0 128 (fun i j => (elem i j).1))).mxRetire c q 0 1 0 fl

/-- R261: MX_SCALEBAND. -/
def execMxScaleband (c : Nat) (s : State) : Result := .next (s.mxRun c 7 (s.scaleBand c))

/-! An error in an accumulator or the datapath (R265, R346). -/

/-- R265, R358: the rewrite test of an accumulator's granule that failed in the head command of core c leaves all ones there, and
UE is pending in the command's thread; with no granule it is the datapath that failed. -/
def State.mxFailed (s : State) (c : Nat) (q : MxCmd) : Option (Nat × Nat) → State
  | some (i, j) =>
    let key := accKey q.acc (i % 128) (2 * (j % 64))
    (s.modCore c (fun k => { k with
      accs := Sparse.set (Sparse.set k.accs key (BitVec.allOnes 32)) (key + 1) (BitVec.allOnes 32) })).pendUe q.thread 0
        (.accumulator q.acc)
  | none => s.pendUe q.thread 0 .datapath

/-- R265: the head command of core c meets an uncorrectable error in an accumulator or the datapath, and ends with status UE: a
multiply in a K-step whose slots it holds, a store after `rows` whole rows, in a cell of the row that comes next. A load and a
zero read no accumulator. -/
def State.mxUpset (s : State) (c rows : Nat) (cell : Option (Nat × Nat)) : State :=
  match s.mxHead c with
  | none => s
  | some q =>
    let fs := (s.coreAt c).flumes
    match q.code with
    | 1 | 2 =>
      if q.begun && !q.ue && decide (q.step < q.ks) && decide (q.step < (flumeOf fs q.fa).filled)
          && decide (q.step < (flumeOf fs q.fb).filled) then
        (s.mxFailed c q cell).modMxHead c (fun q => { q with ue := true })
      else s
    | 5 =>
      (match s.mxEnter c q with
       | some (q, u) =>
         if rows < q.rows ∧ 8 * q.step ≤ rows * storeRowBytes q.out ∧ cell.all (fun x => x.1 == q.row0 + rows) then
           (let r := u.storeRows c q rows
            (r.2.mxFailed c q cell).mxRetire c q 6 rows 0 r.1)
         else s
       | none => s)
    | 7 => (s.mxFailed c q cell).mxRetire c q 6 0 0 0
    | _ => s

end Sys2Proof.Machine
end

