-- ==== Sys2Proof/Machine/LaunchCmd.lean ====
section
/-!
DEFINITION. LARM, LPATCH and the arming of a launch record (R294 to R298).
-/
namespace Sys2Proof.Machine

/-- Record n of partition p's pool, as 32 doublewords (R42). -/
def State.record (s : State) (p n : Nat) : List Word := (List.range 32).map (fun k => Sparse.get (s.part p).pool (32 * n + k) 0)

/-- Doubleword k of a record. -/
def recordWord (ws : List Word) (k : Nat) : Nat := (ws.getD k 0).toNat

/-- The record's valid bit (R42). -/
def recordValid (ws : List Word) : Bool := field (recordWord ws 0) 0 1 == 1

/-- The record's armed bit (R42). -/
def recordArmed (ws : List Word) : Bool := field (recordWord ws 0) 1 1 == 1

/-- R295: a completion address: a multiple of 64, canonical, in windows 0-7. -/
def doneOk (v : Word) : Bool :=
  v.toNat % 64 == 0 && (match classify v with | .home d => decide (d ≤ 7) | _ => false)

/-- R42: an index count, 1 to 2^32. -/
def countOk (n : Nat) : Bool := decide (1 ≤ n) && decide (n ≤ 2^32)

/-- R296 code 3: the reserved bits are zero and every field lies in its range. -/
def recordRangesOk (ws : List Word) : Bool :=
  let c := recordWord ws 0
  field c 16 48 == 0 && (ws.drop 24).all (· == 0) && countOk (recordWord ws 4) && doneOk (ws.getD 7 0)
    && decide (field c 11 5 ≤ 16)

/-- The launch that a record makes, before it is queued. -/
def launchOf (id p n : Nat) (ws : List Word) : Launch where
  id := id
  part := p
  record := n
  words := ws
  order := id
  members := []
  lost := []
  dies := []
  installed := []
  ballots := []
  firstBallot := none
  closed := false
  leader := none
  postedAt := 0
  counter := 0
  block := (0, 0)
  halted := 0
  abandoned := []
  restarted := []
  waiting := []
  asked := false
  assisted := false
  rollbacks := 0
  log := []
  rollbackEntry := false
  held := false
  ending := none

/-- Every core that the launch's masks name. -/
def Launch.cores (l : Launch) : List Nat := l.maskDies.flatMap l.coresOn

/-- R22: the width of a fetch group. -/
def Launch.width (l : Launch) : Nat := 2^(field (l.word 0) 5 2)

/-- R296 code 4: the masks name cores of the partition, and whole fetch groups. -/
def State.masksOk (s : State) (l : Launch) : Bool :=
  let cs := l.cores
  !cs.isEmpty && cs.all (fun c => (s.part l.part).cores.contains c)
    && cs.all (fun c => (List.range l.width).all (fun j => cs.contains (c / l.width * l.width + j)))

/-- R296 code 5: every slot table that the launch's pointer leads to is readable and well formed. -/
def State.slotsOk (s : State) (die : Option Nat) (l : Launch) : State × TableRead Unit :=
  if l.word 5 = 0 then (s, .value ()) else s.directoryOk die l.part (word (l.word 5)) (List.range 1024)

/-- The address of the image for domain n of die d (R299). -/
def Launch.imageAddress (l : Launch) (d n : Nat) : Word := Machine.word (l.word 6 + 1024 * d + 64 * n)

/-- R296: the images of a list of domains are readable and well formed. -/
def State.imagesFrom (s : State) (die : Option Nat) (l : Launch) : List Nat → State × TableRead Unit
  | [] => (s, .value ())
  | i :: is => TableRead.next (s.readBy die l.part (l.imageAddress (i / 16) (i % 16)) 64) (fun s bs =>
      if imageOk (s.part l.part).barriers.2 bs then s.imagesFrom die l is else (s, .bad))

/-- R296 code 6: every image that the membership pointer leads to is readable and well formed. -/
def State.imagesOk (s : State) (die : Option Nat) (l : Launch) : State × TableRead Unit :=
  if l.word 6 = 0 then (s, .value ()) else s.imagesFrom die l (List.range 128)

/-- R296 codes 1 to 4: what the record itself shows. -/
def State.recordStatus (s : State) (p n : Nat) : Nat :=
  let ws := s.record p n
  if 255 < n ∨ !recordValid ws then 1
  else if recordArmed ws then 2
  else if !recordRangesOk ws then 3
  else if !s.masksOk (launchOf 0 p n ws) then 4
  else 0

/-- R296 codes 5 and 6: what its tables show, as the executing thread on a die reads them. -/
def State.tablesStatus (s : State) (die : Option Nat) (l : Launch) : State × Except Wait Nat :=
  match s.slotsOk die l with
  | (s, .bad) => (s, .ok 5)
  | (s, .waits w) => (s, .error w)
  | (s, .value ()) =>
    match s.imagesOk die l with
    | (s, .bad) => (s, .ok 6)
    | (s, .waits w) => (s, .error w)
    | (s, .value ()) => (s, .ok 0)

/-- R296: the status of arming record n of partition p, as the executing thread on a die reads its tables; 0 where it can be
armed. -/
def State.armCheck (s : State) (die : Option Nat) (p n : Nat) : State × Except Wait Nat :=
  if s.recordStatus p n ≠ 0 then (s, .ok (s.recordStatus p n)) else s.tablesStatus die (launchOf 0 p n (s.record p n))

/-- R296: the status that the monitor's host launch finds. -/
def State.armStatus (s : State) (p n : Nat) : Nat := ((s.armCheck none p n).2.toOption).getD 0

/-- R296, R298: the record is armed and enters the partition's launch queue. -/
def State.arm (s : State) (p n : Nat) : State :=
  let l := launchOf s.nextId p n (s.record p n)
  ((s.bump.setArmed p n true).setLaunch l)

/-- R296 LARM. The tables are read as GETRs would read them, once none of the thread's stores and PUTRs is under way (DEDUCED,
log entry 74). -/
def execLarm (rd ra : Reg) (s : State) : Result :=
  let p := s.partOf s.cur
  let n := (s.x ra).toNat
  let st := s.recordStatus p n
  if st ≠ 0 then .next (s.setX rd (word st))
  else if s.writesBusy s.cur then .next (s.wait .writesDone)
  else match s.armCheck (some (dieOf s.here)) p n with
    | (s, .ok 0) => .next (s.releasing .pkg false (fun s => (s.arm p n).setX rd 0))
    | (s, .ok st) => .next (s.setX rd (word st))
    | (s, .error w) => .next (s.wait w)

/-- R295: a patchable field of record x[ra] takes x[rb], or the status that refuses it. -/
def State.patch (s : State) (rd ra rb : Reg) (ok : Word → Bool) (k : Nat) (new : Word → Word → Word) : State :=
  let p := s.partOf s.cur
  let n := (s.x ra).toNat
  let v := s.x rb
  let ws := s.record p n
  if 255 < n ∨ !recordValid ws then s.setX rd 1
  else if recordArmed ws then s.setX rd 2
  else if !ok v then s.setX rd 3
  else (s.modPart p (fun q => { q with pool := Sparse.set q.pool (32 * n + k) (new (ws.getD k 0) v) })).setX rd 0

/-- R295 LPATCH.PRIO: control bits 4:2. -/
def execLpatchPrio (rd ra rb : Reg) (s : State) : Result :=
  .next (s.patch rd ra rb (fun v => decide (v.toNat ≤ 7)) 0
    (fun old v => word (old.toNat - field old.toNat 2 3 * 4 + v.toNat * 4)))

/-- R295 LPATCH.ARG. -/
def execLpatchArg (rd ra rb : Reg) (s : State) : Result := .next (s.patch rd ra rb (fun _ => true) 3 (fun _ v => v))

/-- R295 LPATCH.COUNT. -/
def execLpatchCount (rd ra rb : Reg) (s : State) : Result :=
  .next (s.patch rd ra rb (fun v => countOk v.toNat) 4 (fun _ v => v))

/-- R295 LPATCH.DONE. -/
def execLpatchDone (rd ra rb : Reg) (s : State) : Result := .next (s.patch rd ra rb doneOk 7 (fun _ v => v))

end Sys2Proof.Machine
end

