-- ==== Sys2Proof/Machine/SporeCmd.lean ====
section
/-!
DEFINITION. SPORE at issue (R366, R367) and the start it sends (R365, R369).
-/
namespace Sys2Proof.Machine

/-- A spore descriptor (R366). -/
structure Descriptor where
  domain : Nat
  parent : Nat
  manifest : Word
  manifestLen : Word
  image : Word
  imageLen : Word
  status : Word
  zeros : Bool
  deriving DecidableEq, Repr

/-- R366: reads a descriptor from its 64 bytes; `zeros` tells that every zero field is zero. -/
def parseDescriptor (bs : List Byte) : Descriptor :=
  ⟨leAt bs 0 4 % 16, leAt bs 4 4, word (leAt bs 8 8), word (leAt bs 16 8), word (leAt bs 24 8), word (leAt bs 32 8),
   word (leAt bs 40 8), leAt bs 0 4 / 16 == 0 && leAt bs 48 16 == 0⟩

/-- R366: an area: aligned on 64 KiB in home windows 0-7, with a nonzero length that is a multiple of 64 KiB. -/
def areaOk (a n : Word) : Bool :=
  a.toNat % 65536 == 0 && n.toNat % 65536 == 0 && n != 0 && (match classify a with | .home d => decide (d ≤ 7) | _ => false)

/-- R366: the status address: 0, or 8-byte aligned in a home window. -/
def statusOk (a : Word) : Bool :=
  a == 0 || (a.toNat % 8 == 0 && (match classify a with | .home _ => true | _ => false))

/-- R366: the descriptor is well formed. -/
def Descriptor.ok (d : Descriptor) : Bool :=
  d.zeros && areaOk d.manifest d.manifestLen && areaOk d.image d.imageLen && statusOk d.status
    && !overlaps d.manifest.toNat d.manifestLen.toNat d.image.toNat d.imageLen.toNat
    && (d.status == 0 || (!overlaps d.status.toNat 8 d.manifest.toNat d.manifestLen.toNat
          && !overlaps d.status.toNat 8 d.image.toNat d.imageLen.toNat))

/-- R365, R367: a spore of the job is under way: accepted, or ARMED, CAPTURE or SEALING. -/
def Spore.started (sp : Spore) : Bool := sp.busy || sp.cur != sp.epoch

/-- Two lists hold the same numbers. -/
def sameMembers (xs ys : List Nat) : Bool := xs.all (fun x => ys.contains x) && ys.all (fun y => xs.contains y)

/-- R367 code 3: the cut domain is a package-level domain that launch l installed, its members are every thread that the
launch runs here, and it is the step domain where the launch names one. -/
def State.cutDomainOk (s : State) (l : Launch) (n : Nat) : Bool :=
  let ks := l.dies.map (fun d => domainKey d n)
  ks.all (fun k => (s.domain k).level == 3 && (s.domain k).launch == some l.id)
    && !ks.isEmpty && sameMembers (ks.flatMap (fun k => (s.domain k).members k)) l.members
    && (match l.stepDomain with | some x => x == n | none => true)

/-- R364: the job's launch on this package: that of a thread, or the one that runs in its partition. -/
def State.jobLaunch (s : State) (p : Nat) (own : Option Nat) : Option Launch :=
  match own.bind (fun l => Sparse.find? s.launches l) with
  | some l => some l
  | none => (List.find? (fun (e : Nat × Launch) => e.2.part == p && !e.2.installed.isEmpty) s.launches).map (·.2)

/-- R367: the answer of the coordinating Weir's checks for a thread of partition p and a launch: a code, or 0; for code 3 what
this package finds. -/
def State.sporeRefusal (s : State) (p : Nat) (own : Option Nat) (d : Descriptor) : Nat :=
  let sp := (s.part p).spore
  if sp.started then 1
  else if !d.ok then 2
  else if !(match s.jobLaunch p own with
    | some l => s.cutDomainOk l d.domain
    | none => false) then 3
  else if d.parent ≠ 0 ∧ d.parent ≠ sp.last then 4
  else 0

/-- R365, R369: the start of an epoch is on its way to partition p's package, for its launch; the package is ARMED when it
arrives (SPORE_ARM). -/
def State.startSpore (s : State) (p epoch : Nat) (d : Descriptor) (own : Option Nat) : State :=
  let l := s.jobLaunch p own
  s.modSpore p (fun sp => { sp with
    issued := max sp.issued epoch
    epoch := epoch
    parent := d.parent
    domain := d.domain
    manifest := d.manifest
    manifestLen := d.manifestLen
    image := d.image
    imageLen := d.imageLen
    statusAddr := d.status
    markers := []
    cutGen := 0
    cutTime := 0
    nextIndex := 0
    halted := 0
    used := 0
    pages := []
    snaps := []
    capturing := []
    blocks := []
    log := []
    weirRecords := []
    ready := false
    launch := l.map (·.id)
    record := (l.map (·.record)).getD 0 })

/-- R365, R367: the epoch is assigned and the start goes out. -/
def State.acceptSpore (s : State) (t : Nat) (d : Descriptor) : State :=
  let p := s.partOf t
  s.startSpore p ((s.part p).spore.issued + 1) d (s.thread t).launch

/-- R367: an answer that refuses. -/
def sporeRefused (code : Nat) : Word := word (2^63 + code)

/-- R367: the coordinating Weir's answer to the executing thread's descriptor of 64 bytes. In a job of several packages it
comes from outside: from package 0, or to package 0 from the others (log entry 27); package 0 refuses at once what its own
checks up to code 3 refuse. -/
def State.sporeAnswer (s : State) (bs : List Byte) (rd : Reg) : State :=
  let sp := (s.part (s.partOf s.cur)).spore
  let d := parseDescriptor bs
  let code := s.sporeRefusal (s.partOf s.cur) s.me.launch d
  if sp.pkg = 0 ∧ code ≠ 0 ∧ (code < 4 ∨ sp.packages = 1) then s.setX rd (sporeRefused code)
  else if sp.packages = 1 then
    let s := s.acceptSpore s.cur d
    s.setX rd (word (s.part (s.partOf s.cur)).spore.epoch)
  else s.wait (.spore bs)

/-- R367: the descriptor's 64 bytes at a; SPORE raises nothing after its address checks, and what it reads where the data is
poisoned is not stated: free bytes (log entry 83). -/
def State.descriptorAt (s : State) (a : Nat) : State × List Byte :=
  if s.poisonedFor s.cur a 64 then
    ({ s with freeCount := s.freeCount + 8 },
      (List.range 8).flatMap (fun k => leBytes (Config.freeValue (s.freeCount + k)).toNat 8))
  else (s, Memory.readBytes s.mem a 64)

/-- R367 SPORE. -/
def execSpore (rd ra : Reg) (s : State) : Result :=
  let va := s.x ra
  match s.me.reply with
  | some r => .next (s.answered r (fun s v => s.setX rd v))
  | none =>
    .next (s.ownOperand va 64 8 (fun a =>
      s.releasing .pkg false (fun s => (s.descriptorAt a).1.sporeAnswer (s.descriptorAt a).2 rd)))

/-- R367: the answer that a job of several packages waits for reaches thread t: on package 0 the others' finding, on which it
makes its checks again and assigns the epoch, elsewhere package 0's word. A forced pre-emption does not withdraw it. -/
def State.sporeAnswers (s : State) (p t : Nat) (v : Word) : State :=
  let x := s.threadFor p t
  let answer (s : State) (v : Word) : State := s.modThreadFor p t (fun x => { x with reply := some (.value v) })
  match x.status with
  | .blocked (.spore bs) _ =>
    let sp := (s.part p).spore
    if sp.pkg ≠ 0 ∨ v.getLsbD 63 then answer s v
    else
      let d := parseDescriptor bs
      let code := s.sporeRefusal p x.launch d
      if code = 0 then answer (s.startSpore p (sp.issued + 1) d x.launch) (word (sp.issued + 1))
      else answer s (sporeRefused code)
  | _ => s

/-- R369: the start from another package's Weir, for partition p here. -/
def State.sporeStarts (s : State) (p epoch : Nat) (ws : List Word) : State :=
  let sp := (s.part p).spore
  if sp.started ∨ sp.packages = 1 ∨ sp.pkg = 0 ∨ s.partExists p = false then s
  else s.startSpore p epoch (parseDescriptor (ws.flatMap (fun w => leBytes w.toNat 8))) none

end Sys2Proof.Machine
end

