-- ==== Sys2Proof/Machine/Remote.lean ====
section
/-!
DEFINITION. Stores, puts and notices after they leave their thread (R153, R164, R201 to R203, R207, R210, R212), and the
agents that execute requests (R160 to R163).
-/
namespace Sys2Proof.Machine

/-! The dispatcher pages (R309, R311, R340, R342). -/

/-- R309, R311: bit 0 of a store to a region word opens or closes the region; a region that is open keeps its time. -/
def regionWord (rs : Sparse Nat) (key v now : Nat) : Sparse Nat :=
  if v % 2 = 0 then Sparse.erase rs key
  else if (Sparse.find? rs key).isSome then rs
  else Sparse.set rs key now

/-- R309, R311, R340, R342: a store of value v at a field of a dispatcher page: a region word or RESUME; any other field
ignores it. -/
def State.pageStore (s : State) (h : PageHit) (v : Nat) : State :=
  if h.faults then (if h.off = 0x08 then s.resumeSlot h.part h.die v else s)
  else if 0x100 ≤ h.off ∧ h.off < 0x500 ∧ h.off % 8 = 0 then
    s.modPart h.part (fun q => { q with
      regions := regionWord q.regions (h.die * 128 + (h.off - 0x100) / 8) v s.now
      regionWait := q.regionWait || (q.sliceEnded.isSome && v % 2 == 1) })
  else s

/-! Performing a store (R153). -/

/-- R196, R210: an earlier put of thread t holds back its access number id to n bytes at a: to overlapping bytes, or to a
line in the hazard table. -/
def State.putAhead (s : State) (t id a n : Nat) : Bool :=
  (s.thread t).puts.any (fun w => decide (w.id < id) &&
    (w.hits a n || (w.hazard (dieOf (coreOf t)) && isHbm a && lineOf w.a == lineOf a)))

/-- The oldest store of thread t leaves its buffer. -/
def State.popStore (s : State) (t : Nat) : State := s.modThread t (fun x => { x with buffer := x.buffer.tail })

/-- R252: a store to the command slot writes the thread's staging buffer. -/
def Thread.stage (t : Thread) (off n : Nat) (v : Word) : Thread :=
  let i := off / 8
  let old := (t.staging.toList.getD i 0).toNat
  let sh := 8 * (off % 8)
  let new := old - field old sh (8 * n) * 2^sh + v.toNat % 256^n * 2^sh
  if h : i < 8 then { t with staging := t.staging.set i (word new) h } else t

/-- R153: the oldest store of thread t at memory key a. -/
def State.performMem (s : State) (t : Nat) (x : Store) (a : Nat) : State :=
  let bs := leBytes x.data.toNat x.size
  if x.sent || s.putAhead t x.id a x.size then s
  else if isSpad a then (s.writeBytesAt a bs).popStore t
  else match s.pageAt a with
    | some h => (s.pageStore h x.data.toNat).popStore t
    | none =>
      if !x.g then ((s.firstWrite (s.partOf t) x.va a).writeEarly t x.id x.va a bs).popStore t
      else if 64 ≤ (s.hazardTable (coreOf t)).length then s
      else s.modThread t (fun y => { y with buffer := match y.buffer with
        | [] => []
        | b :: r => { b with sent := true, sentAt := s.now } :: r })

/-- R153, R252: STORE_PERFORMED: the oldest store of thread t is performed; a global store leaves for the Basin. -/
def State.performStore (s : State) (t : Nat) : State :=
  match (s.thread t).buffer with
  | [] => s
  | x :: _ =>
    match x.place with
    | .staging off => (s.modThread t (fun y => y.stage off x.size x.data)).popStore t
    | .mem a => s.performMem t x a

/-- R153: STORE_PERFORMED. -/
def execStorePerformed (t : Nat) (s : State) : Result := .next (s.performStore t)

/-! Puts (R164). -/

/-- Where a PUTR is performed (R160, R164). -/
inductive PutPath where
  | own | rank (r : Nat) | early | global | outside
  deriving DecidableEq, Repr

/-- The path of a put. -/
def Put.path (w : Put) : PutPath :=
  match classify w.va with
  | .rank r _ => .rank r
  | .home d => if 8 ≤ d then .outside else if w.g then .global else .early
  | .spad _ | .slot _ | .refused => .own

/-- R215: an entry of thread t in its core's queue that is older than its access number id accesses some byte of a .. a+n-1. -/
def State.vectorBefore (s : State) (t id a n : Nat) : Bool :=
  (s.coreAt (coreOf t)).vqueue.any (fun q => q.thread == t && decide (q.age < id) && q.body.any (fun e => e.touches a n))

/-- R164, R196, R210, R215: a queued put of thread t waits in the NI: behind an earlier PUTR to overlapping bytes until that
one is performed at PKG, behind what `putAhead` names, and for room at an entry IN TRANSIT (R40). -/
def State.putWaits (s : State) (t : Nat) (w : Put) : Bool :=
  let x := s.thread t
  let d := dieOf (coreOf t)
  x.puts.any (fun v => decide (v.id < w.id) && overlaps v.a v.size w.a w.size)
    || s.putAhead t w.id w.a w.size || s.vectorBefore t w.id w.a w.size
    || x.buffer.any (fun b => decide (b.id < w.id) && (b.hits w.a w.size ||
          (b.sent && (match b.place with | .mem a => lineOf a == lineOf w.a | .staging _ => false))))
    || (w.hazard d && decide (64 ≤ (s.hazardTable (coreOf t)).length))
    || (match w.path with
      | .rank r => (s.rankEntry (s.partOf t) r).holds && s.holdFull (s.partOf t) r (coreOf t)
      | .own | .early | .global | .outside => false)

/-- The puts of thread t with one changed. -/
def State.modPut (s : State) (t id : Nat) (f : Put → Put) : State :=
  s.modThread t (fun x => { x with puts := x.puts.map (fun w => if w.id = id then f w else w) })

/-- A put leaves the NI for good: it is performed at PKG. -/
def State.dropPut (s : State) (t id : Nat) : State :=
  { s with forwards := s.forwards.filter (fun f => f.id != id) }.modThread t (fun x =>
    { x with puts := x.puts.filter (fun w => w.id != id) })

/-- R164, R202, R406: the NI sends a put: an early one to another die's window enters the die's forward table, one through rank
space becomes a packet; one to a node without a working lane is lost. -/
def State.sendPut (s : State) (t : Nat) (w : Put) : State :=
  let d := dieOf (coreOf t)
  let dead := (nodeOf w.a).any (fun n => !s.nodeReached n)
  let s := s.modPut t w.id (fun w => { w with stage := if dead then .lost false else .sent, sentAt := s.now })
  match w.path with
  | .early => if stackOf w.a = d then s else { s with forwards := s.forwards ++ [⟨w.id, d, w.a, w.size, w.data, .pending⟩] }
  | .rank r => s.packetFrom t (.put w.id) r (spadCore w.a) w.id false false
  | .own | .global | .outside => s

/-- R164: PUTR number id leaves its NI when it is queued there and need not wait. -/
def State.putLeaves (s : State) (t id : Nat) : State :=
  match (s.thread t).puts.find? (fun w => w.id == id) with
  | some w => if w.stage == .queued && !s.putWaits t w then s.sendPut t w else s
  | none => s

/-- The first put that an NI can send now, with its thread. -/
def State.nextPut (s : State) : Option (Nat × Put) :=
  s.threads.findSome? (fun e => (e.2.puts.find? (fun w => w.stage == .queued && !s.putWaits e.1 w)).map (fun w => (e.1, w)))

/-- The put of a number, with its thread. -/
def State.putOf (s : State) (id : Nat) : Option (Nat × Put) :=
  s.threads.findSome? (fun e => (e.2.puts.find? (fun w => w.id == id)).map (fun w => (e.1, w)))

/-- R164: a sent put of thread t is performed where its path leads; a global or outside one waits for its acknowledgement. -/
def State.performPut (s : State) (t : Nat) (w : Put) : State :=
  let bs := leBytes w.data.toNat w.size
  match w.path with
  | .own | .rank _ => (s.writeBytesAt w.a bs).dropPut t w.id
  | .early =>
    (match s.pageAt w.a with
     | some h => (s.pageStore h w.data.toNat).dropPut t w.id
     | none => ((s.firstWrite (s.partOf t) w.va w.a).writeEarly t w.id w.va w.a bs).modPut t w.id (fun w => { w with stage := .performed }))
  | .global =>
    (match s.pageAt w.a with
     | some h => (s.pageStore h w.data.toNat).dropPut t w.id
     | none => s)
  | .outside => s

/-- R316: a packet's core replays its spill ring first. -/
def State.behindRing (s : State) (k : Packet) : Bool :=
  (s.packets.takeWhile (fun p => p.id != k.id)).any (fun p => p.ring && p.dest == k.dest)

/-- A packet with this cargo has passed its destination's router (R307), and what its core replays has arrived before. -/
def State.ejected (s : State) (c : Cargo) : Bool := s.packets.any (fun k => k.cargo == c && k.ejected && !s.behindRing k)

/-- The packets without those of a cargo. -/
def State.dropCargo (s : State) (c : Cargo) : State := s.keepPackets (fun k => k.cargo != c)


/-! Acknowledgements. -/

/-- The global store of a number on its way to the Basin, with its thread. -/
def State.storeOf (s : State) (id : Nat) : Option (Nat × Store) :=
  s.threads.findSome? (fun e => match e.2.buffer with
    | x :: _ => if x.id = id ∧ x.sent then some (e.1, x) else none
    | [] => none)

/-- The key of a store. -/
def Store.key (x : Store) : Nat :=
  match x.place with
  | .mem a => a
  | .staging _ => 0

/-- R153, R201: the Basin commits a global store of thread t. -/
def State.commitStore (s : State) (t : Nat) (x : Store) : State :=
  if x.committed then s else (s.firstWrite (s.partOf t) x.va x.key).writeGlobal x.key (leBytes x.data.toNat x.size)

/-- R201, R212: number w's hold of the lines that it has written ends. -/
def State.unhold (s : State) (w : Nat) : State := { s with heldLines := s.heldLines.filter (fun h => h.owner != w) }

/-- R201: the sent global store of thread t, the oldest in its buffer, commits at the Basin: reads of its lines are held until its
acknowledgement. -/
def State.arriveStore (s : State) (t : Nat) (x : Store) : State :=
  if x.committed then s
  else ((s.commitStore t x).holdLines x.id x.key x.size).modThread t (fun y =>
    { y with buffer := y.buffer.map (fun b => if b.id = x.id then { b with committed := true } else b) })

/-- The write of a copy command whose number is w and whose acknowledgement is outstanding, with its command (R166). -/
def State.unitOf (s : State) (w : Nat) : Option (Copy × Put) :=
  s.copies.findSome? (fun q => (q.writes.find? (fun x => x.id == w)).map (fun x => (q, x)))

/-- The state with copy command id changed. -/
def State.modCopy (s : State) (id : Nat) (f : Copy → Copy) : State :=
  { s with copies := s.copies.map (fun q => if q.id = id then f q else q) }

/-- The entry of a forward table for a write goes. -/
def State.dropForward (s : State) (w : Nat) : State := { s with forwards := s.forwards.filter (fun f => f.id != w) }

/-- The command without write w: it is performed at PKG, or counts as lost. -/
def Copy.dropWrite (q : Copy) (w : Nat) : Copy := { q with writes := q.writes.filter (fun x => x.id != w) }

/-- R166: the acknowledgement of a command's write has come. -/
def State.unitDone (s : State) (q : Copy) (w : Nat) : State := (s.dropForward w).modCopy q.id (fun q => q.dropWrite w)

/-- A global put or engine write, of an agent of a die, that can commit at the Basin now. -/
def State.globalReady (s : State) (die : Nat) (x : Put) : Bool :=
  x.stage == .sent && x.path == .global && !s.forwardAhead die x.id x.a x.size

/-- R201: the Basin commits a global put of partition p. -/
def State.commitPut (s : State) (p : Nat) (x : Put) : State :=
  (s.firstWrite p x.va x.a).writeGlobal x.a (leBytes x.data.toNat x.size)

/-- R153, R164, R201: GLOBAL_ACK: the acknowledgement of global write w arrives; the write is visible to every agent from
this moment. One that the Basin has not committed commits now. -/
def State.globalAck (s : State) (w : Nat) : State :=
  match s.storeOf w with
  | some (t, x) => ((s.commitStore t x).unhold w).popStore t
  | none =>
    match s.putOf w with
    | some (t, x) =>
      if s.globalReady (dieOf (coreOf t)) x then (s.commitPut (s.partOf t) x).dropPut t w
      else if x.stage = .performed ∧ x.path = .global then (s.unhold w).dropPut t w
      else s
    | none =>
      match s.unitOf w with
      | some (q, x) =>
        if s.globalReady q.die x then (s.commitPut q.part x).unitDone q w
        else if x.stage = .performed ∧ x.path = .global then (s.unhold w).unitDone q w
        else s
      | none => s

/-- R160, R164, R201: an arriving put; a global one commits at the Basin, which holds reads of its lines until its
acknowledgement. -/
def State.arrivePut (s : State) (t : Nat) (w : Put) : State :=
  if w.stage ≠ .sent then s
  else match w.path with
    | .rank _ => if s.ejected (.put w.id) then (s.dropCargo (.put w.id)).performPut t w else s
    | .global =>
      if s.forwardAhead (dieOf (coreOf t)) w.id w.a w.size then s
      else if (s.pageAt w.a).isSome then s.performPut t w
      else ((s.commitPut (s.partOf t) w).holdLines w.id w.a w.size).modPut t w.id (fun x => { x with stage := .performed })
    | _ => if s.forwardAhead (dieOf (coreOf t)) w.id w.a w.size then s else s.performPut t w

/-- R153: GLOBAL_ACK. -/
def execGlobalAck (w : Nat) (s : State) : Result := .next (s.globalAck w)

/-- R164, R166, R213: HOST_FABRIC_ACKNOWLEDGEMENT: the host fabric or a fabric device performs a put, or an engine's write,
and acknowledges it. One whose node has lost its last lane since it was sent may still be performed there; its acknowledgement
is lost (R406). -/
def State.outsideAck (s : State) (w : Nat) : State :=
  match s.putOf w with
  | some (t, x) =>
    let bs := leBytes x.data.toNat x.size
    if x.path ≠ .outside then s
    else if x.stage = .sent then (s.writeBytesAt x.a bs).dropPut t w
    else if x.stage = .lost true then (s.writeBytesAt x.a bs).modPut t w (fun x => { x with stage := .lost false })
    else s
  | none =>
    match s.unitOf w with
    | some (q, x) =>
      if x.stage = .sent ∧ x.path = .outside then (s.writeBytesAt x.a (leBytes x.data.toNat x.size)).unitDone q w else s
    | none => s

/-- R164: HOST_FABRIC_ACKNOWLEDGEMENT. -/
def execHostFabricAcknowledgement (w : Nat) (s : State) : Result := .next (s.outsideAck w)

/-- R153, R362: ACKLOST for an access of thread t, and its error record. -/
def State.ackLost (s : State) (t : Nat) (va : Word) : State :=
  (s.pend t .acklost va 0).reportAt (s.partOf t) ErrPlace.all .acklost va none

/-- 256 µs have passed since a time (R153). -/
def State.ackLate (s : State) (since : Nat) : Bool := decide (since + 256000 ≤ s.now)

/-- R212: a write of an agent of a die whose acknowledgement is lost and which has not committed before: committed, with reads of
its lines held, or absent. One that another write of the die is to precede has not committed (R193). -/
def State.lostWrite (s : State) (die w a : Nat) (bs : List Byte) (committed : Bool) : State :=
  if committed && !s.forwardAhead die w a bs.length then (s.writeGlobal a bs).holdLines w a bs.length else s

/-- R212: a forward entry whose write has lost the acknowledgement of its dirty notice: its die keeps seeing the write until
the line is recalled; one that the Basin's copy covers ends. -/
def State.loseForward (s : State) (w : Nat) : State :=
  { s with forwards := s.forwards.filterMap (fun f =>
      if f.id = w then (if f.stage = .committed then some { f with stage := .lost } else none) else some f) }

/-- The NI no longer holds a put of thread t. -/
def State.forgetPut (s : State) (t id : Nat) : State :=
  s.modThread t (fun x => { x with puts := x.puts.filter (fun w => w.id != id) })

/-- R153, R167, R169: the acknowledgement of a write at `va` is lost: a command whose write it is ends with status ACKLOST, the
thread of another has ACKLOST pending. -/
def State.writeLost (s : State) (w t : Nat) (va : Word) : State :=
  match s.unitOf w with
  | some (q, _) => s.modCopy q.id (fun q => { q.dropWrite w with lost := some (q.lost.getD va) })
  | none => (s.forgetPut t w).ackLost t va

/-- R153, R212: a sent put or engine write x of number w, of thread t on a die: what its lost acknowledgement leaves. One through
rank space is a packet still (R307), or stands in a spill ring and is not lost. -/
def State.putLost (s : State) (die w t : Nat) (x : Put) (committed : Bool) : State :=
  let bs := leBytes x.data.toNat x.size
  match x.path with
  | .global => (s.lostWrite die w x.a bs committed).writeLost w t x.va
  | .outside => (if committed then s.writeBytesAt x.a bs else s).writeLost w t x.va
  | .rank _ =>
    if s.packets.any (fun k => k.cargo == .put w) then
      ((if committed && s.ejected (.put w) then s.writeBytesAt x.a bs else s).dropCargo (.put w)).writeLost w t x.va
    else s
  | .own | .early => s

/-- R153, R212: a write has committed and its acknowledgement is lost: a global one's, or an early one's whose home die no longer
sends its notice (R400). -/
def State.unnoticed (s : State) (w : Nat) (x : Put) : Bool :=
  x.stage == .performed && !s.notices.any (fun n => n.origin == w)

/-- R153, R212: 256 µs without an acknowledgement: a global store or put is removed and a notice no longer waited for;
ACKLOST is pending. `committed` is the hardware's (log entry 2). -/
def State.ackTimeout (s : State) (w : Nat) (committed : Bool) : State :=
  match s.storeOf w with
  | some (t, x) =>
    if s.ackLate x.sentAt then
      ((s.lostWrite (dieOf (coreOf t)) w x.key (leBytes x.data.toNat x.size) (committed && !x.committed)).popStore t).ackLost t x.va
    else s
  | none =>
    match s.notices.find? (fun n => n.id == w) with
    | some n =>
      if s.ackLate n.sentAt then
        ({ s with notices := s.notices.filter (fun m => m.id != w) }.loseForward n.origin).writeLost n.origin n.thread n.va
      else s
    | none =>
      match s.putOf w, s.unitOf w with
      | some (t, x), _ =>
        if !s.ackLate x.sentAt then s
        else match x.stage with
          | .sent => s.putLost (dieOf (coreOf t)) w t x committed
          | .lost reached => s.putLost (dieOf (coreOf t)) w t x (committed && reached)
          | .queued | .performed => if s.unnoticed w x then (s.loseForward w).writeLost w t x.va else s
      | none, some (q, x) =>
        if !s.ackLate x.sentAt then s
        else if x.stage = .sent then s.putLost q.die w q.thread x committed
        else if s.unnoticed w x then (s.loseForward w).writeLost w q.thread x.va
        else s
      | none, none => s

/-- R153, R406: a put of a fabric node without a lane, whose 256 µs have passed. -/
def State.lostDue (s : State) : Option Nat :=
  s.threads.findSome? (fun e => (e.2.puts.find? (fun w => w.stage == .lost false && s.ackLate w.sentAt)).map (·.id))

/-- The response of request w, or the acknowledgement of write w, is still awaited. -/
def State.awaited (s : State) (w : Nat) : Bool :=
  (Sparse.find? s.requests w).isSome || (s.storeOf w).isSome || (s.putOf w).isSome || (s.unitOf w).isSome

/-- R212: a write whose hold of a line ends now: 256 µs have passed and nothing awaits its acknowledgement any more. -/
def State.holdDue (s : State) : Option Nat :=
  (s.heldLines.find? (fun h => s.ackLate h.since && !s.awaited h.owner)).map (·.owner)

/-- R212: BASIN_HOLD_RELEASE: 256 µs after the Basin has sent the acknowledgement of a write that is lost, the reads that it
holds go on; those of an atomic under way wait for its response (R201). -/
def State.holdRelease (s : State) (w : Nat) : State :=
  if s.awaited w then s
  else { s with heldLines := s.heldLines.filter (fun h => h.owner != w || !s.ackLate h.since) }

/-- R212: BASIN_HOLD_RELEASE. -/
def execBasinHoldRelease (w : Nat) (s : State) : Result := .next (s.holdRelease w)

/-! Dirty notices (R203, R207). -/

/-- R203: a dirty notice reaches the Basin. -/
def State.noticeArrives (s : State) (n : Nat) : State :=
  match s.notices.find? (fun m => m.id == n) with
  | some m =>
    { s.coverLine m.line with
      notices := s.notices.map (fun m => if m.id = n then { m with arrived := true } else m)
      noticed := if s.noticed.contains m.line then s.noticed else s.noticed ++ [m.line] }
  | none => s

/-- R203: DIRTY_NOTICE_ARRIVAL. -/
def execDirtyNoticeArrival (n : Nat) (s : State) : Result := .next (s.noticeArrives n)

/-- R207, R202, R210: the acknowledgement of an arrived notice: the early put or engine write it belongs to is performed at
PKG. -/
def State.noticeAck (s : State) (n : Nat) : State :=
  match s.notices.find? (fun m => m.id == n) with
  | some m =>
    if m.arrived then
      let s := { s with notices := s.notices.filter (fun m => m.id != n) }
      match s.unitOf m.origin with
      | some (q, _) => s.unitDone q m.origin
      | none => s.dropPut m.thread m.origin
    else s
  | none => s

/-- R207: DIRTY_NOTICE_ACK. -/
def execDirtyNoticeAck (n : Nat) (s : State) : Result := .next (s.noticeAck n)

/-! Requests (R160 to R163). -/

/-- The state with request r changed. -/
def State.setRequest (s : State) (r : Request) : State := { s with requests := Sparse.set s.requests r.id r }

/-- The die of a request's thread. -/
def Request.die (r : Request) : Nat := dieOf (coreOf r.thread)

/-- R160, R162: the agent lies off the issuing die. -/
def Request.offDie (r : Request) : Bool :=
  match r.agent with
  | .slice d _ => d != r.die
  | .ni c => dieOf c != r.die
  | .basin | .weir | .hostIO | .optical => true

/-- R163: what a GETR reads: a dispatcher page's field (R309, R340), R202 to R204 for another die's window, the coherence point
elsewhere. -/
def State.getrValue (s : State) (r : Request) : Nat :=
  match r.agent, s.pageAt r.a with
  | .basin, none => leValue (s.dieBytes r.die r.a r.size)
  | _, _ => s.loadValue r.a r.size

/-- R163, R348: a GETR at its agent. -/
def State.serveGetr (s : State) (r : Request) : State :=
  if s.poisoned r.a r.size then s.setRequest { r with stage := .faulted }
  else
    let s := s.readySource r.die r.a r.size
    (s.setRequest { r with stage := .executed (word (s.getrValue r)) }).usedFree r.a

/-- R160, R201, R211: the write of an atomic at its agent: early in the own window with G=0, as a scratchpad or outside
write, else global with the line's reads held until the response. -/
def State.atomicWrite (s : State) (r : Request) (new : Nat) : State :=
  let bs := leBytes new r.size
  let s := if isHbm r.a then s.firstWrite (s.partOf r.thread) r.va r.a else s
  match s.pageAt r.a with
  | some h => s.pageStore h new
  | none =>
    match r.agent with
    | .ni _ | .hostIO | .optical | .weir => s.writeBytesAt r.a bs
    | .slice _ _ =>
      if r.g then (s.writeGlobal r.a bs).holdLines r.id r.a r.size else s.writeEarly r.thread r.id r.va r.a bs
    | .basin => (s.writeGlobal r.a bs).holdLines r.id r.a r.size

/-- R162: an atomic at its agent: a number in the window is answered from it, an older one has expired, a fresh one is
applied and kept. -/
def State.serveAtomic (s : State) (r : Request) (op : AmoOp) : State :=
  match s.lookup r.agent r.thread r.num (decide (0 < r.resends)) r.ahead r.first with
  | .stored v => s.setRequest { r with stage := .executed v }
  | .expired => s.setRequest { r with stage := .expired }
  | .fresh =>
    if s.poisoned r.a r.size then s.setRequest { r with stage := .faulted }
    else
      let old := s.loadValue r.a r.size
      let s := s.atomicWrite r (amoNew op r.float r.size old r.b.toNat r.cmp.toNat)
      (s.keepResult r.agent r.thread r.num (word old)).setRequest { r with stage := .executed (word old) }

/-- R202: an atomic to another die's window waits at the Basin until its die's forward table holds nothing of the line. -/
def State.atomicHeldBack (s : State) (r : Request) : Bool := r.op.isSome && r.agent == .basin && s.forwardsLine r.die (lineOf r.a)

/-- R160: a request at its agent; reads of a held line wait (R201), and none reaches a node without a working lane (R406). -/
def State.serve (s : State) (r : Request) : State :=
  if r.stage ≠ .sent ∨ (nodeOf r.a).any (fun n => !s.nodeReached n) ∨ s.lineHeldFor r.id r.a r.size ∨ s.atomicHeldBack r then s
  else if r.rank.isSome ∧ !s.ejected (.request r.id) then s
  else
    let s := s.dropCargo (.request r.id)
    match r.op with
    | none => s.serveGetr r
    | some op => s.serveAtomic r op

/-- R166, R201: an early write of a copy command reaches the home die's L2, and its lines are ones that a release at SYS of the
command's thread writes back; a global one commits at the Basin, which holds reads of its lines. -/
def State.arriveUnit (s : State) (q : Copy) (w : Put) : State :=
  if w.stage ≠ .sent ∨ s.forwardAhead q.die w.id w.a w.size then s
  else
    let performed (s : State) : State :=
      s.modCopy q.id (fun q => { q with writes := q.writes.map (fun x => if x.id = w.id then { x with stage := .performed } else x) })
    match w.path with
    | .early =>
      performed (((s.firstWrite q.part w.va w.a).commitEarly q.thread w.id w.va w.a (leBytes w.data.toNat w.size) true).modThreadFor
        q.part q.thread (fun t => t.wrote w.a))
    | .global => performed ((s.commitPut q.part w).holdLines w.id w.a w.size)
    | .own | .rank _ | .outside => s

/-- R160, R166, R201: REMOTE_ACCESS_REQUEST: an arriving atomic, GETR, PUTR, global store or engine write is performed, or
commits. -/
def State.remoteAccess (s : State) (id : Nat) : State :=
  match Sparse.find? s.requests id with
  | some r => s.serve r
  | none =>
    match s.storeOf id, s.putOf id, s.unitOf id with
    | some (t, x), _, _ => s.arriveStore t x
    | none, some (t, w), _ => s.arrivePut t w
    | none, none, some (q, w) => s.arriveUnit q w
    | none, none, none => s

/-- R160: REMOTE_ACCESS_REQUEST. -/
def execRemoteAccessRequest (r : Nat) (s : State) : Result := .next (s.remoteAccess r)

/-- The request ends and its thread holds the reply. -/
def State.reply (s : State) (r : Request) (v : Reply) : State :=
  { s with
    requests := Sparse.erase s.requests r.id
    heldLines := s.heldLines.filter (fun h => h.owner != r.id) }.modThread r.thread (fun t => { t with reply := some v })

/-- R162, R188: REMOTE_RESPONSE: the response reaches the thread. -/
def State.respond (s : State) (id : Nat) : State :=
  match Sparse.find? s.requests id with
  | none => s
  | some r =>
    match r.stage with
    | .sent => s
    | .executed v => s.reply r (.value v)
    | .expired => s.reply r (.retryexp r.va (r.num.setWidth 64))
    | .dropped => s.reply r .dropped
    | .faulted => s.reply r (.fault r.va)

/-- R162: REMOTE_RESPONSE. -/
def execRemoteResponse (r : Nat) (s : State) : Result := .next (s.respond r)

/-- R162: a request to another die still waits for its response. -/
def Request.resends? (r : Request) : Bool :=
  r.offDie && (match r.stage with
    | .sent | .executed _ => true
    | .expired | .dropped | .faulted => false)

/-- R162: a request whose next send, or whose RETRYEXP after four, is due. -/
def State.resendDue (s : State) : Option Nat :=
  s.requests.findSome? (fun e => if e.2.resends? && decide (e.2.lastSend + 200000 ≤ s.now) then some e.1 else none)

/-- R162: REQUEST_RESEND: 200 µs after the last send without a response, the request goes out again, at most four times;
then RETRYEXP. -/
def State.resend (s : State) (id : Nat) : State :=
  match Sparse.find? s.requests id with
  | none => s
  | some r =>
    if !r.resends? || decide (s.now < r.lastSend + 200000) then s
    else if 4 ≤ r.resends then (s.dropCargo (.request r.id)).reply r (.retryexp r.va (r.num.setWidth 64))
    else
      let r' := { r with resends := r.resends + 1, lastSend := s.now, stage := .sent }
      let s := (s.dropCargo (.request r.id)).setRequest r'
      match r.rank with
      | some rank => s.packetFrom r.thread (.request r.id) rank (spadCore r.a) r.id false false
      | none => s

/-- R162: REQUEST_RESEND. -/
def execRequestResend (r : Nat) (s : State) : Result := .next (s.resend r)

/-- R203, R201: FABRIC_DEVICE_ACCESS: a fabric device reads or writes n bytes at an offset of a die's window; what it reads
is held for the observer. -/
def State.fabricAccess (s : State) (write : Bool) (die off n : Nat) (data : List Byte) : State :=
  let a := die % 8 * 2^36 + off % 2^36
  if (s.lineHeld a (max n 1)).isSome then s
  else if write then (s.imageAny a).writeGlobal a (data.take n)
  else
    let s := s.recallNoticed a n
    { s with hostReply := some (s.basinBytes a n) }

/-- R203: FABRIC_DEVICE_ACCESS. -/
def execFabricDeviceAccess (write : Bool) (die va n : Nat) (data : List Byte) (s : State) : Result :=
  .next (s.fabricAccess write die va n data)

end Sys2Proof.Machine
end

