-- ==== Sys2Proof/Machine/Network.lean ====
section
/-!
DEFINITION. Packets at the routers and the receiving NIs (R38, R39, R144, R145, R173, R307, R319, R378).
-/
namespace Sys2Proof.Machine

/-- A waiting thread is READY again; its word executes once more and finds the wait `w` over (R19). -/
def State.resume (s : State) (t : Nat) (w : Wait) : State :=
  s.modThread t (fun x => { x with status := .ready, woke := some w })

/-- The packet of a number. -/
def State.packetOf (s : State) (k : Nat) : Option Packet := s.packets.find? (fun p => p.id == k)

/-- The packets without one. -/
def State.dropPacket (s : State) (k : Nat) : State := { s with packets := s.packets.filter (fun p => p.id != k) }

/-! Ejection. -/

/-- R38: an earlier message of the same stream has not arrived. -/
def State.behindEarlier (s : State) (k : Packet) : Bool :=
  match k.cargo.channel with
  | none => false
  | some ch => s.packets.any (fun p => decide (p.id < k.id) && p.pkg == k.pkg && p.source == k.source && p.rank == k.rank
      && p.tag == k.tag && p.cargo.channel == some ch)

/-- R171: the NI has sent the packet: what is a release waits for its thread's earlier accesses. -/
def State.packetSent (s : State) (k : Packet) : Bool := !k.release || s.performedBefore k.source k.stamp .pkg

/-- The kind of a packet in a drop record (R307). The spec gives the kinds no codes: these are the model's (DESIGN CHOICE, log
entry 89). -/
def Cargo.kind : Cargo → Nat
  | .message _ _ => 0
  | .wake _ => 1
  | .request _ => 2
  | .put _ => 3

/-- R307, R171, R188: the sender learns of a drop: TAG is pending, a request's wait ends and a put leaves the NI. -/
def State.returnTag (s : State) (k : Packet) : State :=
  match k.cargo with
  | .message _ _ | .wake _ =>
    if s.sentHere k then s.modThreadFor k.tag k.source (fun x => x.pend .tag 0 (word k.rank)) else s
  | .request id =>
    (match Sparse.find? s.requests id with
     | some r => (s.setRequest { r with stage := .dropped }).pend k.source .tag r.va (word k.rank)
     | none => s)
  | .put id =>
    (match s.putOf id with
     | some (t, w) => (s.dropPut t id).pend k.source .tag w.va (word k.rank)
     | none => s)

/-- R362: the virtual address that a packet carries, 0 where it carries none. -/
def State.cargoAddress (s : State) : Cargo → Word
  | .message _ _ | .wake _ => 0
  | .request id =>
    (match Sparse.find? s.requests id with
     | some r => r.va
     | none => 0)
  | .put id =>
    (match s.putOf id with
     | some (_, w) => w.va
     | none => 0)

/-- R307, R362: a packet whose tag is not its destination's is dropped, logged and returned. -/
def State.dropForTag (s : State) (k : Packet) : State :=
  let c := k.dest
  let s := s.dropPacket k.id
  let s := { s with dropLog := (s.tagKey c, k.tag, s.tagOf c, k.cargo.kind) :: s.dropLog }
  (s.report [.router] [.tagDrop] (some (dieOf c)) k.tag (some (s.physicalOf c)) (s.cargoAddress k.cargo) none).returnTag k

/-- R319: the saved context of a core for a tag takes a packet into its spill ring, when it has room. -/
def State.spill (s : State) (k : Packet) (ring : List Packet) : State :=
  if 1024 ≤ ring.length then s
  else (s.dropPacket k.id).modSaved k.tag k.dest (fun v => { v with ring := v.ring ++ [k] })

/-- R39, R40: what a message that its NI held does when its entry is VALID again and its request is at the head of its
channel's: it takes a free credit. -/
def State.takeCredit (s : State) (k : Packet) (ch : Nat) : State :=
  match s.channelFor k.tag k.dest ch with
  | some q =>
    if q.asking.head? = some (.packet k.id) ∧ 0 < q.free then
      { s.modChannelFor k.tag k.dest ch (fun q => { q with promised := q.promised + 1, asking := q.asking.tail }) with
        packets := s.packets.map (fun p => if p.id = k.id then { p with credit := true } else p) }
    else s
  | none => s

/-- R39: a message whose NI held it still asks for its credit. -/
def State.asks (s : State) (k : Packet) : Bool :=
  match k.cargo with
  | .message ch _ =>
    (match s.channelFor k.tag k.dest ch with
     | some q => q.asking.contains (.packet k.id)
     | none => false)
  | .wake _ | .request _ | .put _ => false

/-- R307: a router ejects a packet: into the spill ring while its core holds a saved context of its tag (R319), to its core when
the tags agree, else it is dropped. One for an entry IN TRANSIT is held (R40); new packets follow what a resumed core
replays (R316). -/
def State.eject (s : State) (id : Nat) : State :=
  match s.packetOf id with
  | none => s
  | some k =>
    if k.ejected || k.held || s.asks k || !s.packetSent k || s.behindEarlier k || s.behindRing k then s
    else match s.savedFor k.tag k.dest with
      | some v => s.spill k v.ring
      | none =>
        if s.tagOf k.dest = k.tag then
          { s with packets := s.packets.map (fun p => if p.id = id then { p with ejected := true } else p) }
        else s.dropForTag k

/-- R307: PACKET_EJECTION. -/
def execPacketEjection (k : Nat) (s : State) : Result := .next (s.eject k)

/-! Messages and wakes. -/

/-- R377, R378: a spore has started and the package has not cut yet. -/
def Spore.beforeCut (sp : Spore) : Bool :=
  sp.started && (match sp.state with
    | .capture | .sealing => false
    | .idle | .armed | .committed | .failed => true)

/-- R378: the packet came after its sender's marker of the epoch under way, and the package has not cut yet: it is held. -/
def State.heldForCut (s : State) (k : Packet) : Bool :=
  let sp := (s.part k.tag).spore
  sp.beforeCut && k.cut == sp.epoch

/-- R378: an arrival at core c is logged: the core has cut and the packet was sent before its sender's cut. The 1025th
record of a core fails the spore. -/
def State.logArrival (s : State) (c : Nat) (k : Packet) (wake : Bool) (ch : Nat) (entry : List Byte) : State :=
  let sp := (s.part k.tag).spore
  if sp.state ≠ .capture ∨ k.uncut sp = false then s
  else
    let rank := (s.coreAt c).rank
    let n := (sp.log.filter (fun r => r.receiver == rank)).length
    if 1024 ≤ n then s.failSpore k.tag 1
    else s.modSpore k.tag (fun sp => { sp with log := sp.log ++ [⟨rank, wake, ch, k.pkg, n, entry⟩] })

/-- R36: the 64 bytes of a queue entry. -/
def Message.entry (m : Message) : List Byte := leBytes m.header.toNat 8 ++ m.payload

/-- R37, R173: a channel takes a message: the longest-waiting RECV claims it, or it joins the queue. -/
def Channel.put (q : Channel) (m : Message) : Channel :=
  match q.waiting with
  | t :: r => { q with waiting := r, claimed := q.claimed ++ [(t, m)] }
  | [] => { q with queue := q.queue ++ [m] }

/-- R39, R173: the same for a message in flight, whose promised credit the entry now takes. -/
def Channel.arrive (q : Channel) (m : Message) (credit : Bool) : Channel := (if credit then q.unpromise else q).put m

/-- R307, R316: an ejected packet reaches its core now: the core's tag is its own, what the core replays has gone before, and
the core's own context is there. -/
def State.reaches (s : State) (k : Packet) : Bool :=
  k.ejected && !s.behindRing k && s.tagOf k.dest == k.tag && !s.away k.tag k.dest

/-- R173: a message is written into its channel queue. -/
def State.messageArrives (s : State) (id : Nat) : State :=
  match s.packetOf id with
  | none => s
  | some k =>
    match k.cargo with
    | .message ch m =>
      if s.reaches k && !s.behindEarlier k && !s.heldForCut k then
        ((s.dropPacket id).modChannel k.dest ch (fun q => q.arrive m k.credit)).logArrival k.dest k false ch m.entry
      else s
    | .wake _ | .request _ | .put _ => s

/-- R173: MESSAGE_ARRIVAL. -/
def execMessageArrival (k : Nat) (s : State) : Result := .next (s.messageArrives k)

/-- R144: a wake reaches its thread. -/
def State.wakeArrives (s : State) (id : Nat) : State :=
  match s.packetOf id with
  | none => s
  | some k =>
    match k.cargo with
    | .wake h =>
      if s.reaches k && !s.heldForCut k then
        ((s.dropPacket id).wakeThread (4 * k.dest + h)).logArrival k.dest k true h []
      else s
    | .message _ _ | .request _ | .put _ => s

/-- R144: WAKE_DELIVERY. -/
def execWakeDelivery (k : Nat) (s : State) : Result := .next (s.wakeArrives k)

/-- R378, R383: a message or wake from core `source / 4` of another package of the job comes in on the links; whether its sender
had cut is what the arrival of that sender's marker tells (R377). Its sender has obtained a credit (R39). -/
def State.fromPeer (s : State) (p pkg source rank : Nat) (cargo : Cargo) : State :=
  let sp := (s.part p).spore
  let enters (c : Nat) (credit : Bool) (s : State) : State :=
    let after := sp.markers.contains (pkg, coreOf source, c)
    let cut := if !after then 0 else if sp.beforeCut then sp.epoch else sp.cuts
    { s with
      packets := s.packets ++ [⟨s.nextId, cargo, source, rank, c, p, s.nextId, false, false, credit, false, false, false, cut,
        pkg⟩]
      nextId := s.nextId + 1 }
  match s.rankCore p rank, cargo with
  | some c, .message ch _ =>
    (match s.channelFor p c ch with
     | some q =>
       if 0 < q.free ∧ q.asking.isEmpty then
         enters c true (s.modChannelFor p c ch (fun q => { q with promised := q.promised + 1 }))
       else s
     | none => s)
  | some c, .wake _ => enters c false s
  | _, _ => s

/-! Credits. -/

/-- R39: the channel with a free credit granted to thread t, which asked first. -/
def Channel.grant (q : Channel) (t : Nat) : Channel :=
  { q with asking := q.asking.tail, granted := q.granted ++ [t], promised := q.promised + 1 }

/-- R29, R39: the thread whose SEND asks first obtains its credit, and its message counts in its slot row. One that its row does
not take any more executes again, which raises SLOT. -/
def State.grantThread (s : State) (p c ch t : Nat) : State :=
  match (s.thread t).status with
  | .blocked (.credit c' ch' rank len row) _ =>
    (match s.countSend t rank ch len row with
     | some s => s.modChannelFor p c ch (fun q => q.grant t)
     | none =>
       (s.modChannelFor p c ch (fun q => { q with asking := q.asking.tail })).resume t (.credit c' ch' rank len row))
  | _ => s.modChannelFor p c ch (fun q => q.grant t)

/-- R39, R40: channel ch of core c, as partition p holds it, grants a free credit to what asked first. -/
def State.grantIn (s : State) (p c ch : Nat) (q : Channel) : State :=
  if q.free = 0 then s
  else match q.asking with
    | [] => s
    | .thread t :: _ => s.grantThread p c ch t
    | .packet k :: _ =>
      match s.packetOf k with
      | some k => s.takeCredit k ch
      | none => s.modChannelFor p c ch (fun q => { q with asking := q.asking.tail })

/-- R39: channel ch of core c, as its tag's partition and as those with a saved context of it hold it, grants a credit. -/
def State.grantCredit (s : State) (c ch : Nat) : State :=
  ((s.tagOf c :: (s.saved.filter (fun v => v.snapshot.core == c)).map (·.tag)).eraseDups).foldl (fun s p =>
    match s.channelFor p c ch with
    | some q => s.grantIn p c ch q
    | none => s) s

/-- R39: CREDIT_GRANT. -/
def execCreditGrant (c ch : Nat) (s : State) : Result := .next (s.grantCredit c ch)

/-- R39: the slot window of a send that waits for a credit has closed: it leaves the line of requests and executes again,
which raises SLOT. -/
def State.windowCloses (s : State) (t : Nat) : State :=
  match (s.thread t).status with
  | .blocked (.credit c ch rank len (some i)) _ =>
    let k := s.coreAt (coreOf t)
    let p := s.partOf t
    if k.comm && !k.counted t && (s.channelFor p c ch).any (fun q => q.asking.contains (.thread t))
        && !(k.rows[i]?).any (fun r => r.inWindow rank ch k.phaseCyc) then
      (s.modChannelFor p c ch (fun q => { q with asking := q.asking.filter (· != .thread t) })).resume t
        (.credit c ch rank len (some i))
    else s
  | _ => s

/-- R39: SLOT_WINDOW_CLOSE. -/
def execSlotWindowClose (t : Nat) (s : State) : Result := .next (s.windowCloses t)

/-- R145: the cycle limit of a sleep has passed. -/
def State.sleepEnds (s : State) (t : Nat) : State :=
  match (s.thread t).status with
  | .blocked (.sleep (some n)) _ => if n ≤ (s.coreAt (coreOf t)).cycle then s.resume t (.sleep (some n)) else s
  | _ => s

/-- R145: TSLEEP_TIMEOUT. -/
def execTsleepTimeout (t : Nat) (s : State) : Result := .next (s.sleepEnds t)

/-- R19: INSTRUCTION_FETCH_RETURN: the bundle that thread t waits for has arrived. -/
def State.fetchReturns (s : State) (t : Nat) : State :=
  match (s.thread t).status with
  | .blocked .fetch _ => s.resume t .fetch
  | _ => s

/-- R19: INSTRUCTION_FETCH_RETURN. -/
def execInstructionFetchReturn (t : Nat) (s : State) : Result := .next (s.fetchReturns t)

end Sys2Proof.Machine
end

