-- ==== Sys2Proof/Machine/Generation.lean ====
section
/-!
DEFINITION. The completion of a barrier generation (R30 to R35): the phase flip (R28), the step log (R353), the hold at a
slice end or a resize (R314, R320) and the spore cut (R370 to R373).
-/
namespace Sys2Proof.Machine

/-! What completes. -/

/-- The domains that complete together: one, or at package level every domain of the partition with that Weir barrier
(R32). -/
def State.completing (s : State) (k : Nat) : List Nat :=
  let d := s.domain k
  if d.level = 3 then (s.sharing d.part d.weir).map (·.1) else [k]

/-- The members of the domains of a list. -/
def State.membersOf (s : State) (ks : List Nat) : List Nat := ks.flatMap (fun k => (s.domain k).members k)

/-- The cores of a list of threads, each once. -/
def coresOf (ts : List Nat) : List Nat := (ts.map coreOf).eraseDups

/-- R31: the arrivals of the open generation suffice. -/
def State.arrivedAll (s : State) (k : Nat) : Bool :=
  let d := s.domain k
  match d.level with
  | 0 => false
  | 3 => let b := s.weirBar (s.weirOf d); decide (0 < b.count) && decide (b.count ≤ b.arrived)
  | _ => let ms := d.members k; !ms.isEmpty && ms.all (fun t => d.arrived.contains t)

/-- R28: the domains among those that complete that are launch l's step domain, on the dies on which it has started. -/
def State.stepKeys (s : State) (ks : List Nat) (l : Launch) : List Nat :=
  ks.filter (fun k => l.stepDomain == some (k % 16) && l.installed.contains (k / 16) && (s.domain k).part == some l.part)

/-- R28: the launches whose step domain completes. -/
def State.stepLaunches (s : State) (ks : List Nat) : List Launch :=
  (s.launches.map (·.2)).filter (fun l => !(s.stepKeys ks l).isEmpty)

/-- R28: the cores that hold a member of a launch's step domain, each with its partition. -/
def State.stepCores (s : State) (ks : List Nat) (l : Launch) : List Nat := coresOf (s.membersOf (s.stepKeys ks l))

/-- R28: the core of partition p is in its communication phase, where its state lives. -/
def State.commFor (s : State) (p c : Nat) : Bool := (s.coreFor p c).any (·.comm)

/-- R30: a message sent in the communication phase from one of the cores has not been written into its queue. -/
def State.phaseTraffic (s : State) (p : Nat) (cs : List Nat) : Bool :=
  (s.packets ++ s.saved.flatMap (·.ring)).any (fun k =>
    k.phase && k.tag == p && s.sentHere k && k.cargo.channel.isSome && cs.contains (coreOf k.source))

/-- R353: a member has vector entries, MXU commands or copy commands that have not retired. -/
def State.membersBusy (s : State) (p : Nat) (ms : List Nat) : Bool :=
  ms.any (fun t => (s.coreFor p (coreOf t)).any (fun k => k.vqueue.any (fun q => q.thread == t) || k.mxqueue.any (fun q => q.thread == t))
    || s.copies.any (fun q => q.thread == t && q.part == p))

/-- R372: a core of the cut domain has not finished its capture. -/
def State.captureWaits (s : State) (k : Nat) (cs : List Nat) : Bool :=
  let d := s.domain k
  let sp := (s.part (d.part.getD 63)).spore
  sp.launch.isSome && sp.launch == d.launch && sp.domain == k % 16 && sp.capturing.any (fun c => cs.contains c)

/-- The completion closes a communication phase of launch l (R30). -/
def State.closesFor (s : State) (ks : List Nat) (l : Launch) : Bool := (s.stepCores ks l).any (fun c => s.commFor l.part c)

/-- R370: a domain among those that complete is the cut domain of its partition's spore, which is ARMED for its launch; where
the launch names a step domain the completion also closes a communication phase. -/
def State.cutsAt (s : State) (ks : List Nat) (k : Nat) : Option (Nat × Launch) :=
  let d := s.domain k
  match d.part with
  | none => none
  | some p =>
    let sp := (s.part p).spore
    if sp.state = .armed ∧ d.level = 3 ∧ sp.domain = k % 16 ∧ sp.launch.isSome ∧ sp.launch = d.launch then
      match d.launch.bind (fun l => Sparse.find? s.launches l) with
      | some l => if l.stepDomain.isNone || s.closesFor ks l then some (p, l) else none
      | none => none
    else none

/-- R370: the spore that is cut at a completion, with its launch and the generation's number. -/
def State.cuts (s : State) (ks : List Nat) : Option (Nat × Launch × Nat) :=
  ks.findSome? (fun k => (s.cutsAt ks k).map (fun e => (e.1, e.2, (s.domain k).gen)))

/-- R30, R353, R371: a launch whose communication phase closes, or whose spore is cut, has messages or members' commands under
way. -/
def State.completionHeld (s : State) (ks : List Nat) : Bool :=
  (s.stepLaunches ks).any (fun l => s.closesFor ks l &&
      (s.phaseTraffic l.part (s.stepCores ks l) || s.membersBusy l.part (s.membersOf (s.stepKeys ks l))))
    || (match s.cuts ks with
      | some (p, l, _) => s.membersBusy p l.members
      | none => false)

/-- R30, R31, R353, R372: the open generation of domain k completes now. -/
def State.generationReady (s : State) (k : Nat) : Bool :=
  let ks := s.completing k
  s.arrivedAll k && !s.completionHeld ks && !ks.any (fun j => s.captureWaits j (coresOf (s.membersOf ks)))

/-! The phase (R28, R301, R305). -/

/-- R28, R301, R305: a core's phase flips; a communication phase opens with fresh row counts and a table written for it. -/
def Core.flip (k : Core) : Core :=
  let k := { k with comm := !k.comm, phaseStart := k.cycle }
  if k.comm then
    let k := match k.slotNext with
      | some (a, rows) => { k with slotBase := a, rows := rows, slotNext := none }
      | none => k
    { k with slotCur := none, slotHeld := [], rows := k.rows.map (fun r => { r with sent := 0 }) }
  else { k with slotHeld := [] }

/-- Flips the cores of a list, where partition p's state of them lives. -/
def State.flipAll (s : State) (p : Nat) (cs : List Nat) : State := cs.foldl (fun s c => s.modCoreFor p c Core.flip) s

/-! The step log and the capture (R353, R371). -/

/-- A core's state with the threads of a list and its scratchpad. -/
def State.snapshot (s : State) (c : Nat) (ts : List Nat) : Snapshot :=
  ⟨c, s.coreAt c, (ts.filter (fun t => coreOf t == c)).map (fun t => (t, s.thread t)), Memory.slice s.mem (spadKey c 0) (2^20),
    s.poison.filter (fun a => isSpad a && spadCore a == c)⟩

/-- The same for a core of partition p, where its state lives. -/
def State.snapshotFor (s : State) (p c : Nat) (ts : List Nat) : Snapshot :=
  match s.savedFor p c with
  | some v => { v.snapshot with threads := v.snapshot.threads.filter (fun e => ts.contains e.1) }
  | none => s.snapshot c ts

/-- R353: a member whose BAR or STEP at domain number n has completed is about to leave it. -/
def State.leaving (s : State) (n : Nat) (x : Thread) : Thread :=
  match x.status with
  | .blocked (.barrier k g) _ =>
    if k % 16 = n ∧ g < (s.domain k).gen then { x with status := .ready, woke := some (.barrier k g) } else x
  | _ => x

/-- R353, R371: a core's state at the completion of domain number n. Its members' words are retired at once
(`State.retireLogs`). -/
def State.boundary (s : State) (p c : Nat) (ts : List Nat) (n : Nat) : Snapshot :=
  let g := s.snapshotFor p c ts
  { g with threads := g.threads.map (fun e => (e.1, s.leaving n e.2)) }

/-- R353: log blocks of partition p's cores count as unwritten from now on. -/
def State.forgetBlocks (s : State) (p : Nat) (cs : List Nat) : State :=
  { s with
    blocks := s.blocks.filter (fun b => !(cs.contains (spadCore (256 * b)) && !s.away p (spadCore (256 * b))))
    saved := s.saved.map (fun v => if v.tag = p ∧ cs.contains v.snapshot.core then { v with blocks := [] } else v) }

/-- R353: each gang core opens a step log; log blocks and accumulators count as unwritten from now on. The superstep has not
been rolled back yet. -/
def State.openLog (s : State) (l : Launch) : State :=
  let cs := coresOf l.members
  let s := cs.foldl (fun s c => s.modCoreFor l.part c (fun k => { k with accsWritten := [] })) (s.forgetBlocks l.part cs)
  (s.setLaunch { l with log := cs.map (fun c => s.boundary l.part c l.members (l.stepDomain.getD 16)), rollbacks := 0 }).modSpore l.part (fun sp =>
    if sp.launch = some l.id then { sp with boundary := false } else sp)

/-- R314, R320: after a slice end, or with a resize asked for, the members are held in STEP. -/
def State.holdMembers (s : State) (id : Nat) : State :=
  match Sparse.find? s.launches id with
  | some l =>
    let q := s.part l.part
    if q.sliceEnded.isSome || q.resize.isSome then s.setLaunch { l with held := true } else s
  | none => s

/-- The next index that a launch hands out (R381). -/
def Launch.nextIndex (l : Launch) : Nat := if l.block.1 < l.block.2 then l.block.1 else l.counter

/-- R384: the Weir records of a partition's allotment. -/
def State.weirRecordsOf (s : State) (p : Nat) : List (List Byte) :=
  let q := s.part p
  let rec' (kind i v : Nat) : List Byte := leBytes (kind + i * 2^16) 4 ++ leBytes 0 4 ++ leBytes v 8
  ((List.range q.counters.2).map (fun i => rec' 0 i (Sparse.get s.counters (q.counters.1 + i) 0).toNat)) ++
    ((List.range q.semaphores.2).map (fun i => rec' 1 i (Sparse.get s.sems (q.semaphores.1 + i) ⟨0, [], []⟩).value))

/-- R370, R371, R373: the spore's cut: the package enters CAPTURE, core state is taken and the captured pages are held. -/
def State.cut (s : State) (p : Nat) (l : Launch) (gen : Nat) : State :=
  let cs := coresOf l.members
  let pages := s.capturedPages p (s.part p).spore
  let s := s.forgetBlocks p cs
  let s := s.modSpore p (fun sp => { sp with
    state := .capture
    cuts := sp.epoch
    boundary := l.stepDomain.isSome
    cutGen := gen
    cutTime := s.now
    nextIndex := l.nextIndex
    halted := l.halted
    used := 0
    pages := pages
    snaps := cs.map (fun c => s.boundary p c l.members sp.domain)
    capturing := cs
    blocks := []
    log := []
    weirRecords := s.weirRecordsOf p
    ready := false })
  s.holdLeaves (heldLeaves pages)

/-! Completion. -/

/-- R35: a domain's generation is complete; its members leave, and the arrivals of the next one are its own. -/
def Domain.next (d : Domain) : Domain :=
  { d with
    gen := d.gen + 1
    arrived := (d.early.filter (fun e => e.1 == d.gen + 1)).map (·.2)
    early := d.early.filter (fun e => e.1 != d.gen + 1) }

/-- R31: the generations of domains complete, with the Weir barrier of package-level ones. -/
def State.advance (s : State) (k : Nat) (ks : List Nat) : State :=
  let d := s.domain k
  let s := ks.foldl (fun s j => s.setDomain j (s.domain j).next) s
  if d.level = 3 then
    let b := s.weirOf d
    let w := { s.weirBar b with arrived := s.arrivals d.part d.weir, gen := (s.weirBar b).gen + 1 }
    { s with weirBars := Sparse.set s.weirBars b w }
  else s

/-- R314, R353: the communication phase of a launch closes: a superstep boundary, whose step log opens and at which the members
can be held. -/
def State.closePhase (s : State) (l : Launch) : State := (s.openLog l).holdMembers l.id

/-- The communication phases of a list of launches close. -/
def State.closePhases (s : State) : List Launch → State
  | [] => s
  | l :: r => (s.closePhase l).closePhases r

/-- R28: the cores whose phase flips: those that hold a member of a launch's step domain, each once. -/
def State.flipping (s : State) (ks : List Nat) : List Nat :=
  ((s.stepLaunches ks).flatMap (fun l => s.stepCores ks l)).eraseDups

/-- R31: the open generation of domain k completes. -/
def State.complete (s : State) (k : Nat) : State :=
  if !s.generationReady k then s
  else
    let ks := s.completing k
    let cs := s.flipping ks
    let closing := (s.stepLaunches ks).filter (fun l => s.closesFor ks l)
    let cutting := s.cuts ks
    let s := ((s.advance k ks).flipAll ((s.domain k).part.getD 63) cs).closePhases closing
    match cutting with
    | some (p, l, gen) => s.cut p ((Sparse.find? s.launches l.id).getD l) gen
    | none => s

/-- R31: GENERATION_COMPLETE for domain dom of die d. -/
def execGenerationComplete (d dom : Nat) (s : State) : Result := .next (s.complete (domainKey d dom))

end Sys2Proof.Machine
end

