-- ==== Sys2Proof/Machine/CopyEngine.lean ====
section
/-!
DEFINITION. The copy engines (R166 to R169, R324, R325, R345), with the other end of a lost acknowledgement (R153, R406).
-/
namespace Sys2Proof.Machine

/-! Starting a command (R324, R325). -/

/-- R325: partition p has a unit of its copy budget on die d, or no limit. -/
def State.hasBudget (s : State) (p d : Nat) : Bool := (s.part p).refill == 0 || decide (0 < Sparse.get (s.part p).budget d 0)

/-- R325: a unit is taken. -/
def State.takeBudget (s : State) (p d : Nat) : State :=
  if (s.part p).refill = 0 then s
  else s.modPart p (fun q => { q with budget := Sparse.set q.budget d (Sparse.get q.budget d 0 - 1) })

/-- R324: a ranks above b: partition priority, then age. -/
def State.copyAbove (s : State) (a b : Copy) : Bool :=
  let pa := (s.part a.part).priority
  let pb := (s.part b.part).priority
  decide (pb < pa) || (pa == pb && decide (a.id < b.id))

/-- The highest-ranked of a list of commands (R324). -/
def State.topCopy (s : State) : List Copy → Option Copy
  | [] => none
  | a :: r =>
    match s.topCopy r with
    | none => some a
    | some b => if s.copyAbove b a then some b else some a

/-- R324, R325: a free engine of die d takes the waiting command that ranks highest of those that find a unit. -/
def State.startCopy (s : State) (d : Nat) : State :=
  if 8 ≤ (s.copies.filter (fun q => q.die == d && q.running)).length then s
  else match s.topCopy (s.copies.filter (fun q => q.die == d && !q.running && s.hasBudget q.part d)) with
    | none => s
    | some q => (s.takeBudget q.part d).modCopy q.id (fun q => { q with running := true, begun := true })

/-- R324: COPY_COMMAND_START. -/
def execCopyCommandStart (d : Nat) (s : State) : Result := .next (s.startCopy d)

/-- R325: the periods of 100 µs that have passed since partition p's budget on die d was last refilled. -/
def State.refillPeriods (s : State) (p d : Nat) : Nat := (s.now - Sparse.get (s.part p).refilled d 0) / 100000

/-- R325: COPY_BUDGET_REFILL: every 100 µs the device adds REFILL units, up to four times REFILL; the refills of all the periods
that have passed are added. -/
def State.refillBudget (s : State) (p d : Nat) : State :=
  if s.refillPeriods p d = 0 then s
  else
    s.modPart p (fun q => { q with
      budget := Sparse.set q.budget d (min (Sparse.get q.budget d 0 + s.refillPeriods p d * q.refill) (4 * q.refill))
      refilled := Sparse.set q.refilled d (s.now / 100000 * 100000) })

/-- R325: a partition and a die at which a refill is due. -/
def State.refillDue (s : State) : Option (Nat × Nat) :=
  s.parts.findSome? (fun e =>
    if e.2.refill = 0 then none
    else ((List.range 8).find? (fun d => s.refillPeriods e.1 d != 0)).map (fun d => (e.1, d)))

/-- R325: what has been due at every die until now, at the REFILL in force until now. -/
def State.refillAll (s : State) (p : Nat) : State := (List.range 8).foldl (fun s d => s.refillBudget p d) s

/-- R325: COPY_BUDGET_REFILL. -/
def execCopyBudgetRefill (p d : Nat) (s : State) : Result := .next (s.refillBudget p d)

/-! Where a byte lies. -/

/-- Where one end of a copy lies: a scratchpad, or a host address. -/
inductive CopyEnd where
  | spad (c off : Nat)
  | host (a : Nat)
  deriving DecidableEq, Repr

/-- R169, R345: the completion status of a cause. -/
def copyStatus : Cause → Nat
  | .page1 => 1 | .page2 => 2 | .spore => 8 | .ue => 6 | _ => 3

/-- What an address of a command comes to: a place, with the pages that the command has entered, a wait, or the status that
ends it (R167). -/
inductive CopyPlace where
  | at (e : CopyEnd) (pages : List EnteredPage)
  | waits
  | ends (status : Nat)
  deriving DecidableEq, Repr

/-- R318, R319: a scratchpad of the command's partition on core c: one that is saved is reached when the core resumes; a core
that left the partition is another tag's (R307). -/
def State.copySpad (s : State) (q : Copy) (pages : List EnteredPage) (c off : Nat) : CopyPlace :=
  if s.away q.part c then .waits else if s.tagOf c = q.part then .at (.spad c off) pages else .ends 4

/-- R167, R337, R339: a home address of a command: by the page it has entered, or translated where it enters another one. -/
def State.copyHome (s : State) (q : Copy) (pages : List EnteredPage) (va : Word) (w : Nat) (writes : Bool) : CopyPlace :=
  let base := va.toNat / 65536 * 65536
  match pages.find? (fun e => e.va == base) with
  | some e => .at (.host (e.a + va.toNat % 65536)) pages
  | none =>
    match s.walk q.part va (if writes then .store else .load) q.supervisor w with
    | .ok k => .at (.host k.a) (⟨base, k.a - va.toNat % 65536, k.leaf, k.entry⟩ :: pages)
    | .error tr => .ends (copyStatus tr.cause)

/-- R167, R345: where an address of a command leads. A rank whose entry became INVALID has ceased to exist (R169). -/
def State.copyTarget (s : State) (q : Copy) (pages : List EnteredPage) (va : Word) (writes : Bool) : CopyPlace :=
  match classify va with
  | .spad off => s.copySpad q pages (coreOf q.thread) off
  | .rank r off =>
    (match Sparse.get (s.part q.part).ranks r .invalid with
     | .valid c => s.copySpad q pages c off
     | .inTransit _ => .waits
     | .invalid => .ends 7)
  | .home w => s.copyHome q pages va w writes
  | .slot _ | .refused => .ends 3

/-- The address of the source and of the destination byte at an offset. -/
def Copy.sourceAt (q : Copy) (k : Nat) : Word := (if q.put then q.loc else q.rem) + word k
def Copy.destAt (q : Copy) (k : Nat) : Word := (if q.put then q.rem else q.loc) + word k

/-- The address of the next source and of the next destination byte. -/
def Copy.source (q : Copy) : Word := q.sourceAt q.done
def Copy.dest (q : Copy) : Word := q.destAt q.done

/-- Where the destination byte at an offset lies. -/
def State.copyDest (s : State) (q : Copy) (k : Nat) : CopyPlace := s.copyTarget q q.dests (q.destAt k) true

/-! Reading. -/

/-- How an event of a command ends: it goes on, waits, is suspended (R325), or ends the command with a status at an address. -/
inductive CopyStep where
  | more
  | waits
  | suspended
  | ended (status : Nat) (va : Word)
  deriving DecidableEq, Repr

/-- R202 to R204, R309: a byte as the engine reads it. -/
def State.copyByte (s : State) (q : Copy) : CopyEnd → Byte
  | .spad c off => Memory.read s.mem (spadKey c off)
  | .host a =>
    match s.pageAt a with
    | some _ => BitVec.ofNat 8 (s.loadValue a 1)
    | none => (s.dieBytes q.die a 1).headD 0

/-- R348: the byte of an end is poisoned. -/
def State.copyPoisoned (s : State) : CopyEnd → Bool
  | .spad c off => s.poisoned (spadKey c off) 1
  | .host a => s.poisoned a 1

/-- R201: the Basin holds reads of a host range. -/
def State.copyHeldBack (s : State) (n : Nat) : CopyEnd → Bool
  | .spad _ _ => false
  | .host a => (s.lineHeld a n).isSome

/-- R203: the line of a byte is recalled where its die's read asks for it. -/
def State.readyEnd (s : State) (q : Copy) : CopyEnd → State
  | .host h => s.readySource q.die h 1
  | .spad _ _ => s

/-- What the engine has read of a unit: the bytes so far, the state and the pages it has entered, and how it ended. -/
structure CopyRead where
  bytes : List Byte
  state : State
  pages : List EnteredPage
  step : CopyStep

/-- R166, R167, R339: up to n source bytes, one by one, until a page, a wait or an error stops them. -/
def State.copyRead (s : State) (q : Copy) (pages : List EnteredPage) (va : Word) : Nat → CopyRead
  | 0 => ⟨[], s, pages, .more⟩
  | n + 1 =>
    match s.copyTarget q pages va false with
    | .ends st => ⟨[], s, pages, .ended st va⟩
    | .waits => ⟨[], s, pages, .waits⟩
    | .at e pg =>
      if s.copyHeldBack 1 e then ⟨[], s, pg, .waits⟩
      else if s.copyPoisoned e then ⟨[], s, pg, .ended 6 va⟩
      else
        let s := s.readyEnd q e
        let r := s.copyRead q pg (va + 1) n
        ⟨s.copyByte q e :: r.bytes, r.state, r.pages, r.step⟩

/-! Writing. -/

/-- R309, R340: a dispatcher page takes the bytes of one unit. -/
def State.pagePut (s : State) (h : PageHit) (bs : List Byte) : State := s.pageStore h (leValue bs)

/-- R164, R166: an engine's write to a home window leaves on the path of the command's G; an early one to another die's window
stands in the die's forward table from now on (R202). -/
def State.sendUnit (s : State) (q : Copy) (va : Word) (a : Nat) (bs : List Byte) : State :=
  let w : Put := ⟨s.nextId, va, a, bs.length, word (leValue bs), q.put && q.g, .sent, s.now⟩
  let s := s.bump.modCopy q.id (fun q => { q with writes := q.writes ++ [w] })
  match w.path with
  | .early =>
    if stackOf a = q.die then s.arriveUnit q w
    else { s with forwards := s.forwards ++ [⟨w.id, q.die, a, w.size, w.data, .pending⟩] }
  | .global | .outside | .own | .rank _ => s

/-- R166: the engine writes one unit: at once in a scratchpad or a dispatcher page, else by a write that is acknowledged. -/
def State.copyWrite (s : State) (q : Copy) (va : Word) (bs : List Byte) : CopyEnd → State
  | .spad c off => s.writeBytesAt (spadKey c off) bs
  | .host a =>
    match s.pageAt a with
    | some h => s.pagePut h bs
    | none => s.sendUnit q va a bs

/-- R360, R361: the watchers of an access of the engine are told. -/
def State.copyWatched (s : State) (q : Copy) (va : Word) (n : Nat) (writes : Bool) : State :=
  match s.watchers with
  | [] => s
  | ws =>
    match s.watchKey q.part (coreOf q.thread) va with
    | some key => s.tellWatchers q.part q.thread ⟨coreOf q.thread, true, false, writes, !writes⟩ va key n ws
    | none => s

/-- The bytes from an offset up to the end of the aligned 8-byte unit of the destination (R190). -/
def Copy.unit (q : Copy) (k : Nat) : Nat := min (q.n - k) (8 - (q.destAt k).toNat % 8)

/-- A leaf entry without its SP and T bits. -/
def leafMapping (e : Nat) : Nat := e - field e 7 2 * 2^7 - field e 9 1 * 2^9

/-- R334, R339, R374: before a write in a page that the command has entered, the held page is copied and T is set in the page's
leaf, where that still maps it. -/
def State.readyLeaf (s : State) (q : Copy) (pages : List EnteredPage) (va : Word) : State :=
  match pages.find? (fun e => e.va == va.toNat / 65536 * 65536) with
  | none => s
  | some e =>
    let s := s.imagePage q.part e.a
    let now := s.readAt e.leaf 8
    if leafMapping now = leafMapping e.entry.toNat then s.touch ⟨e.a, e.leaf, false, word now⟩ else s

/-- R166: the engine writes the unit at an offset of a command, whole, once its place takes it. -/
def State.copyStore (s : State) (q : Copy) (k : Nat) (bs : List Byte) : State × Copy × CopyStep :=
  match s.copyDest q k with
  | .ends st => (s, q, .ended st (q.destAt k))
  | .waits => (s, q, .waits)
  | .at e pages =>
    if s.copyHeldBack bs.length e then (s, q, .waits)
    else
      let s := (((s.readyLeaf q pages (q.destAt k)).copyWrite q (q.destAt k) bs e).copyWatched q (q.destAt k) bs.length true)
      (s, { q with dests := pages, early := q.early.filter (fun x => x.1 != k) }, .more)

/-- The state with what an event has changed of command q; its writes and a lost acknowledgement stand as they are. -/
def State.keepCopy (s : State) (q : Copy) : State :=
  s.modCopy q.id (fun x => { x with
    sources := q.sources, dests := q.dests, early := q.early, written := q.written, done := q.done })

/-- R166: the source bytes of the unit at an offset, read ahead or now; a unit is read whole or not at all, and what stops it ends
the command at its first byte (log entry 85). -/
def State.copyFetch (s : State) (q : Copy) (k : Nat) : State × Copy × List Byte × CopyStep :=
  match q.early.find? (fun x => x.1 == k) with
  | some x => (s, q, x.2, .more)
  | none =>
    let r := s.copyRead q q.sources (q.sourceAt k) (q.unit k)
    match r.step with
    | .more => (r.state.copyWatched q (q.sourceAt k) r.bytes.length false, { q with sources := r.pages }, r.bytes, .more)
    | st => (s, q, [], st)

/-- R166, R190: one event of a command: the next unit moves, or has been written ahead. The source is checked first, then the
destination. -/
def State.copyUnit (s : State) (q : Copy) : State × Copy × CopyStep :=
  if q.written.contains q.done then
    let q := { q with written := q.written.filter (· != q.done), done := q.done + q.unit q.done }
    (s.keepCopy q, q, .more)
  else
    match s.copyFetch q q.done with
    | (u, q, bs, .more) =>
      (match u.copyStore q q.done bs with
       | (u, q, .more) => let q := { q with done := q.done + bs.length }; (u.keepCopy q, q, .more)
       | (_, q, st) => (s, q, st))
    | (_, q, _, st) => (s, q, st)

/-- A unit of the command begins at an offset, and the engine has neither moved nor written it. -/
def Copy.unitOpen (q : Copy) (k : Nat) : Bool :=
  q.running && decide (q.done ≤ k) && decide (k < q.n) && (k == 0 || (q.destAt k).toNat % 8 == 0) && !q.written.contains k

/-- R166: the engine reads a unit of a command ahead of its turn; one that it cannot read whole now is left. -/
def State.copyReadsAhead (s : State) (id k : Nat) : State :=
  match s.copies.find? (fun q => q.id == id && q.unitOpen k) with
  | none => s
  | some q =>
    match s.copyFetch q k with
    | (u, q, bs, .more) => u.keepCopy { q with early := q.early.filter (fun x => x.1 != k) ++ [(k, bs)] }
    | _ => s

/-- R166: the engine writes a unit that it has read ahead before those before it. -/
def State.copyWritesAhead (s : State) (id k : Nat) : State :=
  match s.copies.find? (fun q => q.id == id && q.unitOpen k) with
  | none => s
  | some q =>
    match q.early.find? (fun x => x.1 == k) with
    | none => s
    | some x =>
      match s.copyStore q k x.2 with
      | (u, q, .more) => u.keepCopy { q with written := q.written ++ [k] }
      | _ => s

/-- R325: the command's bytes done have crossed a multiple of 4 KiB in an event, and more are to come. -/
def Copy.crossed (old q : Copy) : Bool := old.done / 4096 != q.done / 4096 && decide (q.done < q.n)

/-- R166, R325: one event, with the unit of budget that a crossing takes; without one the command is suspended. -/
def State.copyEvent (s : State) (q : Copy) : State × Copy × CopyStep :=
  if q.n ≤ q.done then (s, q, .ended 0 0)
  else
    match s.copyUnit q with
    | (s, q', .more) =>
      if !q.crossed q' then (s, q', .more)
      else if s.hasBudget q.part q.die then (s.takeBudget q.part q.die, q', .more) else (s, q', .suspended)
    | r => r

/-- R166: events until the command ends, waits or is suspended. -/
def State.copyEvents (s : State) (q : Copy) : Nat → State × Copy × CopyStep
  | 0 => (s, q, .waits)
  | f + 1 =>
    match s.copyEvent q with
    | (s, q, .more) => s.copyEvents q f
    | r => r

/-! Completion. -/

/-- R169: the completion of a copy command. -/
def Copy.completion (q : Copy) (status done : Nat) (va : Word) : Completion :=
  ⟨word (q.ticket.toNat + bit q.put * 2^16 + status * 2^24 + done * 2^32), va⟩

/-- R362: the error record of a command that met an uncorrectable error or lost an acknowledgement. -/
def State.copyReport (s : State) (q : Copy) (status : Nat) (va : Word) : State :=
  if status = 6 then s.reportAt q.part (s.uePlaces (coreOf q.thread) va (s.datumIn q.part q.thread va)) .ue va (some Cause.ue.code)
  else if status = 5 then s.reportAt q.part ErrPlace.all .acklost va none
  else s

/-- R307: a copy engine's access to a core of another tag leaves a drop record, as the packet it is does. -/
def State.copyDropped (s : State) (q : Copy) (va : Word) : State :=
  match classify va with
  | .rank r _ =>
    (match (Sparse.get (s.part q.part).ranks r .invalid).core? with
     | some c =>
       let s := { s with dropLog := (s.tagKey c, q.part, s.tagOf c, 3) :: s.dropLog }
       s.report [.router] [.tagDrop] (some (dieOf c)) q.part (some (s.physicalOf c)) va none
     | none => s)
  | _ => s

/-- R169: a command ends: it leaves the engine and its completion enters its thread's FIFO. -/
def State.endCopy (s : State) (q : Copy) (status done : Nat) (va : Word) : State :=
  let s := s.copyReport q status va
  let s := if status = 4 then s.copyDropped q va else s
  { s with copies := s.copies.filter (fun x => x.id != q.id) }.modThreadFor q.part q.thread
    (fun t => t.complete (q.completion status done va))

/-- R166, R169: a command that has no more to move ends once its writes are acknowledged; with a lost one it ends ACKLOST with
all n bytes done, where every byte was sent. -/
def State.closeCopy (s : State) (q : Copy) (status : Nat) (va : Word) : State :=
  match s.copies.find? (fun x => x.id == q.id) with
  | some x =>
    if !x.writes.isEmpty then s
    else match x.lost with
      | some l => if status = 0 then s.endCopy q 5 q.n l else s.endCopy q status q.done va
      | none => s.endCopy q status q.done va
  | none => s

/-- R325: a command is suspended and rejoins the waiters. -/
def State.settle (s : State) (q : Copy) : CopyStep → State
  | .ended status va => s.closeCopy q status va
  | .suspended => s.modCopy q.id (fun x => { x with running := false })
  | .more | .waits => s

/-- R166, R190: one event of the engine that runs a command, as a choice of the agenda. -/
def State.copyTurn (s : State) (id : Nat) : State :=
  match s.copies.find? (fun q => q.id == id && q.running) with
  | none => s
  | some q => match s.copyEvent q with
    | (s, q, st) => s.settle q st

/-- R166, R169, R325: a running command moves what is left of its bytes; it ends once its writes are acknowledged, or is
suspended and rejoins the waiters. -/
def State.runCopy (s : State) (id : Nat) : State :=
  match s.copies.find? (fun q => q.id == id && q.running) with
  | none => s
  | some q => match s.copyEvents q (q.n + 2) with
    | (s, q, st) => s.settle q st

/-- R169: COPY_COMPLETE. -/
def execCopyComplete (q : Nat) (s : State) : Result := .next (s.runCopy q)

/-! A lost acknowledgement or lane. -/

/-- R169: the acknowledgement of a command's bytes in another core's scratchpad is lost when all are sent: status ACKLOST
with all n bytes done; the first of them may not have been written. -/
def State.rankAckLost (s : State) (q : Copy) (committed : Bool) : State :=
  match s.copyDest q 0 with
  | .at (.spad c off) _ =>
    let k := min q.n (64 - off % 64)
    let old := Memory.readBytes s.mem (spadKey c off) k
    (match s.copyEvents q (q.n + 2) with
     | (u, q, .ended 0 _) =>
       (if committed then u else u.writeBytesAt (spadKey c off) old).endCopy q 5 q.n (q.destAt 0)
     | _ => s)
  | _ => s

/-- R166: a running command whose destination is another core's scratchpad. -/
def Copy.toRank (q : Copy) : Bool :=
  q.running && q.n != 0 && (match classify q.dest with
    | .rank _ _ => true
    | _ => false)

/-- R153, R167: ACK_TIMEOUT names a store, a put, a notice, a write of a copy command, or a running command that writes
another core's scratchpad. -/
def State.ackMissing (s : State) (w : Nat) (committed : Bool) : State :=
  match s.copies.find? (fun q => q.id == w && q.toRank) with
  | some q => s.rankAckLost q committed
  | none => s.ackTimeout w committed

/-- R153: ACK_TIMEOUT. -/
def execAckTimeout (w : Nat) (committed : Bool) (s : State) : Result := .next (s.ackMissing w committed)

/-- R406: the command has begun and stands at a node. -/
def State.copyMeets (s : State) (q : Copy) (node : Nat) : Bool :=
  let at' (pages : List EnteredPage) (va : Word) : Bool := match s.copyTarget q pages va false with
    | .at (.host a) _ => nodeOf a == some node
    | _ => false
  q.begun && (at' q.sources q.source || at' q.dests q.dest || q.writes.any (fun w => nodeOf w.a == some node))

/-- R406, R153: a put on its way to a node that has lost its last lane is lost. -/
def Put.loses (node : Nat) (w : Put) : Put :=
  if nodeOf w.a == some node && w.stage == .sent then { w with stage := .lost true } else w

/-- R406, R162: a request on its way to a node, or whose response is, is lost; it is sent again. -/
def Request.loses (node : Nat) (r : Request) : Request :=
  if nodeOf r.a == some node then
    { r with stage := match r.stage with
        | .executed _ => .sent
        | g => g }
  else r

/-- R169: how many bytes of a command have been transferred: those before its first write without an acknowledgement. -/
def Copy.transferred (q : Copy) : Nat :=
  q.writes.foldl (fun n w => min n (w.va - q.destAt 0).toNat) q.done

/-- R406, R169: a command that has begun, to or from a node, ends ABORTED at its first byte not transferred. Its writes that are
on their way elsewhere arrive still, as puts of its thread (DESIGN CHOICE, log entry 73). -/
def State.abortCopy (s : State) (q : Copy) (node : Nat) : State :=
  let under := q.writes.filter (fun w => nodeOf w.a != some node)
  let s := if under.isEmpty then s else s.modThreadFor q.part q.thread (fun t => { t with puts := t.puts ++ under })
  let q := { q with done := q.transferred }
  s.endCopy q 7 q.done (if (match classify q.source with | .home 9 => true | _ => false) then q.source else q.dest)

/-- The same for each of a list. -/
def State.abortCopies (s : State) (node : Nat) : List Copy → State
  | [] => s
  | q :: qs => (s.abortCopy q node).abortCopies node qs

/-- R406: the last working lane to a node has failed: running commands end ABORTED, and accesses under way are lost. -/
def State.loseNode (s : State) (node : Nat) : State :=
  let s := s.abortCopies node (s.copies.filter (fun q => s.copyMeets q node))
  { s with
    threads := Sparse.mapValues s.threads (fun _ x => { x with puts := x.puts.map (Put.loses node) })
    requests := Sparse.mapValues s.requests (fun _ r => r.loses node) }

/-- The same for each of a list of nodes. -/
def State.loseNodes (s : State) : List Nat → State
  | [] => s
  | n :: ns => (s.loseNode n).loseNodes ns

/-- The nodes that a route table names. -/
def State.routedNodes (s : State) : List Nat := ((Sparse.keys s.routes).map (· % 4096)).eraseDups

/-- R406: lanes fail; every node that they were the last working ones of is lost. -/
def State.lanesFail (s : State) (ls : List Nat) : State :=
  let failed := s.failedLanes ++ ls.filter (fun l => !s.failedLanes.contains l)
  let lost := s.routedNodes.filter (fun n => s.nodeReached n && !({ s with failedLanes := failed }.nodeReached n))
  { s.loseNodes lost with failedLanes := failed }

/-- R406: OPTICAL_LANE_LOSS: the last working lanes to a fabric node fail; later accesses are refused. -/
def execOpticalLaneLoss (node : Nat) (s : State) : Result := .next (s.lanesFail (s.nodeLanes node))

/-- R405: the monitor writes the entry of a node in an optical die's route table. -/
def State.setRoute (s : State) (die node : Nat) (r : Route) : State := { s with routes := Sparse.set s.routes (4096 * die + node) r }

end Sys2Proof.Machine
end

