-- ==== Sys2Proof/Machine/ThreadEvents.lean ====
section
/-!
DEFINITION. What ends a thread's wait or meets it from outside: the watchdog (R188), the delivery of pending causes (R137),
the end of a HALT (R142), answers and grants (R152, R272, R274, R277, R328), and failed links (R346).
-/
namespace Sys2Proof.Machine

/-! Asynchronous causes. -/

/-- R137: a pending asynchronous cause of thread t is taken at a bundle boundary, which the point between two lone words is
too (R52); a BLOCKED thread takes UE and WATCHDOG at its word. A thread whose wait has just ended reaches its boundary when
the word is done. -/
def State.deliverNow (s : State) (t : Nat) : State :=
  let x := s.thread t
  if x.status = .ready ∧ x.woke.isSome then s else s.deliver t

/-- R137: ASYNC_TRAP_DELIVERY. -/
def execAsyncTrapDelivery (t : Nat) (s : State) : Result := .next (s.deliverNow t)

/-- R309: the watchdog interval of partition p, 2 * SLICE + 10,000 µs, in nanoseconds. -/
def State.watchdogTime (s : State) (p : Nat) : Nat := (2 * (s.part p).slice + 10000) * 1000

/-- A wait that has lasted since a time outlasts partition p's watchdog interval (R188). -/
def State.outlasts (s : State) (p since : Nat) : Bool := decide (since + s.watchdogTime p < s.now)

/-- R34, R145, R188, R277: the wait counts toward the watchdog: every one but a sleep without a limit, the waits on the
reservoir, and a generation that has completed. -/
def State.watchdogCounts (s : State) : Wait → Bool
  | .sleep none | .reservation | .fill _ => false
  | .barrier k g => decide ((s.domain k).gen ≤ g)
  | _ => true

/-- R188: thread t has waited too long. -/
def State.waitExpired (s : State) (t : Nat) : Bool :=
  match (s.thread t).status with
  | .blocked w since => s.watchdogCounts w && s.outlasts (s.partOf t) since
  | _ => false

/-- R223: the head entry of core c's queue waits for a stream or for the SFU. -/
def State.headWaits (s : State) (c : Nat) : Bool :=
  match (s.coreAt c).vqueue with
  | q :: _ => !q.done && s.streamOrSfuWait c q
  | [] => false

/-- R223: the head entry of the thread's core has waited too long. -/
def State.entryExpired (s : State) (t : Nat) : Bool :=
  match (s.coreAt (coreOf t)).vqueue with
  | q :: _ => q.thread == t && s.headWaits (coreOf t) && s.outlasts (s.partOf t) q.since
  | [] => false

/-- R263: a command of the thread in its core's MXU queue has waited too long. -/
def State.commandExpired (s : State) (t : Nat) : Bool :=
  (s.coreAt (coreOf t)).mxqueue.any (fun q => q.thread == t && !q.finished && s.outlasts (s.partOf t) q.since)

/-- R188, R223, R263: the watchdog of thread t is due. -/
def State.expires (s : State) (t : Nat) : Bool := s.waitExpired t || s.entryExpired t || s.commandExpired t

/-- R223: the time of the head entry begins again. -/
def State.entryAnew (s : State) (t : Nat) : State :=
  s.modCore (coreOf t) (fun k => { k with vqueue := match k.vqueue with
    | q :: r => { q with since := s.now } :: r
    | [] => [] })

/-- R263: the time of the thread's commands begins again. -/
def State.commandsAnew (s : State) (t : Nat) : State :=
  s.modCore (coreOf t) (fun k => { k with
    mxqueue := k.mxqueue.map (fun q => if q.thread = t then { q with since := s.now } else q) })

/-- R379: thread t waits while its package's spore is ARMED for its launch and its core's NI holds a message that a peer sent
after its own cut. -/
def State.stalls (s : State) (t : Nat) : Bool :=
  let p := s.partOf t
  let sp := (s.part p).spore
  sp.state == .armed && sp.launch.isSome && sp.launch == (s.thread t).launch
    && s.packets.any (fun k => k.tag == p && k.dest == coreOf t && s.heldForCut k)

/-- R379: the spore of a thread that waits for a held message fails with STALL. -/
def State.failStalled (s : State) (t : Nat) : State := if s.stalls t then s.failSpore (s.partOf t) 5 else s

/-- R188, R223, R263: WATCHDOG is raised in a thread whose wait, entry or command has outlasted the interval. A BLOCKED
thread takes it at once; an entry or a command keeps waiting. -/
def State.expire (s : State) (t : Nat) : State :=
  if s.waitExpired t then ((s.failStalled t).pend t .watchdog 0 0).deliver t
  else if s.entryExpired t then (s.entryAnew t).pend t .watchdog 0 0
  else if s.commandExpired t then (s.commandsAnew t).pend t .watchdog 0 0
  else s

/-- R188: WATCHDOG_EXPIRY. -/
def execWatchdogExpiry (t : Nat) (s : State) : Result := .next (s.expire t)

/-- R346: eight failed retries of a flit give UE at the receiver, asynchronously, for the address it carried. -/
def execLinkRetryFail (t : Nat) (a : Word) (s : State) : Result := .next ((s.pendUe t a .link).deliverNow t)

/-! HALT (R142). -/

/-- R142: the waits of a HALT of thread t have ended. -/
def State.haltReady (s : State) (t : Nat) : Bool :=
  let x := s.thread t
  !s.copies.any (fun q => q.thread == t && q.part == s.partOf t)
    && !(s.coreAt (coreOf t)).mxqueue.any (fun q => q.thread == t)
    && x.buffer.isEmpty && x.puts.isEmpty
    && s.packets.all (fun p => p.source != t || !s.sentHere p || p.cargo.channel.isNone
      || (s.packetSent p && !p.held && !s.asks p))
    && !s.vectorBusy t

/-- R43, R142: the thread is HALTED and asks for the launch's next index. -/
def State.haltedThread (s : State) (t : Nat) : State :=
  let s := s.modThread t (fun x => { x with fifo := [], reserved := 0, status := .halted })
  match (s.thread t).launch with
  | none => s.freeThread t
  | some id =>
    match Sparse.find? s.launches id with
    | none => s.freeThread t
    | some l => ((s.setLaunch { l with halted := l.halted + 1 }).askIndex id t).settleLaunch id

/-- R142: the waits of a HALT end; a pending cause that the thread can take is taken at the HALT word first. Under INH = 1
a cause other than UE and WATCHDOG stays pending (R136) and the thread becomes HALTED with it: R142 speaks of any pending
cause (DESIGN CHOICE, log entry 64). -/
def State.endHalt (s : State) (t : Nat) : State :=
  match (s.thread t).status with
  | .blocked .halt _ =>
    if !s.haltReady t then s
    else if ({ s.thread t with status := .ready } : Thread).nextAsync.isSome then
      (s.modThread t (fun x => { x with status := .ready })).deliver t
    else s.haltedThread t
  | _ => s

/-- R142: HALT_COMPLETE. -/
def execHaltComplete (t : Nat) (s : State) : Result := .next (s.endHalt t)

/-! Answers. -/

/-- R152, R374: permission for a store that missed returns: the held page has been copied. -/
def State.missReturns (s : State) (t : Nat) : State :=
  match (s.thread t).status with
  | .blocked (.storeMiss a) _ => (s.imagePage (s.partOf t) a).resume t (.storeMiss a)
  | _ => s

/-- R152: STORE_MISS_RETURN. -/
def execStoreMissReturn (t : Nat) (s : State) : Result := .next (s.missReturns t)

/-- R328: the monitor has answered a walk request: the access walks the tables as they now stand. -/
def State.walkAnswered (s : State) (t : Nat) : State :=
  match (s.thread t).status with
  | .blocked (.walk va) _ =>
    (s.modThread t (fun x => { x with permits := (va &&& 0xFFFFFFFFFFFF0000) :: x.permits })).resume t (.walk va)
  | _ => s

/-- R328: HOST_WALK_REPLY. -/
def execHostWalkReply (t : Nat) (s : State) : Result := .next (s.walkAnswered t)

/-- R277: a waiting RWAIT goes on once floor(PF) is at most its bound. -/
def State.fillFalls (s : State) (t : Nat) : State :=
  match (s.thread t).status with
  | .blocked (.fill n) _ => if s.fillOf (s.partOf t) ≤ n then s.resume t (.fill n) else s
  | _ => s

/-- R277: RWAIT_RELEASE. -/
def execRwaitRelease (t : Nat) (s : State) : Result := .next (s.fillFalls t)

/-- R272: the request of thread t is granted when no request stands before it and there is headroom; a plain RSV or RSV.p
that finds none any more takes 0 (R274). -/
def State.grantWaiting (s : State) (t : Nat) : State :=
  match s.sluice.find? (fun w => w.thread == t) with
  | none => s
  | some w =>
    let g := s.grantFor w
    if g = 0 ∧ w.waits then s
    else if g = 0 then
      ({ s with sluice := s.sluice.filter (fun a => a.thread != t) }.modThread t (fun x =>
        { x with reply := some (.value 0) })).resume t .reservation
    else
      let s := { s with sluice := s.sluice.filter (fun a => a.thread != t) }.grant t g
      (s.modThread t (fun x => { x with reply := some (.value (word g)) })).resume t .reservation

/-- R274, R328: the request of thread t was made in host-assisted mode, so that its grant is the monitor's. -/
def State.monitorGrants (s : State) (t : Nat) : Bool := s.sluice.any (fun w => w.thread == t && w.assisted)

/-- R272: RESERVATION_GRANT, of a request made in hardware mode. -/
def execReservationGrant (t : Nat) (s : State) : Result := .next (if s.monitorGrants t then s else s.grantWaiting t)

/-- R274: MONITOR_SLUICE_GRANT, of one made in host-assisted mode; R272 and R273 hold. -/
def execMonitorSluiceGrant (t : Nat) (s : State) : Result := .next (if s.monitorGrants t then s.grantWaiting t else s)

end Sys2Proof.Machine
end

