-- ==== Sys2Proof/Machine/LaunchEvents.lean ====
section
/-!
DEFINITION. A launch starting on a die (R298, R299), its election and its leader (R44 to R46), host-assisted elections
(R328), and the quarantine of a die (R359).
-/
namespace Sys2Proof.Machine

/-! The head launch of a die (R298). -/

/-- R298: a ranks before b in a die's queue. -/
def Launch.before (a b : Launch) : Bool :=
  let pa := field (a.word 0) 2 3
  let pb := field (b.word 0) 2 3
  decide (pb < pa) || (pa == pb && decide (a.order < b.order))

/-- The first of a list of launches in a die's queue. -/
def firstLaunch : List Launch → Option Launch
  | [] => none
  | a :: r =>
    match firstLaunch r with
    | none => some a
    | some b => if b.before a then some b else some a

/-- R298: the launch waits in die d's queue: its masks name cores there and it has not started there. A die that failed in
the election is not started. -/
def Launch.queuedOn (l : Launch) (d : Nat) : Bool :=
  l.mask d != 0 && !l.installed.contains d && (!l.closed || l.dies.contains d)

/-- R298: the head of partition p's queue on die d. -/
def State.headLaunch (s : State) (p d : Nat) : Option Launch :=
  firstLaunch ((s.launches.map (·.2)).filter (fun l => l.part == p && l.queuedOn d))

/-! Installing (R299, R302). -/

/-- R299: the image that the launch gives for domain n of die d, when it is readable and well formed. One that was so at arming
and is not at the start counts as none: the spec does not say (DESIGN CHOICE, log entry 87). -/
def State.imageFor (s : State) (l : Launch) (d n : Nat) : Option (List Byte) :=
  if l.word 6 = 0 then none
  else match s.readVa l.part (l.imageAddress d n) 64 with
    | some bs => if imageOk (s.part l.part).barriers.2 bs && leAt bs 0 8 % 4 != 0 then some bs else none
    | none => none

/-- R299: no member of a domain whose image the launch installs is waiting; of a package-level one on any die (log entry 42). -/
def State.domainsIdle (s : State) (l : Launch) (d : Nat) : Bool :=
  (List.range 16).all (fun n => (s.imageFor l d n).isNone || !s.memberWaits (domainKey d n))

/-- R299: the launch can start on die d now. -/
def State.launchReady (s : State) (l : Launch) (d : Nat) : Bool :=
  (l.coresOn d).all (fun c => s.tagOf c == l.part && (s.savedFor l.part c).isNone
      && !(s.part l.part).spore.capturing.contains c)
    && (l.threadsOn d).all (fun t => (s.thread t).status == .free) && s.domainsIdle l d

/-- R299: the images of die d are installed. -/
def State.installImages (s : State) (l : Launch) (d : Nat) : List Nat → State
  | [] => s
  | n :: ns =>
    let s := match s.imageFor l d n with
      | some bs => s.installImage (domainKey d n) bs l.part (some l.id)
      | none => s
    s.installImages l d ns

/-- R302: the table of core c's rank under the launch: its address and rows; none without a table. One that was good at arming
and is unreadable or malformed at the start has no rows, and SLOTBASE holds its address: the spec does not say (DESIGN CHOICE,
log entry 87). -/
def State.tableOf (s : State) (l : Launch) (c : Nat) : Word × List SlotRow :=
  if l.word 5 = 0 then (0, [])
  else match (s.directoryEntry none l.part (word (l.word 5)) ((s.coreFor l.part c).getD (s.coreAt c)).rank).2.value? with
    | some a => if a = 0 then (0, []) else (word a, (s.loadTable l.part (word a)).getD [])
    | none => (0, [])

/-- R28, R302: a core starts the launch in the compute phase, with the table of its rank. -/
def State.startCore (s : State) (l : Launch) (c : Nat) : State :=
  let (a, rows) := s.tableOf l c
  s.modCoreFor l.part c (fun k => { k with
    comm := false, phaseStart := k.cycle, slotBase := a, rows := rows, slotCur := none, slotNext := none })

/-- Starts a list of cores. -/
def State.startCores (s : State) (l : Launch) : List Nat → State
  | [] => s
  | c :: cs => (s.startCore l c).startCores l cs

/-- R368: SPSTATUS at the start of a launch. -/
def Spore.atLaunch (sp : Spore) (restarted : Bool) : Spore :=
  match sp.state with
  | .capture | .sealing => { sp with restarted := restarted }
  | _ => { sp with restarted := restarted, state := .idle, fail := 0 }

/-! Elections (R44, R328). -/

/-- R328: leader election is host-assisted, for a gang that spans dies. -/
def State.electionAssisted (s : State) (l : Launch) : Bool := s.modes.getLsbD 4 && decide (1 < l.maskDies.length)

/-- R44: a die's ballot; the first begins the election, in the mode that is set then (R328). -/
def State.ballot (s : State) (l : Launch) (d : Nat) (healthy : Bool) : Launch :=
  { l with
    ballots := l.ballots.filter (fun b => b.1 != d) ++ [(d, healthy)]
    firstBallot := some (l.firstBallot.getD s.now)
    assisted := if l.firstBallot.isSome then l.assisted else s.electionAssisted l }

/-- R44: every die of the gang has posted. -/
def Launch.allPosted (l : Launch) : Bool := l.dies.all (fun d => l.ballots.any (fun b => b.1 == d))

/-- R44, R328, R395: after a ballot the election closes when every die has posted; in host-assisted mode the monitor is
asked, once. -/
def State.afterBallot (s : State) (l : Launch) : State :=
  if l.assisted then
    (if l.asked then s.setLaunch l
     else (s.setLaunch { l with asked := true }).post 0 ⟨9, l.part, 0, word l.record, [word l.record]⟩)
  else if l.allPosted then (s.setLaunch l).closeElection l
  else s.setLaunch l

/-- R299, R44: the head launch starts on die d: images, slot tables, the ballot; its threads ask for indices. -/
def State.startOn (s : State) (l : Launch) (d : Nat) : State :=
  let s := s.installImages l d (List.range 16)
  let s := s.startCores l (l.coresOn d)
  let s := if l.installed.isEmpty then s.modSpore l.part (fun sp => sp.atLaunch l.rollbackEntry) else s
  let l := { l with
    dies := if l.installed.isEmpty then l.maskDies else l.dies
    installed := l.installed ++ [d]
    members := l.members ++ l.threadsOn d }
  let s := (s.setLaunch l).askAll l.id (l.threadsOn d)
  match Sparse.find? s.launches l.id with
  | some l => s.afterBallot (s.ballot l d true)
  | none => s

/-- R299: a partition and a die on which the head launch starts now. -/
def State.startDue (s : State) : Option (Nat × Nat) :=
  s.launches.findSome? (fun e => (e.2.maskDies.find? (fun d => match s.headLaunch e.2.part d with
    | some l => l.id == e.1 && s.launchReady l d
    | none => false)).map (fun d => (e.2.part, d)))

/-- R299: LAUNCH_START. -/
def execLaunchStart (p d : Nat) (s : State) : Result :=
  .next (match s.headLaunch p d with
    | some l => if s.launchReady l d then s.startOn l d else s
    | none => s)

/-- R44: 10 µs after the first ballot the election closes. -/
def State.electionEnds (s : State) (l : Launch) : State :=
  match l.firstBallot with
  | some t => if !l.closed && !l.assisted && decide (t + 10000 ≤ s.now) then s.closeElection l else s
  | none => s

/-- R44: a launch whose election closes now. -/
def State.electionDue (s : State) : Option Launch :=
  (s.launches.map (·.2)).find? (fun l => !l.closed && !l.assisted && l.firstBallot.any (fun t => decide (t + 10000 ≤ s.now)))

/-- R44: ELECTION_TIMEOUT. -/
def execElectionTimeout (l : Nat) (s : State) : Result :=
  .next (match Sparse.find? s.launches l with
    | some x => s.electionEnds x
    | none => s)

/-- R328, R44: the monitor names a healthy die of the gang leader; without the degrade bit every die must have posted. -/
def State.nameLeader (s : State) (l : Launch) (d : Nat) : State :=
  if l.assisted && l.leader.isNone && l.healthy.contains d && (l.allPosted || field (l.word 0) 10 1 == 1) then
    s.elect { l with dies := sortBy id l.healthy } d
  else s

/-- R328: MONITOR_NAMES_LEADER. -/
def execMonitorNamesLeader (l d : Nat) (s : State) : Result :=
  .next (match Sparse.find? s.launches l with
    | some x => s.nameLeader x d
    | none => s)

/-! The leader (R46). -/

/-- R46: LEADER_POST. -/
def execLeaderPost (l : Nat) (s : State) : Result :=
  .next (match Sparse.find? s.launches l with
    | some x => if x.leader.isSome then s.setLaunch { x with postedAt := s.now } else s
    | none => s)

/-- R46: a new election among the surviving dies, all of which post: the lowest leads; in host-assisted mode the monitor is
asked. With no die left the launch ends (log entry 29). -/
def State.reelect (s : State) (l : Launch) : State :=
  match sortBy id l.dies with
  | [] => s.faultLaunch l
  | d :: _ =>
    if s.electionAssisted l then
      (s.setLaunch { l with leader := none, asked := true, assisted := true }).post 0 ⟨9, l.part, 0, word l.record, [word l.record]⟩
    else s.elect { l with assisted := false } d

/-- R46: die d of a launch whose election has closed fails: indices running on it are abandoned; a failed leader's
undistributed indices too, and the surviving dies elect a new one. -/
def State.failDie (s : State) (l : Launch) (d : Nat) : State :=
  let s := s.loseMembers l (l.threadsOn d)
  match Sparse.find? s.launches l.id with
  | none => s
  | some l =>
    let l := { l with dies := l.dies.filter (· != d), ballots := l.ballots.filter (fun b => b.1 != d) }
    if l.leader = some d then
      let left := (List.range (l.block.2 - l.block.1)).map (· + l.block.1)
      s.reelect { l with leader := none, block := (0, 0), abandoned := l.abandoned ++ left }
    else (s.setLaunch l).settleLaunch l.id

/-- R46: 20 µs without a post: the leader fails. -/
def State.leaderFails (s : State) (l : Launch) : State :=
  match l.leader with
  | some d => if l.postedAt + 20000 ≤ s.now then s.failDie l d else s
  | none => s

/-- R46: LEADER_FAIL. -/
def execLeaderFail (l : Nat) (s : State) : Result :=
  .next (match Sparse.find? s.launches l with
    | some x => s.leaderFails x
    | none => s)

/-! Quarantine of a die (R359). -/

/-- R44, R46: a launch meets a failed die. -/
def State.launchMeets (s : State) (l : Launch) (d : Nat) : State :=
  if l.mask d = 0 then s
  else if l.closed then (if l.dies.contains d then s.failDie l d else s)
  else
    let s := s.loseMembers l (l.threadsOn d)
    match Sparse.find? s.launches l.id with
    | some l => if l.installed.isEmpty then s else s.afterBallot (s.ballot l d false)
    | none => s

/-- R359: every launch meets a failed die. -/
def State.launchesMeet (s : State) (d : Nat) : List Nat → State
  | [] => s
  | id :: r =>
    let s := match Sparse.find? s.launches id with
      | some l => s.launchMeets l d
      | none => s
    s.launchesMeet d r

/-- The cores of a die. -/
def coresOfDie (d : Nat) : List Nat := (List.range 128).map (· + 128 * d)

/-- R359: a die whose Basin link or dispatcher fails is quarantined whole: every core takes tag 63, its launches treat it as
failed, its ranks become INVALID. -/
def State.quarantineDie (s : State) (d : Nat) : State :=
  let s := s.report ErrSource.all [.quarantine] (some d) 63 none 0 none
  let s := s.post 0 ⟨7, 63, 0, word d, [word d, 0, word ErrClass.quarantine.code]⟩
  let s := s.launchesMeet d (Sparse.keys s.launches)
  let s := s.killCores (coresOfDie d)
  { s with
    copies := s.copies.filter (fun q => q.die != d)
    pendingSpare := s.pendingSpare.filter (fun e => dieOf e.core != d) }

/-- R359: DIE_QUARANTINE. -/
def execDieQuarantine (d : Nat) (s : State) : Result := .next (if d < 8 then s.quarantineDie d else s)

end Sys2Proof.Machine
end

