-- ==== Sys2Proof/Machine/ResvEvents.lean ====
section
/-!
DEFINITION. The drain (R266, R268), the core meters (R281), the package sluice and its cuts (R285, R286, R404), levels
(R278), the telemetry frame (R292), voltage and current limits (R402, R403) and the time-base input (R401).
-/
namespace Sys2Proof.Machine

/-! The drain. -/

/-- R268: DRAIN_STEP: in one µs each PF falls by RATE and F by the package drain, stopping at 0. -/
def execDrainStep (s : State) : Result :=
  .next { s with
    parts := Sparse.mapValues s.parts (fun _ q => { q with pf := q.pf - q.rate })
    fill := s.fill - s.drain }

/-- R268: the sum over partitions of SHARE * 2^-k, in 2^-31 RU per µs. -/
def State.shareSum (s : State) : Nat := s.parts.foldl (fun a e => a + e.2.share * 2^(15 - e.2.k)) 0

/-- R268: RATE under a measured drain in 2^-16 RU per µs. -/
def Partition.rateFor (q : Partition) (drain sum : Nat) : Nat :=
  if q.fixed ∨ sum ≤ drain * 2^15 then q.share else q.share * (drain * 2^15) / sum

/-- R266, R268: DRAIN_MEASURE: the package drain is measured and each RATE recomputed. -/
def execDrainMeasure (drain : Nat) (s : State) : Result :=
  let sum := s.shareSum
  .next { s with
    drain := drain
    parts := Sparse.mapValues s.parts (fun _ q => { q with rate := q.rateFor drain sum }) }

/-! The meter (R281). A partition unit is 2000 * 2^-k µJ. -/

/-- R281: one µs of a core's meter: energy over the allowance, in µJ, enters the residue, kept with 16 fraction bits, and
whole units are charged. -/
def State.meter (s : State) (c energy : Nat) : State :=
  let q := s.part (s.tagOf c)
  if (s.coreAt c).level = 0 then s.modCore c (fun k => { k with meterRate := 0 })
  else
    let excess := energy - q.allowance
    let r := (s.coreAt c).residue + excess * 2^q.k * 2^16 / 2000
    (s.modCore c (fun k => { k with residue := r % 2^16, meterRate := excess * 2^16 / 2000 })).chargeUnits c (r / 2^16)

/-- R281: METER_TICK. -/
def execMeterTick (c energy : Nat) (s : State) : Result := .next (s.meter c energy)

/-! Cuts. -/

/-- The keys of R273 of a thread, as one number that is larger for a higher rank. -/
structure SprintRank where
  priority : Nat
  cls : Nat
  age : Nat
  deriving DecidableEq, Repr

/-- R273: a ranks above b. -/
def SprintRank.above (a b : SprintRank) : Bool :=
  decide (b.priority < a.priority) || (a.priority == b.priority &&
    (decide (b.cls < a.cls) || (a.cls == b.cls && decide (a.age < b.age))))

/-- R285: the keys of the best-ranked thread of a core whose REQ is above 0. One that has spent its RESV ranks by its last
grant's age: the spec is silent (DESIGN CHOICE, log entry 86). -/
def State.sprintRank (s : State) (c : Nat) : Option SprintRank :=
  ([0, 1, 2, 3] : List Nat).foldl (fun a i =>
    let x := s.thread (4 * c + i)
    if x.req = 0 then a
    else
      let r : SprintRank := ⟨(s.part (s.tagOf c)).priority, x.rclass.toNat, x.grantAge⟩
      match a with
      | none => some r
      | some b => if r.above b then some r else some b) none

/-- R285: the sprinting cores. -/
def State.sprinting (s : State) : List Nat := Sparse.keys (s.cores.filter (fun e => e.2.level != 0))

/-- The lowest-ranked of a list of cores; a core without a requesting thread ranks lowest. -/
def State.lowestRanked (s : State) : List Nat → Option Nat
  | [] => none
  | c :: r =>
    match s.lowestRanked r with
    | none => some c
    | some d =>
      match s.sprintRank c, s.sprintRank d with
      | some a, some b => if b.above a then some c else some d
      | none, _ => some c
      | some _, none => some d

/-- R285: a thread of partition p on a cut core, where it lives, loses its reservation and its request; CUT is pending with
what it lost. -/
def State.cutThread (s : State) (p t : Nat) : State :=
  let x := s.threadFor p t
  if x.req = 0 then s
  else
    (s.modPart p (fun q => { q with po := q.po - x.resv })).modThreadFor p t (fun x =>
      { x with resv := 0, req := 0 }.pend .cut (word x.resv) 0)

/-- The partitions with threads on core c: the one whose tag it carries, then those with a saved context of it (R315). -/
def State.partsOn (s : State) (c : Nat) : List Nat :=
  (s.tagOf c :: (s.saved.filter (fun v => v.snapshot.core == c)).map (·.tag)).eraseDups

/-- R404: the meter rates of the cores that the cut test of this µs has cut. -/
def State.cutNow (s : State) : Nat := if s.cutTest.1 = s.now / 1000 then s.cutTest.2 else 0

/-- R285, R284: a core is cut: its residue is flushed, its requesting threads, saved ones too (R289), are revoked, and it returns
to nominal. -/
def State.cutCore (s : State) (c : Nat) : State :=
  let s := { s with cutTest := (s.now / 1000, s.cutNow + (s.coreAt c).meterRate) }
  let s := s.flushResidue c
  let s := (s.partsOn c).foldl (fun s p => ([0, 1, 2, 3] : List Nat).foldl (fun s i => s.cutThread p (4 * c + i)) s) s
  s.modCore c (fun k => { k with level := 0, clock := 0, meterRate := 0 })

/-- The sum of the meter rates of the sprinting cores, in 2^-16 RU per µs (R285). -/
def State.sprintSum (s : State) : Nat := s.cores.foldl (fun a e => if e.2.level = 0 then a else a + e.2.meterRate) 0

/-- R285: cores are cut from the lowest-ranked on until a bound on the sum of meter rates holds. -/
def State.cutUntil (s : State) (bound : Nat) : Nat → State
  | 0 => s
  | n + 1 =>
    if s.sprintSum ≤ bound then s
    else match s.lowestRanked s.sprinting with
      | none => s
      | some c => (s.cutCore c).cutUntil bound n

/-- R285, R286: the sluice closes at (15/16) * 2^24 RU, reopens below (7/8) * 2^24, and cuts while it is closed. -/
def State.evaluate (s : State) : State :=
  let closed := decide (15 * 2^36 ≤ s.fill) || (s.sluiceClosed && decide (7 * 2^37 ≤ s.fill))
  let s := { s with sluiceClosed := closed }
  if closed then s.cutUntil s.drain s.sprinting.length else s

/-- R285: SLUICE_EVALUATION. -/
def execSluiceEvaluation (s : State) : Result := .next s.evaluate

/-- R404: what a power in mW asks a cut test to cut, as a sum of meter rates: one unit of a meter rate is 2,000,000 / 2^16
mW. -/
def powerNeed (mw : Nat) : Nat := ((mw - 3200000) * 2^16 + 1999999) / 2000000

/-- R404: package power in mW above 3,200 W cuts sprinting cores until the projected power, less the meter rates of the
cut cores, is at or below it (log entry 30). What a fill cut of the same µs has cut counts: the two are one test. -/
def State.powerCut (s : State) (mw : Nat) : State :=
  let need := powerNeed mw - s.cutNow
  if need = 0 then s
  else
    if s.sprintSum < need then s.sprinting.foldl (fun s c => s.cutCore c) s
    else s.cutUntil (s.sprintSum - need) s.sprinting.length

/-- R404: POWER_LIMIT_CUT. -/
def execPowerLimitCut (mw : Nat) (s : State) : Result := .next (s.powerCut mw)

/-! Levels (R278, R402). -/

/-- R402: the set point in mV of a level. -/
def levelVoltage (level : BitVec 2) : Nat := 700 + 60 * level.toNat

/-- R292, R402: the core-array domain of a core's physical column: 0-8 or 9-16. -/
def State.domainOf (s : State) (c : Nat) : Nat := 4 * dieOf c + (if s.physicalOf c / 8 ≤ 8 then 0 else 1)

/-- R402: the output in mV of a domain's regulator. -/
def State.voltage (s : State) (dom : Nat) : Nat := Sparse.get s.voltages dom 700

/-- R402: what the cores of a domain ask of it: the highest of a level of each of them. -/
def State.setPoint (s : State) (dom : Nat) (f : Core → BitVec 2) : Nat :=
  (s.cores.filter (fun e => s.domainOf e.1 == dom)).foldl (fun m e => max m (levelVoltage (f e.2))) 700

/-- R402: a domain's regulator reaches its set point; while a core's clock has not fallen yet it keeps what that clock needs. -/
def State.regulate (s : State) (dom : Nat) : State :=
  { s with voltages := Sparse.set s.voltages dom (max (s.setPoint dom (·.level)) (s.setPoint dom (·.clock))) }

/-- R278, R402: the next move of a core's switch to its level: on a rise the voltage comes before the clock, on a fall after
it. -/
def State.switchLevel (s : State) (c : Nat) : State :=
  let k := s.coreAt c
  if k.clock = k.level ∨ s.voltage (s.domainOf c) < levelVoltage k.level then s.regulate (s.domainOf c)
  else s.modCore c (fun k => { k with clock := k.level })

/-- R278: LEVEL_SWITCH: a core's clock or its domain's voltage moves to its level. -/
def execLevelSwitch (c : Nat) (s : State) : Result := .next (s.switchLevel c)

/-! Telemetry (R292). -/

/-- R292: a domain record: mean current and voltage as measured, bit 48 for a domain at its current limit. -/
def State.domainRecord (s : State) (records : List Word) (i : Nat) : Word :=
  word ((records.getD i 0).toNat % 2^48 + bit (s.limited.contains i) * 2^48)

/-- R292: the 4096 bytes of a telemetry frame. -/
def State.telemetryBytes (s : State) (seq power : Nat) (records : List Word) : List Byte :=
  leBytes seq 8 ++ leBytes s.now 8 ++ leBytes s.fill 8 ++ leBytes s.drain 8 ++ leBytes power 8
    ++ leBytes (bit s.sluiceClosed) 8
    ++ (List.range 47).flatMap (fun i => leBytes (s.domainRecord records i).toNat 8) ++ List.replicate 3672 0

/-- R292: the Basin writes die d's frame whole; SEQ goes through an odd value to the next even one. -/
def State.writeTelemetry (s : State) (d power : Nat) (records : List Word) : State :=
  match Sparse.find? s.telemetry d with
  | none => s
  | some (a, seq) =>
    ({ s with telemetry := Sparse.set s.telemetry d (a, seq + 2) }.imageAny a).writeGlobal a (s.telemetryBytes (seq + 2) power records)

/-- R292: TELEMETRY_FRAME_WRITE. -/
def execTelemetryFrameWrite (d power : Nat) (records : List Word) (s : State) : Result :=
  .next (s.writeTelemetry d power records)

/-! Voltage, current and time base (R401 to R403). -/

/-- R402: the core-array domains of the 47. -/
def coreArray (dom : Nat) : Bool := decide (dom < 32) && decide (dom % 4 < 2)

/-- R403: VOLTAGE_DROOP: the cores of a core-array domain stretch their clocks; timing only. -/
def execVoltageDroop (dom : Nat) (s : State) : Result :=
  .next (if coreArray dom && !s.droop.contains dom then { s with droop := dom :: s.droop } else s)

/-- R403: VOLTAGE_RECOVERY. -/
def execVoltageRecovery (dom : Nat) (s : State) : Result := .next { s with droop := s.droop.filter (· != dom) }

/-- R403: CURRENT_LIMIT: bit 48 of the domain's record is set and its cores stretch their clocks. -/
def execCurrentLimit (dom : Nat) (s : State) : Result :=
  .next (if decide (dom < 47) && !s.limited.contains dom then { s with limited := dom :: s.limited } else s)

/-- R403: CURRENT_LIMIT_RELEASE. -/
def execCurrentLimitRelease (dom : Nat) (s : State) : Result := .next { s with limited := s.limited.filter (· != dom) }

/-- R401: PTP_INPUT_LOCK. -/
def execPtpInputLock (s : State) : Result := .next { s with ptpLocked := true }

/-- R401, R362: PTP_INPUT_LOSS: the counter runs on the oscillator and a record of source 9 is made. Its class,
its unit and its syndrome are not given: free values (log entry 31). -/
def execPtpInputLoss (s : State) : Result :=
  .next (if s.ptpLocked then { s with ptpLocked := false }.report [.timeBase] ErrClass.all (some 9) 63 none 0 none
    else s)

end Sys2Proof.Machine
end

