-- ==== Sys2Proof/Machine/Sched.lean ====
section
/-!
DEFINITION. Time sharing (R310 to R319), the region watchdog (R312), and resize with migration (R320, R321).
-/
namespace Sys2Proof.Machine

/-! The ring (R310, R313). -/

/-- R310: the partitions after p in its ring, up to p. -/
def State.ringFrom (s : State) (p q : Nat) : Nat → List Nat
  | 0 => []
  | n + 1 =>
    if q = p then []
    else q :: (match (s.part q).next with
      | some r => s.ringFrom p r n
      | none => [])

/-- The other partitions of p's ring, in order. -/
def State.ring (s : State) (p : Nat) : List Nat :=
  match (s.part p).next with
  | some q => s.ringFrom p q 48
  | none => []

/-- R310: the partition has an armed launch or a saved context. -/
def State.eligible (s : State) (q : Nat) : Bool :=
  s.launches.any (fun e => e.2.part == q) || s.saved.any (fun v => v.tag == q)

/-- R315: the core set is still being handed to p. -/
def State.takingOver (s : State) (p : Nat) : Bool := (s.ring p).any (fun q => (s.part q).handsTo == some p)

/-- R310, R313: the next partition of the ring to run; one whose DEBT has reached SLICE loses this turn and SLICE of its
DEBT. -/
def State.pickNext (s : State) : List Nat → State × Option Nat
  | [] => (s, none)
  | q :: r =>
    if !s.eligible q then s.pickNext r
    else
      let x := s.part q
      if x.slice ≤ x.debt then (s.modPart q (fun x => { x with debt := x.debt - x.slice })).pickNext r
      else (s, some q)

/-- R313: a slice begins: it lasts SLICE - DEBT µs, and DEBT falls by what was subtracted. -/
def State.beginSlice (s : State) (q : Nat) : State :=
  s.modPart q (fun x => { x with
    sliceUntil := s.now + (x.slice - x.debt) * 1000
    debt := x.debt - x.slice
    sliceEnded := none
    regionWait := false })

/-- R310, R313: the turn after p's slice: the next partition of the ring that has something to run and does not lose its turn
to its DEBT, or p again when none does; p loses turns to its own DEBT too, and the ring goes round once more. -/
def State.takeTurn (s : State) (p : Nat) : Nat → State × Nat
  | 0 => (s, p)
  | n + 1 =>
    match s.pickNext (s.ring p) with
    | (s, some q) => (s, q)
    | (s, none) =>
      let x := s.part p
      if x.slice ≤ x.debt then (s.modPart p (fun x => { x with debt := x.debt - x.slice })).takeTurn p n else (s, p)

/-- How often p's DEBT can cost it a turn. -/
def Partition.turnsOwed (q : Partition) : Nat := q.debt / max 1 q.slice + 1

/-- R310, R313: the partition that runs after p. -/
def State.nextTurn (s : State) (p : Nat) : State × Nat := s.takeTurn p (s.part p).turnsOwed

/-- R310: SLICE_END: the running partition's slice ends; with no other partition to run it begins anew. -/
def State.endSlice (s : State) (p : Nat) : State :=
  let q := s.part p
  if q.next.isSome && s.running p && !s.takingOver p && q.sliceEnded.isNone && decide (q.sliceUntil ≤ s.now) then
    (if (s.ring p).any s.eligible then
      s.modPart p (fun q => { q with sliceEnded := some s.now, regionWait := !q.regions.isEmpty })
    else s.beginSlice p)
  else s

/-- R310: SLICE_END. -/
def execSliceEnd (p : Nat) (s : State) : Result := .next (s.endSlice p)

/-! Saving a core (R315, R217, R224). -/

/-- The threads of a core. -/
def threadsOfCore (c : Nat) : List Nat := ([0, 1, 2, 3] : List Nat).map (· + 4 * c)

/-- R217, R315: thread t can be saved: at a bundle boundary, with its stores and puts performed at PKG and no answer
outstanding. -/
def State.threadSaveReady (s : State) (t : Nat) : Bool :=
  let x := s.thread t
  x.buffer.isEmpty && x.puts.isEmpty
    && s.notices.all (fun n => n.engine || n.thread != t) && s.requests.all (fun e => e.2.thread != t)

/-- R224: an item of the vector queue has not begun: none of its entries has popped, moved, sent or written anything. A loop is
one entry until its last pass retires (R228). -/
def VItem.idle (q : VItem) : Bool := !q.done && !q.sent && !q.begun

/-- R315: a running MXU command completes before a save, except MX.MMA and MX.MMAD, which are saved between two K-steps. -/
def MxCmd.savable (q : MxCmd) : Bool := !q.begun || q.code == 1 || q.code == 2

/-- R224, R315, R316, R372: core c has drained for a save: its context has been resumed, no vector entry and no MXU command is
under way, and its spore capture is done. -/
def State.drained (s : State) (c : Nat) : Bool :=
  (threadsOfCore c).all s.threadSaveReady
    && (s.coreAt c).vqueue.all VItem.idle && (s.coreAt c).mxqueue.all MxCmd.savable
    && !(s.part (s.tagOf c)).spore.capturing.contains c && !s.away (s.tagOf c) c

/-- Core c can be saved now; one whose quarantine is under way moves with its cluster (R358). -/
def State.saveReady (s : State) (c : Nat) : Bool := s.drained c && !s.frozen c

/-- R187, R289, R367: a thread's wait ends at a save: an arrival, a sleep and the wait for a spore's answer stand, every other
word executes again. -/
def Thread.saved (x : Thread) : Thread :=
  match x.status with
  | .blocked (.barrier _ _) _ | .blocked (.sleep _) _ | .blocked (.spore _) _ => x
  | .blocked _ _ => { x with status := .ready, woke := none }
  | _ => x

/-- The waits of a core's threads are withdrawn (R187). -/
def State.withdrawCore (s : State) (c : Nat) : State :=
  (threadsOfCore c).foldl (fun s t => (s.withdraw t).modThread t Thread.saved) s

/-- R224, R284: a core's state at a save: the meter's whole units charged, holds ended. -/
def State.quietCore (s : State) (c : Nat) : State :=
  ((s.withdrawCore c).flushResidue c).modCore c (fun k => { k with holds := [], yields := [] })

/-- R358 step 3: the healthy cores of a quarantine's cluster. -/
def SpareWait.healthy (e : SpareWait) : List Nat := if e.whole then [] else (clusterOf e.core).filter (· != e.core)

/-- R217, R321, R358: a cluster can move: its spare is known and its healthy cores have drained. -/
def State.clusterReady (s : State) (e : SpareWait) : Bool := e.named && e.healthy.all s.drained

/-- R358: the cluster moves to its spare once it can: the healthy cores' waits end as at a save, the spare stands for the
cluster's logical cores, their ranks are VALID again, and the failed cores' threads are contained. -/
def State.moveCluster (s : State) (e : SpareWait) : State :=
  if s.clusterReady e then
    let cs := clusterOf e.core
    let s := { s with pendingSpare := s.pendingSpare.erase e, usedSpares := e.key :: s.usedSpares }
    let s := (e.healthy.foldl State.quietCore s).remapAll cs
    (cs.foldl (fun s c => s.freeRanks (s.tagOf c) [c]) s).containCores e
  else s

/-- R358, R321: the oldest quarantine whose cluster can move. -/
def State.moveDue (s : State) : Option SpareWait := s.pendingSpare.find? s.clusterReady

/-- R359, R328: the monitor names the spare of a half: the oldest quarantine that waits for it goes on; where the spare is used,
R359 ends its cluster. -/
def State.nameSpare (s : State) (key : Nat) : State :=
  match s.pendingSpare.find? (fun e => e.key == key && !e.named) with
  | none => s
  | some e =>
    let s := { s with pendingSpare := s.pendingSpare.erase e }
    if s.spareTaken key then ((clusterOf e.core).foldl (fun s c => s.freeRanks (s.tagOf c) [c]) s).exhaust e.core
    else ({ s with pendingSpare := { e with named := true } :: s.pendingSpare } : State).moveCluster { e with named := true }

/-- R359: MONITOR_NAMES_SPARE. -/
def execMonitorNamesSpare (d half : Nat) (s : State) : Result := .next (s.nameSpare (2 * d + half))

/-- The whole context of core c with all its threads. -/
def State.context (s : State) (c : Nat) : Snapshot := s.snapshot c (threadsOfCore c)

/-- R315: the context of core c is saved for its tag. -/
def State.saveCore (s : State) (c : Nat) : State :=
  let s := s.quietCore c
  let ts := threadsOfCore c
  let v : Saved := ⟨s.tagOf c, s.context c, [],
    s.blocks.filter (fun b => spadCore (256 * b) == c), s.windows.filter (fun w => ts.contains w.thread)⟩
  { s with saved := s.saved ++ [v] }

/-- The lowest rank that names core c in partition q, or c's own number (R14, R40). -/
def State.rankIn (s : State) (q c : Nat) : Nat :=
  match List.find? (fun (e : Nat × RankEntry) => e.2 == .valid c) (s.part q).ranks with
  | some e => e.1
  | none => c

/-- A core without a context, as a new tag finds it: its time and its clock run on (R306). R306 names the scratchpad, the
accumulators and the flumes; that VSHARE is 8 again and v0-v31 are 0, as at a die reset (R225), is a DESIGN CHOICE (log entry
66). -/
def Core.emptied (k : Core) (rank : Nat) : Core :=
  { Core.reset with cycle := k.cycle, phaseStart := k.cycle, clock := k.clock, chargedLast := k.chargedLast, rank := rank }

/-- R306: core c holds nothing and takes a tag. -/
def State.handCore (s : State) (c tag : Nat) : State :=
  let s := (s.setTag c tag).clearCore c
  let s := s.modCore c (fun k => k.emptied (s.rankIn tag c))
  let ts := threadsOfCore c
  { s with
    threads := s.threads.filter (fun e => coreOf e.1 != c)
    blocks := s.blocks.filter (fun b => spadCore (256 * b) != c)
    windows := s.windows.filter (fun w => !ts.contains w.thread) }

/-- R315 step 6, R306: core c is saved and takes the tag of partition q. -/
def State.switchCore (s : State) (c q : Nat) : State := (s.saveCore c).handCore c q

/-- R313: the switch of p's core set is complete: DEBT takes the time since the slice's end if a region was open in it, and
q's slice begins. -/
def State.switched (s : State) (p q : Nat) : State :=
  if s.running p then s
  else
    let s := s.modPart p (fun x => { x with
      debt := x.debt + (match x.sliceEnded with
        | some t => if x.regionWait then (s.now - t) / 1000 else 0
        | none => 0)
      sliceEnded := none
      handsTo := none
      regionWait := false })
    s.beginSlice q

/-! The switch at a superstep boundary (R314). -/

/-- R314: every running launch of p is held in STEP. -/
def State.launchesHeld (s : State) (p : Nat) : Bool :=
  s.launches.all (fun e => e.2.part != p || e.2.installed.isEmpty || e.2.members.isEmpty || e.2.held)

/-- R314: no packet of p is in flight and no copy command of its threads runs. -/
def State.trafficDone (s : State) (p : Nat) : Bool :=
  s.packets.all (fun k => k.tag != p) && s.copies.all (fun q => q.part != p || !q.running)

/-- R314: p's set can switch at its superstep boundary. -/
def State.boundaryReady (s : State) (p : Nat) : Bool :=
  s.launchesHeld p && (s.part p).regions.isEmpty && s.trafficDone p && (s.part p).cores.all s.saveReady

/-- Switches a list of cores. -/
def State.switchCores (s : State) (q : Nat) : List Nat → State
  | [] => s
  | c :: cs => (s.switchCore c q).switchCores q cs

/-- R314: the threads that a launch of partition p held in STEP are released, unless a resize still holds them. -/
def State.releaseHeld (s : State) (p : Nat) : State :=
  { s with launches := Sparse.mapValues s.launches (fun _ l =>
      if l.part = p then { l with held := l.held && (s.part p).resize.isSome } else l) }

/-- R310, R313: p has the next turn itself: its slice begins anew, and its members go on. -/
def State.runsOn (s : State) (p : Nat) : State := (s.beginSlice p).releaseHeld p

/-- R314: p's core set switches to the next partition of the ring. -/
def State.superstepSwitch (s : State) (p : Nat) : State :=
  let x := s.part p
  if x.sliceEnded.isSome && s.running p && s.boundaryReady p then
    (match s.nextTurn p with
     | (s, q) =>
       if q = p then s.runsOn p else (s.switchCores q (x.cores.filter (fun c => s.tagOf c == p))).switched p q)
  else s

/-- R314: SUPERSTEP_SWITCH. -/
def execSuperstepSwitch (p : Nat) (s : State) : Result := .next (s.superstepSwitch p)

/-! Forced pre-emption (R315). -/

/-- R315: a group partition with an armed launch of launch priority 7 that outranks p. -/
def State.urgentPart (s : State) (p : Nat) : Option Nat :=
  (s.ring p).find? (fun q => decide ((s.part p).priority < (s.part q).priority)
    && s.launches.any (fun e => e.2.part == q && field (e.2.word 0) 2 3 == 7 && e.2.installed.isEmpty))

/-- R315: the partition to which p's set is already being switched, core by core. -/
def State.switchingTo (s : State) (p : Nat) : Option Nat := (s.part p).handsTo.filter (fun q => (s.ring p).contains q)

/-- R310, R315: the partition that a forced pre-emption of a core of p gives it to, if there is cause for one; p itself when no
other has a turn (R313). While the set is being handed to p, p gives none back. -/
def State.forcedTarget (s : State) (p : Nat) : State × Option Nat :=
  match s.switchingTo p with
  | some q => (s, some q)
  | none =>
    if s.takingOver p then (s, none) else
    match s.urgentPart p with
    | some q => (s, some q)
    | none =>
      match (s.part p).sliceEnded with
      | some t => if t + (s.part p).slice * 1000 ≤ s.now then (match s.nextTurn p with | (s, q) => (s, some q)) else (s, none)
      | none => (s, none)

/-- R311, R315: core c is saved and given to another partition, when no region is open on it and it can be saved. -/
def State.preempt (s : State) (c : Nat) : State :=
  let p := s.tagOf c
  if (Sparse.find? (s.part p).regions c).isSome || !s.saveReady c || !s.partExists p then s
  else match s.forcedTarget p with
    | (_, none) => s
    | (s, some q) =>
      if q = p then s.runsOn p
      else ((s.modPart p (fun x => { x with handsTo := some q })).switchCore c q).switched p q

/-- R315: FORCED_PREEMPTION. -/
def execForcedPreemption (c : Nat) (s : State) : Result := .next (s.preempt c)

/-! Resume (R316, R319). -/

/-- R316: a core's record as restored: CYCLE, the clock and the meter run on, PHASECYC goes on from its saved value. -/
def Core.restored (k now : Core) : Core :=
  { k with
    cycle := now.cycle
    phaseStart := now.cycle - k.phaseCyc
    level := now.level
    clock := now.clock
    residue := now.residue
    chargedLast := now.chargedLast
    meterRate := now.meterRate
    issuedLast := now.issuedLast }

/-- A restored thread's wait begins its time again (log entry 32). -/
def Thread.resumed (x : Thread) (now : Nat) : Thread :=
  match x.status with
  | .blocked w _ => { x with status := .blocked w now }
  | _ => x

/-- Puts the threads of a context back. -/
def State.putThreads (s : State) : List (Nat × Thread) → State
  | [] => s
  | (t, x) :: r => (s.setThread t (x.resumed s.now)).putThreads r

/-- R316, R319: a saved context returns to core c, and its spill ring is replayed before any new packet. The time that its
entries and commands have headed their queues runs on over the save: the spec does not say whether it counts toward the
watchdog of R223 (DESIGN CHOICE, log entry 67). -/
def State.restoreCore (s : State) (c : Nat) (v : Saved) : State :=
  let s := s.modCore c (fun k => v.snapshot.state.restored k)
  let s := s.putThreads v.snapshot.threads
  let ts := threadsOfCore c
  let s := { s with
    mem := Memory.restore (Memory.clear s.mem (spadKey c 0) (2^20)) v.snapshot.cells
    poison := s.poison ++ v.snapshot.poison
    blocks := s.blocks ++ v.blocks
    windows := v.windows ++ s.windows.filter (fun (w : Replayed) => !ts.contains w.thread)
    packets := v.ring.map (fun (k : Packet) => { k with ejected := true, ring := true }) ++ s.packets
    saved := s.saved.filter (fun w => !(w.tag == v.tag && w.snapshot.core == c)) }
  (s.releaseHeld v.tag).relevel c

/-- R316: a saved core is restored when its core carries the context's tag. -/
def State.resumeCore (s : State) (c : Nat) : State :=
  match s.savedFor (s.tagOf c) c with
  | some v => s.restoreCore c v
  | none => s

/-- R316: CORE_RESUME. -/
def execCoreResume (c : Nat) (s : State) : Result := .next (s.resumeCore c)

/-! Regions (R312). -/

/-- WATCHDOG is raised in a thread that holds a context. -/
def Thread.watchdog (x : Thread) : Thread :=
  match x.status with
  | .free | .halted => x
  | _ => x.pend .watchdog 0 0

/-- R312: WATCHDOG is raised in every thread of core c that holds a context of partition p, where it lives. -/
def State.watchdogCore (s : State) (p c : Nat) : State :=
  if s.away p c || s.tagOf c == p then
    (threadsOfCore c).foldl (fun s t =>
      let s := s.modThreadFor p t Thread.watchdog
      if s.away p c then s else match (s.thread t).status with
        | .free | .halted => s
        | _ => s.deliverNow t) s
  else s

/-- R312: partition p's region of core c has been open for WDOG µs. -/
def State.regionLate (s : State) (p c : Nat) : Bool :=
  match Sparse.find? (s.part p).regions c with
  | some t => decide (t + s.watchdogTime p ≤ s.now)
  | none => false

/-- R312: the region of partition p on core c is closed when it has been open for WDOG µs, with WATCHDOG in the core's threads. -/
def State.regionCloses (s : State) (p c : Nat) : State :=
  if s.regionLate p c then
    (s.modPart p (fun q => { q with regions := Sparse.erase q.regions c })).watchdogCore p c
  else s

/-- R312: the same for every partition that has a region open on core c. -/
def State.regionExpires (s : State) (c : Nat) : State := (Sparse.keys s.parts).foldl (fun s p => s.regionCloses p c) s

/-- R312: a core with a region that has been open for WDOG µs. -/
def State.regionDue (s : State) : Option Nat :=
  s.parts.findSome? (fun e => e.2.regions.findSome? (fun r => if s.regionLate e.1 r.1 then some r.1 else none))

/-- R312: REGION_WATCHDOG. -/
def execRegionWatchdog (c : Nat) (s : State) : Result := .next (s.regionExpires c)

/-! Migration (R321): a core's context moves, and every place that names its threads follows. -/

/-- A thread number after core a's threads have become core b's. -/
def movedThread (a b t : Nat) : Nat := if coreOf t = a then 4 * b + t % 4 else t

/-- A scratchpad key after the move. -/
def movedKey (a b k : Nat) : Nat := if isSpad k ∧ spadCore k = a then k - spadKey a 0 + spadKey b 0 else k

/-- What asks for a credit, with its thread renamed. -/
def Asker.moved (f : Nat → Nat) : Asker → Asker
  | .thread t => .thread (f t)
  | .packet k => .packet k

/-- A channel with its waiting threads renamed. -/
def Channel.moved (q : Channel) (f : Nat → Nat) : Channel :=
  { q with
    asking := q.asking.map (·.moved f)
    granted := q.granted.map f
    waiting := q.waiting.map f
    claimed := q.claimed.map (fun e => (f e.1, e.2)) }

/-- A queued entry with its thread and its addresses renamed. -/
def VEntry.moved (e : VEntry) (f g : Nat → Nat) : VEntry := { e with thread := f e.thread, addrs := e.addrs.map g }

/-- A core's record with its threads renamed. -/
def Core.moved (k : Core) (f g : Nat → Nat) : Core :=
  { k with
    channels := Sparse.mapValues k.channels (fun _ q => q.moved f)
    vqueue := k.vqueue.map (fun q => { q with thread := f q.thread, body := q.body.map (fun e => e.moved f g) })
    mxqueue := k.mxqueue.map (fun c => { c with thread := f c.thread })
    slotHeld := k.slotHeld.map (fun e => (f e.1, e.2))
    yields := k.yields.map (fun y => (f y.1, y.2.map f)) }

/-- A thread's replay buffer and its puts into the moved core's scratchpad, renamed. -/
def Thread.moved (x : Thread) (f g : Nat → Nat) : Thread :=
  { x with replay := x.replay.map (fun e => e.moved f g), puts := x.puts.map (fun w => { w with a := g w.a }) }

/-- A snapshot with its threads renamed; a snapshot of the moved core is one of its new core. -/
def Snapshot.moved (v : Snapshot) (a b : Nat) (f g : Nat → Nat) : Snapshot :=
  { core := if v.core = a then b else v.core
    state := v.state.moved f g
    threads := v.threads.map (fun e => (f e.1, e.2.moved f g))
    cells := v.cells.map (fun c => (g c.1, c.2))
    poison := v.poison.map g }

/-- A core number after the move. -/
def movedCore (a b c : Nat) : Nat := if c = a then b else c

/-- A packet after the move: its source and the core that its rank names. -/
def Packet.moved (k : Packet) (p a b : Nat) (f : Nat → Nat) : Packet :=
  if k.tag = p then { k with source := f k.source, dest := movedCore a b k.dest } else k

/-- An agent after the move. -/
def Agent.moved (a b : Nat) : Agent → Agent
  | .ni c => .ni (movedCore a b c)
  | .basin => .basin
  | .weir => .weir
  | .slice d n => .slice d n
  | .hostIO => .hostIO
  | .optical => .optical

/-- A spore's captures after the move: a member's context has gone to another core, whose NI is the one that markers name. -/
def Spore.moved (sp : Spore) (a b : Nat) (f g : Nat → Nat) : Spore :=
  { sp with
    snaps := sp.snaps.map (fun v => v.moved a b f g)
    capturing := sp.capturing.map (movedCore a b)
    markers := sp.markers.map (fun m =>
      (m.1, if m.1 = sp.pkg then movedCore a b m.2.1 else m.2.1, movedCore a b m.2.2)) }

/-- R321: a domain of the moved core's die names the new core in its place. -/
def Domain.moved (d : Domain) (a b : Nat) (f : Nat → Nat) : Domain :=
  { d with
    cores := if d.cores.getLsbD (a % 128) then
        (d.cores &&& ~~~ (1#128 <<< (a % 128))) ||| (1#128 <<< (b % 128))
      else d.cores
    arrived := d.arrived.map f
    left := d.left.map (fun e => (f e.1, e.2))
    early := d.early.map (fun e => (e.1, f e.2)) }

/-- A launch with its threads renamed. -/
def Launch.moved (l : Launch) (a b : Nat) (f g : Nat → Nat) : Launch :=
  { l with
    members := l.members.map f
    waiting := l.waiting.map f
    log := l.log.map (fun v => v.moved a b f g) }

/-- A partition with its fault records, its spore and its moved rank renamed. -/
def Partition.moved (q : Partition) (a b : Nat) (f g : Nat → Nat) : Partition :=
  { q with
    spore := q.spore.moved a b f g
    ranks := Sparse.mapValues q.ranks (fun _ e => if e = .valid a then .valid b else e)
    slots := Sparse.mapValues q.slots (fun _ r => { r with thread := f r.thread })
    unrecorded := q.unrecorded.map (fun r => { r with thread := f r.thread }) }

/-- Where the state names a thread of core a, it names core b's. -/
def State.renamed (s : State) (p a b : Nat) : State :=
  let f := movedThread a b
  let g := movedKey a b
  { s with
    threads := Sparse.mapValues s.threads (fun _ x => x.moved f g)
    cores := Sparse.mapValues s.cores (fun _ k => k.moved f g)
    saved := s.saved.map (fun v => if v.tag = p then
      { v with
        snapshot := v.snapshot.moved a b f g
        ring := v.ring.map (fun k => k.moved p a b f)
        windows := v.windows.map (fun w => { w with agent := w.agent.moved a b }) } else v)
    sems := Sparse.mapValues s.sems (fun _ x => { x with waiting := x.waiting.map f, granted := x.granted.map f })
    sluice := s.sluice.map (fun w => { w with thread := f w.thread })
    copies := s.copies.map (fun q => if q.part = p then { q with thread := f q.thread } else q)
    requests := Sparse.mapValues s.requests (fun _ r =>
      { r with thread := f r.thread, a := g r.a, agent := r.agent.moved a b })
    packets := s.packets.map (fun k => k.moved p a b f)
    notices := s.notices.map (fun n => { n with thread := f n.thread })
    windows := s.windows.map (fun w => { w with thread := f w.thread, agent := w.agent.moved a b })
    domains := s.domains.map (fun e => (e.1, if e.1 / 16 = dieOf a then e.2.moved a b f else e.2))
    launches := Sparse.mapValues s.launches (fun _ l => if l.part = p then l.moved a b f g else l)
    parts := s.parts.map (fun e => (e.1, if e.1 = p then e.2.moved a b f g else e.2))
    blocks := s.blocks.map (fun k => g (256 * k) / 256)
    poison := s.poison.map g }

/-- R321: partition p's context of core a moves to core b of the same die: queues, tables, scratchpad and threads. -/
def State.migrate (s : State) (p a b : Nat) : State :=
  let s := s.quietCore a
  let v := s.context a
  let s := (s.setTag b p).clearCore b
  let s := s.renamed p a b
  let v := v.moved a b (movedThread a b) (movedKey a b)
  let s := s.modCore b (fun k => v.state.restored k)
  let s := s.putThreads v.threads
  let s := { s with mem := Memory.restore s.mem v.cells }
  (s.handCore a 63).relevel b

/-! Resize (R320). -/

/-- A thread of core c holds a context. -/
def State.occupied (s : State) (c : Nat) : Bool := (threadsOfCore c).any (fun t => (s.thread t).status != .free)

/-- R320: a core of no partition that works. -/
def State.coreFree (s : State) (c : Nat) : Bool :=
  s.tagOf c == 63 && !s.quarantined.contains (s.tagKey c) && !s.parts.any (fun e => e.2.cores.contains c)

/-- R320: for each removed core that holds a context, the free core of its die to which it moves: an added one where the monitor
names one, else one that the dispatcher chooses, the lowest (DEDUCED, log entry 51); none when one finds no free core. -/
def State.moves (s : State) (free : List Nat) : List Nat → Option (List (Nat × Nat))
  | [] => some []
  | a :: r =>
    if !s.occupied a then s.moves free r
    else match free.find? (fun b => dieOf b == dieOf a) with
      | none => none
      | some b => (s.moves (free.filter (· != b)) r).map ((a, b) :: ·)

/-- Moves the contexts of a list. -/
def State.migrateAll (s : State) (p : Nat) : List (Nat × Nat) → State
  | [] => s
  | (a, b) :: r => (s.migrate p a b).migrateAll p r

/-- R320: the rank that an added core takes: its own number, or the lowest that is INVALID. -/
def State.newRank (s : State) (p c : Nat) : Nat :=
  if Sparse.get (s.part p).ranks c .invalid = .invalid then c
  else ((List.range 1024).find? (fun r => Sparse.get (s.part p).ranks r .invalid == .invalid)).getD c

/-- R320: an added core takes the partition's tag and a VALID rank. -/
def State.addCore (s : State) (p c : Nat) : State :=
  let s := s.modPart p (fun q => { q with ranks := Sparse.set q.ranks (s.newRank p c) (.valid c) })
  s.handCore c p

/-- R320: a removed core without a context leaves: its rank becomes INVALID and it takes tag 63. -/
def State.dropCore (s : State) (p c : Nat) : State :=
  (s.modPart p (fun q => { q with
    ranks := Sparse.mapValues q.ranks (fun _ e => if e = .valid c then .invalid else e) })).handCore c 63

/-- R320, R392: the resize of partition p ends: the command's event is written and the members are released. -/
def State.resizeEnds (s : State) (p : Nat) (htag : BitVec 32) (status : Nat) : State :=
  ((s.modPart p (fun q => { q with resize := none })).releaseHeld p).post 0 ⟨1, p, htag, word status, []⟩

/-- R320: a resize takes effect: whole, or not at all with status NOSPACE. A core that the dispatcher has chosen for a removed
one's context belongs to the partition too. -/
def State.resizeNow (s : State) (p : Nat) (new : List Nat) (htag : BitVec 32) : State :=
  let old := (s.part p).cores
  let added := new.filter (fun c => !old.contains c)
  let gone := old.filter (fun c => !new.contains c)
  let others := (List.range 1024).filter (fun c => !new.contains c && s.coreFree c)
  match if added.all s.coreFree then s.moves (added ++ others) gone else none with
  | none => s.resizeEnds p htag 4
  | some mv =>
    let s := s.migrateAll p mv
    let s := (gone.filter (fun c => !mv.any (fun e => e.1 == c))).foldl (fun s c => s.dropCore p c) s
    let s := (added.filter (fun c => !mv.any (fun e => e.2 == c))).foldl (fun s c => s.addCore p c) s
    let extra := (mv.map (·.2)).filter (fun c => !new.contains c)
    (s.modPart p (fun q => { q with cores := sortBy id (new ++ extra) })).resizeEnds p htag 0

/-- R320: the resize of p can take effect: its cores carry its tag, but for the dead ones (R359), and its set is at a boundary
as in R314 or no launch runs; the cores that move can be saved. -/
def State.resizeReady (s : State) (p : Nat) (new : List Nat) : Bool :=
  let q := s.part p
  q.cores.all (fun c => s.tagOf c == p || s.quarantined.contains (s.tagKey c))
    && (s.launches.all (fun e => e.2.part != p || e.2.installed.isEmpty) || s.boundaryReady p)
    && (q.cores.filter (fun c => !new.contains c)).all s.saveReady

/-- R320: a resize that was asked for takes effect when it can. -/
def State.applyResize (s : State) (p : Nat) : State :=
  match (s.part p).resize with
  | some (new, htag) => if s.resizeReady p new then s.resizeNow p new htag else s
  | none => s

end Sys2Proof.Machine
end

