-- ==== Sys2Proof/Machine/SporeEvents.lean ====
section
/-!
DEFINITION. A spore's steps on this package: the start (R369), core captures (R371, R372, R384), background copies (R374),
markers (R377), sealing, commit and failure (R381, R385, R386).
-/
namespace Sys2Proof.Machine

/-! The start. -/

/-- R369, R385: the start arrives: the package is ARMED for the epoch; with its launch already ended the spore fails. -/
def State.armSpore (s : State) (p : Nat) : State :=
  let sp := (s.part p).spore
  if sp.busy || sp.cur == sp.epoch then s
  else
    let s := s.modSpore p (fun sp => { sp with state := .armed, cur := sp.epoch, fail := 0 })
    match sp.launch.bind (fun l => Sparse.find? s.launches l) with
    | some _ => s
    | none => s.failSpore p 7

/-- R369: SPORE_ARM. -/
def execSporeArm (p : Nat) (s : State) : Result := .next (s.armSpore p)

/-! Context blocks (R384). -/

/-- Zero bytes. -/
def zeros (n : Nat) : List Byte := List.replicate n 0

/-- A list of bytes cut or filled with zeros to a length. -/
def fit (bs : List Byte) (n : Nat) : List Byte := (bs ++ zeros n).take n

/-- R384: the receive queues in canonical form. -/
def queueBytes (k : Core) : List Byte :=
  (List.range 32).flatMap (fun ch =>
    let q := Sparse.get k.channels ch Channel.reset
    fit ((q.claimed.map (·.2) ++ q.queue).flatMap Message.entry) 1024)

/-- The little-endian bytes of a vector register. -/
def vregBytes (v : BitVec 1024) : List Byte := leBytes v.toNat 128

/-- R384: the sixteen bytes of flume n. -/
def flumeBytes (f : Flume) (n : Nat) : List Byte :=
  if f.configured then
    leBytes f.word.toNat 8 ++ leBytes f.base 4 ++ leBytes f.k 1 ++ leBytes n 1 ++ leBytes f.size 2
  else zeros 13 ++ leBytes n 1 ++ zeros 2

/-- R384: the sixteen bytes of a binding of v28-v31. -/
def bindBytes : Option Bind → List Byte
  | none => zeros 16
  | some b => leBytes (2^63 + b.wo * 2^40 + b.ro * 2^20 + b.bound * 2^8 + b.fl.toNat) 8 ++ zeros 8

/-- R384: the seventeen registers at 0x208 of a thread area, in their order. -/
def threadWords (x : Thread) (priority : Nat) : List Nat :=
  [x.fcsr.toNat, x.lfsr.toNat, x.vl, x.lpstart.toNat, x.lpend.toNat, x.lpcount.toNat, x.lpouter.toNat, x.mxfmta.toNat,
   x.mxfmtb.toNat, x.mxbanda.toNat, x.mxbandb.toNat, x.mxout.toNat, priority * 2^8 + x.rclass.toNat, bit x.met,
   x.sigstat.toNat, x.ticket.toNat, x.reqno.toNat]

/-- R384: the 2 KiB of a thread. -/
def threadArea (x : Thread) (priority : Nat) : List Byte :=
  fit (x.regs.toList.flatMap (fun (w : Word) => leBytes w.toNat 8) ++ leBytes x.pc.toNat 8
    ++ (threadWords x priority).flatMap (fun n => leBytes n 8)
    ++ leBytes x.fifo.length 8 ++ leBytes (x.chkC.toNat * 512 + x.chkD.toNat) 8 ++ leBytes (bit x.wake) 8
    ++ leBytes x.index 8) 0x400
  ++ fit (x.fifo.flatMap (fun e => leBytes e.lo.toNat 8 ++ leBytes e.hi.toNat 8)) 0x400

/-- R384: the context block of a captured core. -/
def contextBlock (g : Snapshot) (priority : Nat) : List Byte :=
  let k := g.state
  Memory.readBytes g.cells (spadKey g.core 0) 0xF8000 ++ queueBytes k
    ++ k.vregs.toList.flatMap vregBytes
    ++ (List.range 65536).flatMap (fun e => leBytes (k.acc (e / 16384) (e / 128 % 128) (e % 128)) 4)
    ++ (List.range 16).flatMap (fun n => flumeBytes (k.flumes.toList.getD n Flume.reset) n)
    ++ k.binds.toList.flatMap bindBytes
    ++ fit (leBytes k.vshare.toNat 8) 192
    ++ ([0, 1, 2, 3] : List Nat).flatMap (fun i =>
        match List.find? (fun (e : Nat × Thread) => e.1 % 4 == i) g.threads with
        | some e => threadArea e.2 priority
        | none => zeros 0x800)

/-- R384: the threads captured, one bit each. -/
def Snapshot.captured (g : Snapshot) : BitVec 4 :=
  BitVec.ofNat 4 (g.threads.foldl (fun a e => a + 2^(e.1 % 4)) 0)

/-! Captures (R371, R372). -/

/-- R353, R384: a logged or captured member still has its completed BAR or STEP at domain number n before it. -/
def Thread.leavesAt (x : Thread) (n : Nat) : Bool :=
  x.status == .ready && (match x.woke with
    | some (.barrier k _) => k % 16 == n
    | _ => false)

/-- A member of a snapshot still has its word at domain number n before it. -/
def Snapshot.leavesAt (g : Snapshot) (n : Nat) : Bool := g.threads.any (fun e => e.2.leavesAt n)

/-- R372, R381, R384: a captured block goes into the image area. -/
def State.placeBlock (s : State) (p : Nat) (g : Snapshot) : State :=
  let sp := (s.part p).spore
  let bs := contextBlock g (s.part p).priority
  match sp.place bs.length with
  | none => s.failSpore p 2
  | some (a, sp') =>
    let sp' := { sp' with
      blocks := sp.blocks ++ [(g.state.rank, a, Sha.sha256 bs, g.captured)]
      capturing := sp.capturing.filter (· != g.core) }
    match (s.modSpore p (fun _ => sp')).areaPut p (word a) bs with
    | some s => (match sp'.launch with
      | some l => s.settleLaunch l
      | none => s)
    | none => s.failSpore p 2

/-- R385: a core's captured scratchpad holds poisoned data: at the cut, or in a log block that nothing has written since. -/
def State.capturePoisoned (s : State) (p : Nat) (g : Snapshot) : Bool :=
  !g.poison.isEmpty || (match s.savedFor p g.core with
    | some v => v.snapshot.poison.any (fun a => !v.blocks.contains (a / 256))
    | none => s.poison.any (fun a => isSpad a && spadCore a == g.core && !s.blocks.contains (a / 256)))

/-- R372: core c of partition p finishes its capture. -/
def State.captureFor (s : State) (c p : Nat) : State :=
  let sp := (s.part p).spore
  if sp.state != .capture || !sp.capturing.contains c then s
  else match sp.snaps.find? (fun g => g.core == c) with
    | none => s
    | some g =>
      if g.leavesAt sp.domain then s
      else if s.capturePoisoned p g then s.failSpore p 3
      else s.placeBlock p g

/-- R372: core c finishes its capture for each partition that has one under way there. -/
def State.captureCore (s : State) (c : Nat) : State := (s.partsOn c).foldl (fun s p => s.captureFor c p) s

/-- R385, R346: a capture or a channel log that is under way on core c meets an uncorrectable error in what it copies. -/
def State.captureFails (s : State) (c : Nat) : State :=
  (s.partsOn c).foldl (fun s p =>
    let sp := (s.part p).spore
    if sp.state == .capture && (sp.capturing.contains c || sp.log.any (fun r => s.rankCore p r.receiver == some c)) then
      s.failSpore p 3
    else s) s

/-- R372: CORE_CAPTURE_DONE. -/
def execCoreCaptureDone (c : Nat) (s : State) : Result := .next (s.captureCore c)

/-- R374: BACKGROUND_PAGE_COPY. -/
def execBackgroundPageCopy (p : Nat) (va : Word) (s : State) : Result :=
  .next (if (s.part p).spore.state = .capture then s.copyHeld p (va.toNat / 65536 * 65536) else s)

/-! Markers (R377, R378). -/

/-- R377: a packet of partition p is on its way to core c, in a link or in its spill ring, that its sender sent before its
cut. -/
def State.uncutTo (s : State) (p : Nat) (sender : Option (Nat × Nat)) (c : Nat) : Bool :=
  (s.packets ++ s.saved.flatMap (·.ring)).any (fun k => k.tag == p && k.uncut (s.part p).spore && k.dest == c &&
    (match sender with
     | some x => x == (k.pkg, coreOf k.source)
     | none => true))

/-- R377: a packet from core `sender` of a package is on its way to core c. -/
def State.underWay (s : State) (p pkg sender c : Nat) : Bool :=
  (s.packets ++ s.saved.flatMap (·.ring)).any (fun k => k.tag == p && k.dest == c && k.pkg == pkg && coreOf k.source == sender)

/-- R377: a marker of core `sender` of a package reaches core c's NI, behind every packet that its sender sent before its cut.
Those of this package's cores are sent at its cut; another's can come before it (R378). -/
def State.markerFor (s : State) (pkg sender c p : Nat) : State :=
  let sp := (s.part p).spore
  if !sp.started || sp.state == .sealing || sp.markers.contains (pkg, sender, c) then s
  else if pkg = sp.pkg ∧ (sp.state ≠ .capture ∨ s.uncutTo p (some (pkg, sender)) c) then s
  else if pkg ≠ sp.pkg ∧ s.underWay p pkg sender c then s
  else s.modSpore p (fun sp => { sp with markers := sp.markers ++ [(pkg, sender, c)] })

/-- The same for each partition with threads on the core. -/
def State.markerArrives (s : State) (pkg sender c : Nat) : State :=
  (s.partsOn c).foldl (fun s p => s.markerFor pkg sender c p) s

/-- R377: MARKER_ARRIVAL. -/
def execMarkerArrival (pkg sender c : Nat) (s : State) : Result := .next (s.markerArrives pkg sender c)

/-- R369, R377: every NI of the job here holds the marker of every other NI of the job, on every package. -/
def Spore.markersIn (sp : Spore) : Bool :=
  let cs := sp.snaps.map (·.core)
  cs.all (fun c => cs.all (fun x => x == c || sp.markers.contains (sp.pkg, x, c))
    && sp.peers.all (fun x => sp.markers.contains (x.1, x.2, c))
    && (List.range sp.packages).all (fun k => k == sp.pkg || sp.markers.any (fun m => m.1 == k && m.2.2 == c)))

/-! Sealing, commit and failure (R369, R381, R385, R386). -/

/-- R369: the package can seal: pages copied, cores captured, markers in. -/
def State.sealReady (s : State) (p : Nat) : Bool :=
  let sp := (s.part p).spore
  sp.state == .capture && sp.pages.all (·.copied) && sp.capturing.isEmpty && sp.markersIn
    && sp.snaps.all (fun g => !s.uncutTo p none g.core)

/-- R369, R381, R328: the manifest is written with status 0 and the package sends ready; in host-assisted manifest writing
the monitor is asked to write it. -/
def State.sealSpore (s : State) (p : Nat) : State :=
  if !s.sealReady p then s
  else
    let sp := (s.part p).spore
    let byHost := s.modes.getLsbD 5
    let sealed := s.modSpore p (fun sp => { sp with state := .sealing, ready := true, byHost := byHost })
    if byHost then sealed.post 0 ⟨9, p, 0, word sp.epoch, [word sp.epoch]⟩
    else
      let bs := sp.manifestBytes p sp.record 0
      if sp.manifestLen.toNat < bs.length then s.failSpore p 2
      else match sealed.areaPut p sp.manifest bs with
        | some s => s
        | none => s.failSpore p 2

/-- R369: SPORE_SEAL. -/
def execSporeSeal (p : Nat) (s : State) : Result := .next (s.sealSpore p)

/-- R386, R385: the spore commits: the header and the status word are written, leaves return to NORMAL, the job's last committed
epoch is the spore's, and the events are posted. It fails with AREA where the manifest area does not take the header. -/
def State.commitSpore (s : State) (p : Nat) : State :=
  let sp := (s.part p).spore
  if sp.state != .sealing || !sp.ready then s
  else
    match s.finishManifest p 1 with
    | none => s.failSpore p 2
    | some s =>
      let s := s.releaseLeaves none (heldLeaves sp.pages)
      let s := s.modSpore p (fun sp => { sp with state := .committed, last := sp.epoch, lastManifest := sp.manifest.toNat })
      let s := s.postSpore p 1
      s.modSpore p (fun sp => { sp with pages := [], snaps := [], ready := false })

/-- R386: SPORE_COMMIT. -/
def execSporeCommit (p : Nat) (s : State) : Result := .next (s.commitSpore p)

/-- R385: SPORE_FAIL: PEER from the coordinating Weir fails a spore under way; the other causes are found where they
arise. -/
def execSporeFail (p cause : Nat) (s : State) : Result :=
  .next (if (s.part p).spore.busy && cause == 6 then s.failSpore p cause else s)

end Sys2Proof.Machine
end

