-- ==== Sys2Proof/Machine/Frames.lean ====
section
/-!
DEFINITION. Frame scrubbing (R326, R328), cold reset (R397, R407, R408), the host's accesses to device memory (R390, R203,
R204), the register window of a function (R389, R395) and the management controller (R363, R409 to R411).
-/
namespace Sys2Proof.Machine

/-! Frames (R326). -/

/-- The bytes of a frame. -/
def frameBytes : Nat := 2^21

/-- The state of frame f, a frame number, set. -/
def State.setFrame (s : State) (f : Nat) (v : Frame) : State := { s with frames := Sparse.set s.frames f v }

/-- R326: a frame is zeroed in HBM and every copy of it invalidated. -/
def State.zeroFrame (s : State) (f : Nat) : State :=
  let a := f * frameBytes
  { s with
    mem := Memory.clear s.mem a frameBytes
    stale := Sparse.eraseRange s.stale a frameBytes
    noticed := s.noticed.filter (fun l => l / (frameBytes / 64) != f)
    poison := s.poison.filter (fun g => g / frameBytes != f) }

/-- R326, R395: a frame is CLEAN and the monitor receives its clean-complete event. -/
def State.frameClean (s : State) (f : Nat) : State :=
  { s.setFrame f .clean with hostScrubs := s.hostScrubs.filter (· != f) }.post 0 ⟨5, 63, 0, word (f * frameBytes), [word (f * frameBytes)]⟩

/-- R326: frame f has been zeroed: a freed one becomes CLEAN with its event, one of the boot scrub without. -/
def State.scrubbed (s : State) (f : Nat) : State :=
  match Sparse.find? s.frames f with
  | some .scrubbing => if s.hostScrubs.contains f then s else (s.zeroFrame f).frameClean f
  | some _ => s
  | none =>
    if isHbm (f * frameBytes) && !s.bootScrubbed && decide (3 ≤ s.stagesUp) then (s.zeroFrame f).setFrame f .clean else s

/-- R326: FRAME_SCRUB_COMPLETE for frame number f. -/
def execFrameScrubComplete (f : Nat) (s : State) : Result := .next (s.scrubbed f)

/-- R326, R397: the boot scrub ends: every HBM frame that is still SCRUBBING from the cold reset is zero and CLEAN. -/
def State.bootClean (s : State) : State :=
  if s.bootScrubbed || decide (s.stagesUp < 3) then s
  else
    let inBoot (a : Nat) : Bool := isHbm a && (Sparse.find? s.frames (a / frameBytes)).isNone
    { s with
      bootScrubbed := true
      mem := s.mem.filter (fun c => !inBoot c.1)
      stale := s.stale.filter (fun e => !inBoot e.1)
      noticed := s.noticed.filter (fun l => !inBoot (64 * l))
      poison := s.poison.filter (fun g => !inBoot g) }.post 0 ⟨5, 63, 0, BitVec.allOnes 64, [BitVec.allOnes 64]⟩

/-- R326: BOOT_SCRUB_COMPLETE. -/
def execBootScrubComplete (s : State) : Result := .next s.bootClean

/-- R328: the Basin invalidates every copy of a frame that the monitor has zeroed, without write-back: a line dirty in an L2
falls back to the Basin's copy. -/
def State.invalidateFrame (s : State) (f : Nat) : State :=
  let mine := s.stale.filter (fun e => e.1 / frameBytes == f)
  { s with
    mem := Memory.restore s.mem mine
    stale := s.stale.filter (fun e => e.1 / frameBytes != f)
    noticed := s.noticed.filter (fun l => l / (frameBytes / 64) != f) }

/-- R328, R326: BASIN_INVALIDATE_REQUEST, in host-assisted frame scrub. -/
def execBasinInvalidateRequest (f : Nat) (s : State) : Result :=
  .next (match Sparse.find? s.frames f with
    | some .scrubbing => if s.hostScrubs.contains f then (s.invalidateFrame f).frameClean f else s
    | _ => s)

/-! Cold reset (R397). -/

/-- R407: stage n of a firmware image may run: its key chains to the root key of the fuses, its signature holds, and its
version is not below the fused one. -/
def State.stageRuns (s : State) (image : List Byte) (n : Nat) : Bool :=
  Config.keyChains Config.rootKeyHash image n && Config.signatureHolds image n && decide (s.version ≤ Config.stageVersion image n)

/-- R407, R410: each of the eight stages of a firmware image may run. -/
def State.imageRuns (s : State) (image : List Byte) : Bool := (List.range 8).all (s.stageRuns image)

/-- R397, R407, R408: the package after a cold reset in which stage `failed` (1-6) of the bring-up fails, or none does, the
first one where the firmware chain has a stage that may not run: the state of `State.reset`, with host and fabric memory, the
agenda and the firmware kept; a stored image takes effect and raises the fused version. -/
def State.coldReset (s : State) (failed : Nat) : State :=
  let fw := s.staged.getD s.firmware
  let up := if !s.imageRuns fw then 0 else if 1 ≤ failed ∧ failed ≤ 6 then failed - 1 else 6
  let s' := { State.reset with
    mem := s.mem.filter (fun c => decide (8 ≤ classOf c.1) && !isSpad c.1)
    firmware := fw
    version := match s.staged with
      | some b => max s.version (Config.imageVersion b)
      | none => s.version
    stagesUp := up
    agenda := s.agenda
    testFails := s.testFails
    freeCount := s.freeCount }
  if up = 6 then s' else s'.report ErrSource.all ErrClass.all none 63 none 0 none

/-- R397: COLD_RESET. -/
def execColdReset (stage : Nat) (s : State) : Result := .next (s.coldReset stage)

/-! The host's accesses (R390). -/

/-- R389: the function exists and the link is up. -/
def State.fnExists (s : State) (f : Nat) : Bool := decide (5 ≤ s.stagesUp) && (f == 0 || (decide (f ≤ 48) && s.partExists (f - 1)))

/-- R390, R335, R327: the host address of a function's access at an address, or none where it is refused. -/
def State.hostAddress (s : State) (f gpa : Nat) (k : Access) : Option Nat :=
  if f = 0 then (if isHbm gpa then some gpa else none)
  else
    let p := f - 1
    let e := if gpa < 2^40 then (Sparse.get (s.part p).s2 (gpa / 2^21) 0).toNat else 0
    let h := s2address e gpa
    let ok : Bool := match s.frameAt h with
      | .assigned q => q == p
      | .shared => !k.writes
      | _ => false
    if s2permitted k e && ok then some h else none

/-- R374, R334: T is set in the leaves of a list that map a host page. -/
def State.touchAt (s : State) (p a : Nat) : List HeldPage → State
  | [] => s
  | g :: gs =>
    (if s.standsAt p a g ∧ !g.refused then
      s.writeBytesAt g.leaf (leBytes (s.readAt g.leaf 8 ||| 2^9) 8) else s).touchAt p a gs

/-- R374: a page of partition p at a host address refuses writes: a leaf that maps it has SP 11. -/
def State.refusesAt (s : State) (p a : Nat) : Bool :=
  (s.allPages p).any (fun g => g.refused && s.standsAt p a g)

/-- R374: before a host write at a host address its page is copied where a spore holds it, and T is set. -/
def State.beforeHostWrite (s : State) (a : Nat) : List Nat → State
  | [] => s
  | p :: ps =>
    let s := s.imagePage p a
    (s.touchAt p a (s.allPages p)).beforeHostWrite a ps

/-- The partitions whose pages a function's write can meet. -/
def State.partsOfFn (s : State) (f : Nat) : List Nat := if f = 0 then Sparse.keys s.parts else [f - 1]

/-- R390, R204: a host read, page by page; none where a page is refused. -/
def State.hostBytes (s : State) (f gpa n : Nat) : Nat → Option (List Byte)
  | 0 => if n = 0 then some [] else none
  | fuel + 1 =>
    if n = 0 then some []
    else
      let k := min n (65536 - gpa % 65536)
      match s.hostAddress f gpa .load with
      | none => none
      | some a => (s.hostBytes f (gpa + k) (n - k) fuel).map (s.basinBytes a k ++ ·)

/-- R390, R201: a host write, page by page; none where a page is refused. -/
def State.hostPut (s : State) (f gpa : Nat) (bs : List Byte) : Nat → Option State
  | 0 => if bs.isEmpty then some s else none
  | fuel + 1 =>
    if bs.isEmpty then some s
    else
      let k := min bs.length (65536 - gpa % 65536)
      match s.hostAddress f gpa .store with
      | none => none
      | some a =>
        if f ≠ 0 ∧ s.refusesAt (f - 1) a then none
        else ((s.beforeHostWrite a (s.partsOfFn f)).writeGlobal a (bs.take k)).hostPut f (gpa + k) (bs.drop k) fuel

/-- R201: the Basin holds reads of a range of a function's addresses, looked at page by page. -/
def State.hostHeld (s : State) (f gpa n : Nat) : Nat → Bool
  | 0 => false
  | fuel + 1 =>
    let k := min n (65536 - gpa % 65536)
    (match s.hostAddress f gpa .load with
     | some a => (s.lineHeld a (max k 1)).isSome
     | none => false)
      || (decide (k < n) && s.hostHeld f (gpa + k) (n - k) fuel)

/-- R390: HOST_READ: the answer, or an error completion. -/
def execHostRead (fn gpa n : Nat) (s : State) : Result :=
  .next (if !s.fnExists fn || s.hostHeld fn gpa n (n / 65536 + 2) then s
    else { s with hostReply := s.hostBytes fn gpa n (n / 65536 + 2) })

/-- R390: HOST_WRITE: the answer is empty, or an error completion that changes nothing. -/
def execHostWrite (fn gpa : Nat) (data : List Byte) (s : State) : Result :=
  .next (if !s.fnExists fn then s
    else match s.hostPut fn gpa data (data.length / 65536 + 2) with
      | some s => { s with hostReply := some [] }
      | none => { s with hostReply := none })

/-- The operations of a host atomic, in the order of R59. -/
def hostOp (n : Nat) : Option AmoOp :=
  ([.add, .and, .or, .xor, .min, .max, .minu, .maxu, .swap, .cas] : List AmoOp)[n]?

/-- R390, R160: a host integer atomic of 4 or 8 bytes at the Basin: the old value, or an error completion. -/
def State.hostAmo (s : State) (f gpa : Nat) (op : AmoOp) (n : Nat) (b cmp : Word) : State :=
  match s.hostAddress f gpa .atomic with
  | none => { s with hostReply := none }
  | some a =>
    if f ≠ 0 ∧ s.refusesAt (f - 1) a then { s with hostReply := none }
    else
      let s := s.beforeHostWrite a (s.partsOfFn f)
      let old := s.readAt a n
      { s.writeGlobal a (leBytes (amoNew op false n old (b.toNat % 256^n) (cmp.toNat % 256^n)) n) with
        hostReply := some (leBytes old n) }

/-- R390: HOST_ATOMIC. -/
def execHostAtomic (fn gpa op n : Nat) (b cmp : Word) (s : State) : Result :=
  .next (if !s.fnExists fn || s.hostHeld fn gpa n 1 then s
    else match hostOp op with
      | some o =>
        if (n = 4 ∨ n = 8) ∧ gpa % n = 0 then s.hostAmo fn gpa o n b cmp else { s with hostReply := none }
      | none => { s with hostReply := none })

/-! The management controller (R363, R409 to R411). -/

/-- R411: a message over MCTP, once the controller is up (R397). -/
def State.mctpSend (s : State) (bs : List Byte) : State := if 2 ≤ s.stagesUp then { s with mctp := bs :: s.mctp } else s

/-- R363, R411: records by first number and count, a message each. -/
def State.sendRecords (s : State) (first : Nat) : Nat → State
  | 0 => s
  | n + 1 => (s.mctpSend (recordMessage first (s.errorRecord first))).sendRecords (first + 1) n

/-- R411: ERROR_RECORD_REQUEST. -/
def execErrorRecordRequest (first count : Nat) (s : State) : Result := .next (s.sendRecords first (min count 4096))

/-- R411: I3C_DYNAMIC_ADDRESS: 7 bits. -/
def execI3cDynamicAddress (a : Nat) (s : State) : Result :=
  .next (if 2 ≤ s.stagesUp then { s with i3c := some (a % 128) } else s)

/-- R410: an SPDM answer of version 1.2: its code, two parameters of 0, and its body. The codes and the layout are SPDM's
(PRESUMED, log entry 16). -/
def spdm (code : Byte) (body : List Byte) : List Byte := [0x12, code, 0, 0] ++ body

/-- R410: the answer to GET_VERSION: one version, 1.2 (SPDM's layout, log entry 16). -/
def spdmVersion : List Byte := [0x10, 0x04, 0, 0, 0, 1, 0x00, 0x12]

/-- R410: the algorithms: measurements in SPDM's own format with SHA-256, RSASSA with RSA-3072, SHA-256, and no others (SPDM's
layout, log entry 16). -/
def spdmAlgorithms : List Byte :=
  spdm 0x63 (leBytes 36 2 ++ [1, 0] ++ leBytes 2 4 ++ leBytes 4 4 ++ leBytes 1 4 ++ zeros 16)

/-- R410: GET_VERSION. -/
def execGetVersion (s : State) : Result := .next (s.mctpSend spdmVersion)

/-- R410: GET_CAPABILITIES. -/
def execGetCapabilities (s : State) : Result := .next (s.mctpSend (spdm 0x61 (Config.spdmBody 1)))

/-- R410: NEGOTIATE_ALGORITHMS. -/
def execNegotiateAlgorithms (s : State) : Result := .next (s.mctpSend spdmAlgorithms)

/-- R409, R410: GET_CERTIFICATE. -/
def execGetCertificate (s : State) : Result := .next (s.mctpSend (spdm 0x02 (Config.spdmBody 3 ++ Config.certificate)))

/-- R410: GET_MEASUREMENTS: the SHA-256 of the eight firmware stages. -/
def execGetMeasurements (s : State) : Result :=
  .next (s.mctpSend (spdm 0x60 (Config.spdmBody 4 ++ fit (Config.stageDigests s.firmware) 256)))

end Sys2Proof.Machine
end

