-- ==== Sys2Proof/Machine/HostLink.lean ====
section
/-!
DEFINITION. The command and event rings of the Mbaek link (R389, R392, R395), the information page (R396), and the
function-level reset (R322, R323, R291).
-/
namespace Sys2Proof.Machine

/-! Reading commands (R392). -/

/-- The command ring is configured: its log lies in 4-12 (R389). -/
def Function.commandReady (v : Function) : Bool := decide (4 ≤ v.cqlog) && decide (v.cqlog ≤ 12)

/-- R392: the operands of a 64-byte command. -/
def parseCmd (bs : List Byte) : Cmd :=
  ⟨BitVec.ofNat 32 (leAt bs 4 4), word (leAt bs 8 8), word (leAt bs 16 8), word (leAt bs 24 8), word (leAt bs 32 8),
   word (leAt bs 40 8), word (leAt bs 48 8), word (leAt bs 56 8)⟩

/-- R392, R393: a code that function f performs, with its reserved bytes zero. -/
def commandOk (f : Nat) (bs : List Byte) : Bool :=
  let code := leAt bs 0 2
  leAt bs 2 2 == 0 && (if f = 0 then decide (1 ≤ code) && decide (code ≤ 0x19) else code == 0x0F || code == 0x10)

/-- R392: the device reads function f's entries in ring order: an entry it does not perform is answered BADCMD at once, the
first that it performs is held until it is done. It reads on only when no event of the function is held. -/
def State.readNext (s : State) (f : Nat) : Nat → State
  | 0 => s
  | n + 1 =>
    let v := s.fn f
    if !v.commandReady || v.cqhead == v.cqtail || v.reading.isSome || !v.held.isEmpty then s
    else
      let bs := Memory.readBytes s.mem (hostKey (v.cqbase.toNat + 64 * v.cqhead)) 64
      let v := { v with cqhead := (v.cqhead + 1) % 2^v.cqlog }
      if commandOk f bs then s.setFn f { v with reading := some (leAt bs 0 2, parseCmd bs) }
      else ((s.setFn f v).post f ⟨1, 63, (parseCmd bs).htag, 1, []⟩).readNext f n

/-- R392: a command of function f is done: its event is written with its status, and the device reads on. -/
def State.commandDone (s : State) (f tag : Nat) (htag : BitVec 32) (status : Nat) : State :=
  let s := s.post f ⟨1, tag, htag, word status, []⟩
  (s.setFn f { s.fn f with reading := none }).readNext f 4096

/-- R389: CQTAIL_WRITE rings the doorbell. -/
def execCqtailWrite (fn : Nat) (v : Word) (s : State) : Result :=
  .next (if !s.fnExists fn then s
    else
      let x := s.fn fn
      (s.setFn fn { x with cqtail := v.toNat % 2^x.cqlog }).readNext fn 4096)

/-- R389: an entry of the command ring has not been consumed. -/
def Function.commandsLeft (v : Function) : Bool := v.cqhead != v.cqtail || v.reading.isSome

/-- R389: a write to CQBASE, CQLOG, EQBASE or EQLOG, refused while its ring holds an entry, else with head and tail 0. A base
takes a multiple of 4 KiB. -/
def Function.configure (v : Function) (off : Nat) (w : Word) : Function :=
  let base := w &&& 0xFFFFFFFFFFFFF000
  if off = 0x00 then (if v.commandsLeft then v else { v with cqbase := base, cqhead := 0, cqtail := 0 })
  else if off = 0x08 then (if v.commandsLeft then v else { v with cqlog := w.toNat % 16, cqhead := 0, cqtail := 0 })
  else if off = 0x20 then
    (if v.eqhead != v.eqtail then v else { v with eqbase := base, eqhead := 0, eqtail := 0, phase := true })
  else if off = 0x28 then
    (if v.eqhead != v.eqtail then v else { v with eqlog := w.toNat % 16, eqhead := 0, eqtail := 0, phase := true })
  else v

/-- R395: held events are written while the ring has room; the device reads on when none is left. -/
def State.eventsFlow (s : State) (f : Nat) : State := (s.flushHeld f (s.fn f).held.length).readNext f 4096

/-- R389: RING_CONFIG_WRITE. -/
def execRingConfigWrite (fn off : Nat) (v : Word) (s : State) : Result :=
  .next (if s.fnExists fn then (s.setFn fn ((s.fn fn).configure off v)).eventsFlow fn else s)

/-- R395: EQHEAD_WRITE: the host has consumed entries. -/
def execEqheadWrite (fn : Nat) (v : Word) (s : State) : Result :=
  .next (if !s.fnExists fn then s
    else
      let x := s.fn fn
      (s.setFn fn { x with eqhead := v.toNat % 2^x.eqlog }).eventsFlow fn)

/-! The information page (R396). -/

/-- An allotment as PWEIR gives it (R393). -/
def allotWord (a : Nat × Nat) : Nat := a.1 % 2^16 + a.2 % 2^16 * 2^16

/-- The GPA of a page of a die, 0 if none. -/
def Partition.pageGpa (q : Partition) (d : Nat) (f : DiePages → Nat) : Nat :=
  match Sparse.find? q.pages d with
  | some g => f g
  | none => 0

/-- R396: the 4096 bytes of partition p's information page. -/
def State.infoBytes (s : State) (p : Nat) : List Byte :=
  let q := s.part p
  fit (leBytes (0x4A50494E + 2^32) 8 ++ leBytes (p + q.priority * 2^8 + q.spore.job * 2^16) 8
    ++ leBytes (allotWord q.counters) 8 ++ leBytes (allotWord q.semaphores) 8 ++ leBytes (allotWord q.barriers) 8
    ++ leBytes q.allowance 8 ++ leBytes s.modes.toNat 8 ++ zeros 8
    ++ (List.range 8).flatMap (fun d => leBytes (q.pageGpa d (·.sched)) 8)
    ++ (List.range 8).flatMap (fun d => leBytes (q.pageGpa d (·.faults)) 8)
    ++ (List.range 8).flatMap (fun d => leBytes (q.pageGpa d (·.telemetry)) 8)) 4096

/-- R396: writes partition p's information page at each GPA of a list; a GPA that the second stage does not map to a frame
of the partition takes nothing (log entry 21). -/
def State.writeInfo (s : State) (p : Nat) : List Nat → State
  | [] => s
  | g :: gs =>
    let s := match s.gpaToHost p g with
      | some a => if s.frameAt a = Frame.assigned p then (s.imagePage p a).writeGlobal a (s.infoBytes p) else s
      | none => s
    s.writeInfo p gs

/-- R396: the device rewrites partition p's information pages. -/
def State.rewriteInfo (s : State) (p : Nat) : State := s.writeInfo p ((s.part p).pages.map (fun e => e.2.info)).eraseDups

/-- R396: every partition's information pages are rewritten. -/
def State.rewriteAll (s : State) : List Nat → State
  | [] => s
  | p :: ps => (s.rewriteInfo p).rewriteAll ps

/-! Function-level reset (R322, R323, R291). -/

/-- The live threads of partition p. -/
def State.liveThreads (s : State) (p : Nat) : List Nat :=
  ((s.part p).cores.filter (fun c => s.tagOf c == p)).flatMap threadsOfCore

/-- R322, R306, R250: a core of the partition loses its queues, its request at the SFU, its vector state in flight and its
scratchpad; its slot table stays. -/
def State.resetCore (s : State) (c : Nat) : State :=
  { s with sfu := s.sfu.filter (fun e => e.2 != c) }.modCore c (fun k => { k with
    vqueue := [], mxqueue := [], holds := [], binds := Vector.replicate 4 none, yields := [], slotHeld := [] }) |>.clearCore c

/-- Resets a list of cores. -/
def State.resetCores (s : State) : List Nat → State
  | [] => s
  | c :: cs => (s.resetCore c).resetCores cs

/-- R322: the partition's Weir objects, by their allotments. -/
def inAllot (a : Nat × Nat) (i : Nat) : Bool := decide (a.1 ≤ i) && decide (i < a.1 + a.2)

/-- R322: counters and semaphores return to zero, barriers lose their open arrivals. -/
def State.resetWeir (s : State) (q : Partition) : State :=
  { s with
    counters := s.counters.filter (fun e => !inAllot q.counters e.1)
    sems := s.sems.filter (fun e => !inAllot q.semaphores e.1)
    weirBars := Sparse.mapValues s.weirBars (fun k b => if inAllot q.barriers k then { b with arrived := 0 } else b) }

/-- R322: what a saved context keeps over a reset: its core's slot table; its threads are FREE. -/
def Saved.emptied (v : Saved) : Saved :=
  let k := v.snapshot.state
  { v with
    snapshot := ⟨v.snapshot.core,
      { k.emptied k.rank with phaseStart := k.phaseStart, rows := k.rows, slotBase := k.slotBase, slotNext := k.slotNext },
      v.snapshot.threads.map (fun e => (e.1, { Thread.reset with sigMis := e.2.sigMis })), [], []⟩
    ring := []
    blocks := []
    windows := [] }

/-- R322, R323: what the partition has in flight ends: packets, requests, puts, copy commands, waiting reservations. Writes that
have committed stay. -/
def State.resetTraffic (s : State) (p : Nat) (ts : List Nat) : State :=
  let ids := (s.requests.filter (fun e => ts.contains e.2.thread)).map (·.1)
  let puts := ts.flatMap (fun t => (s.thread t).puts.map (·.id))
    ++ (s.copies.filter (fun q => q.part == p)).flatMap (fun q => q.writes.map (·.id))
  let s := s.dropRequests ts
  { s with
    heldLines := s.heldLines.filter (fun h => !ids.contains h.owner)
    forwards := s.forwards.filter (fun f => !(puts.contains f.id && f.stage == .pending))
    packets := s.packets.filter (fun k => k.tag != p)
    copies := s.copies.filter (fun q => q.part != p)
    sluice := s.sluice.filter (fun w => w.part != p)
    saved := s.saved.map (fun v => if v.tag = p then v.emptied else v) }

/-- R322, R385: a spore of the partition, accepted or under way, fails with RESET. -/
def State.resetSpore (s : State) (p : Nat) : State :=
  let sp := (s.part p).spore
  if sp.busy then s.failSpore p 4
  else if sp.cur != sp.epoch then (s.modSpore p (fun sp => { sp with cur := sp.epoch })).failSpore p 4
  else s

/-- R322: every record of the partition's pool is disarmed. -/
def disarm (pool : Sparse Word) : Sparse Word :=
  pool.map (fun e => (e.1, if e.1 % 32 = 0 then e.2 &&& ~~~2#64 else e.2))

/-- R322, R291: the function-level reset of partition p, without the supervisor's restart. -/
def State.functionReset (s : State) (p : Nat) : State :=
  let s := s.resetSpore p
  let ts := s.liveThreads p
  let s := (s.withdrawAll ts).resetTraffic p ts
  let s := s.cutThreads ts
  let s := s.resetCores ((s.part p).cores.filter (fun c => s.tagOf c == p))
  let s := s.resetWeir (s.part p)
  let s := s.modPart p (fun q => { q with po := 0, pool := disarm q.pool })
  { s with
    launches := s.launches.filter (fun e => e.2.part != p)
    domains := Sparse.mapValues s.domains (fun _ d => if d.part == some p then d.withdrawn else d) }

/-- R399: the supervisor of partition p starts where its lowest-ranked core is: on the core, or in a saved context while the
core carries another partition's tag (R310). -/
def State.startFirst (s : State) (p : Nat) (entry tvec info : Word) : State :=
  match s.lowestCore p with
  | none => s
  | some c =>
    if s.tagOf c = p ∧ s.away p c = false then s.startSupervisor p entry tvec info
    else
      let x : Thread := { Thread.reset with
        status := .ready
        pc := wordAligned entry
        tvec := bundleOf tvec
        tstat := tstatWord 0 0xFF false true false false }
      let x := x.setX 10 info
      if s.away p c then s.modThreadFor p (4 * c) x.keeps
      else
        let k := (s.coreAt c).emptied (s.rankIn p c)
        let rest := ([1, 2, 3] : List Nat).map (fun i => (4 * c + i, Thread.reset))
        { s with saved := s.saved ++ [⟨p, ⟨c, k, (4 * c, x) :: rest, [], []⟩, [], [], []⟩] }

/-- R322, R399: after a reset the device repeats the partition's last PSTART. -/
def State.restartSupervisor (s : State) (p : Nat) : State :=
  match (s.part p).pstart with
  | some (entry, tvec, info) => s.startFirst p entry tvec info
  | none => s

end Sys2Proof.Machine
end

