-- ==== Sys2Proof/Machine/Rollback.lean ====
section
/-!
DEFINITION. Rollback entry (R387, R388): reading a chain of manifests, restoring pages, cores, logs and Weir objects, and
starting the captured threads.
-/
namespace Sys2Proof.Machine

/-! Manifests (R381 to R384). -/

/-- A manifest as read: its address, the header's fields and the four arrays. -/
structure Manifest where
  va : Nat
  epoch : Nat
  parent : Nat
  parentVa : Nat
  nextIndex : Nat
  halted : Nat
  record : Nat
  pages : List (List Byte)
  logs : List (List Byte)
  cores : List (List Byte)
  weirs : List (List Byte)

/-- The records of n bytes that a list of bytes holds. -/
def chunks (n : Nat) (bs : List Byte) : Nat → List (List Byte)
  | 0 => []
  | k + 1 => bs.take n :: chunks n (bs.drop n) k

/-- R381, R387: reads a committed manifest and checks its digest. -/
def State.readManifest (s : State) (p va : Nat) : Option Manifest :=
  match s.readVa p (word va) 256 with
  | none => none
  | some h =>
    if leAt h 0 7 ≠ 0x53504D46 + 2^32 + 2^48 then none
    else
      let read (off size count : Nat) : Option (List Byte) := s.readVa p (word (va + leAt h off 4)) (size * count)
      match read 0x38 64 (leAt h 0x28 4), read 0x3C 96 (leAt h 0x2C 4), read 0x40 64 (leAt h 0x30 4),
        read 0x44 16 (leAt h 0x34 4) with
      | some a, some b, some c, some d =>
        if Sha.sha256 (a ++ b ++ c ++ d) = (h.drop 0x60).take 32 then
          some ⟨va, leAt h 8 4, leAt h 0xC 4, leAt h 0x10 8, leAt h 0x48 8, leAt h 0x50 8, leAt h 0x80 8 % 256,
            chunks 64 a (leAt h 0x28 4), chunks 96 b (leAt h 0x2C 4), chunks 64 c (leAt h 0x30 4), chunks 16 d (leAt h 0x34 4)⟩
        else none
      | _, _, _, _ => none

/-- R387: the chain of manifests from one back to a full spore, newest first; each parent carries the epoch that its child
names. Epochs fall along a chain, so an epoch bounds its length. -/
def State.chainFrom (s : State) (p va epoch : Nat) : Nat → Option (List Manifest)
  | 0 => none
  | n + 1 =>
    match s.readManifest p va with
    | none => none
    | some m =>
      if m.epoch ≠ epoch then none
      else if m.parent = 0 then some [m]
      else (s.chainFrom p m.parentVa m.parent n).map (m :: ·)

/-- R387: the chain of a manifest. -/
def State.chain (s : State) (p va : Nat) : Option (List Manifest) :=
  match s.readManifest p va with
  | none => none
  | some m => s.chainFrom p va m.epoch (m.epoch + 1)

/-- R387: the newest record of each page along a chain. -/
def newestPages (seen : List Nat) : List (List Byte) → List (List Byte)
  | [] => []
  | r :: rs => if seen.contains (leAt r 0 8) then newestPages seen rs else r :: newestPages (leAt r 0 8 :: seen) rs

/-! Restoring pages. -/

/-- R387: the last two steps of a restoring write's translation: the second stage's valid bit, the frame and SP. -/
def State.restoreLeaf (s : State) (p va : Nat) (leaf e : Nat) (big : Bool) : Option Walked :=
  let gd := if big then field e 29 11 * 2^29 + va % 2^29 else field e 16 24 * 2^16 + va % 2^16
  match s.gpaToHost p gd with
  | none => none
  | some h =>
    if s.frameAt h = Frame.assigned p ∧ reachesHome (va / 2^51) h ∧ field e 7 2 ≠ 3 then some ⟨h, leaf, big, word e⟩ else none

/-- R387: the translation of a restoring write, without the permission bits of either stage. -/
def State.restoreWalk (s : State) (p va : Nat) : Option Walked :=
  match s.tableEntry p (word va) .store 0 ((s.part p).s1root.getD 0) (field va 42 13) with
  | .error _ => none
  | .ok (_, e0) =>
    match s.tableEntry p (word va) .store 1 (field e0 16 24 * 2^16) (field va 29 13) with
    | .error _ => none
    | .ok (h1, e1) =>
      if field e1 1 1 = 1 then s.restoreLeaf p va h1 e1 true
      else match s.tableEntry p (word va) .store 2 (field e1 16 24 * 2^16) (field va 16 13) with
        | .error _ => none
        | .ok (h2, e2) => s.restoreLeaf p va h2 e2 false

/-- R387, R382: the bytes of a page record, when their digest holds. -/
def State.pageBytes (s : State) (p : Nat) (r : List Byte) : Option (List Byte) :=
  let bs := if leAt r 0x18 4 / 2 % 2 = 1 then some (zeros 65536) else s.readVa p (word (leAt r 0x10 8)) 65536
  match bs with
  | some b => if Sha.sha256 b = (r.drop 0x20).take 32 then some b else none
  | none => none

/-- R387 step 3: the pages are written, until one fails. -/
def State.restorePages (s : State) (p : Nat) : List (List Byte) → State × Bool
  | [] => (s, true)
  | r :: rs =>
    match s.pageBytes p r, s.restoreWalk p (leAt r 0 8) with
    | some b, some w => ((s.touch w).writeGlobal w.a b).restorePages p rs
    | _, _ => (s, false)

/-! Restoring cores. -/

/-- R384, R387: the messages of a channel in a captured queue region. -/
def restoredChannel (bs : List Byte) (ch : Nat) : Channel :=
  { Channel.reset with
    queue := ((List.range 16).map (fun i => (bs.drop (0xF8000 + ch * 1024 + i * 64)).take 64)).filterMap (fun e =>
      if leAt e 0 8 = 0 then none else some ⟨word (leAt e 0 8), e.drop 8, 0⟩) }

/-- R384: a flume of a captured block, made under launch l. -/
def restoredFlume (bs : List Byte) (l n : Nat) : Flume :=
  let w := leAt bs (0x141000 + 16 * n) 8
  let at' := 0x141008 + 16 * n
  if field w 63 1 = 0 then Flume.reset
  else ⟨leAt bs at' 4, leAt bs (at' + 4) 1, leAt bs (at' + 6) 2, field w 0 16, field w 16 16, field w 32 16, true, some l⟩

/-- R384: a binding of a captured block. -/
def restoredBind (bs : List Byte) (l n : Nat) : Option Bind :=
  let w := leAt bs (0x141100 + 16 * n) 8
  if field w 63 1 = 0 then none
  else some ⟨BitVec.ofNat 4 (field w 0 4), field w 8 6, field w 20 20, field w 40 20, some l⟩

/-- R387 step 4: a core's record as a captured block gives it; its time, clock and rank stay, its phase is compute with
PHASECYC 0. -/
def Core.fromBlock (now : Core) (bs : List Byte) (l : Nat) : Core :=
  let k := now.emptied now.rank
  let k := { k with
    vregs := Vector.ofFn (fun i : Fin 32 => BitVec.ofNat 1024 (leAt bs (0x100000 + 128 * i.val) 128))
    channels := (List.range 32).map (fun ch => (ch, restoredChannel bs ch))
    flumes := Vector.ofFn (fun i : Fin 16 => restoredFlume bs l i.val)
    binds := Vector.ofFn (fun i : Fin 4 => restoredBind bs l i.val)
    vshare := BitVec.ofNat 4 (leAt bs 0x141140 8) }
  ([0, 1, 2, 3] : List Nat).foldl (fun k n =>
    k.setRows n 0 128 (fun i j => leAt bs (0x101000 + 4 * accKey n i j) 4)) k

/-- R384, R387 steps 4 and 7: a captured thread as its area gives it, READY at the spore entry with a0 and a1. -/
def Thread.fromArea (a : List Byte) (launch : Nat) (entry a0 a1 tvec : Word) : Thread :=
  let w (i : Nat) : Nat := leAt a (0x208 + 8 * i) 8
  let x : Thread := { Thread.reset with
    status := .ready
    regs := Vector.ofFn (fun i : Fin 64 => if i.val = 0 then 0 else word (leAt a (8 * i.val) 8))
    pc := wordAligned entry
    tvec := tvec
    fcsr := BitVec.ofNat 11 (w 0)
    lfsr := BitVec.ofNat 32 (w 1)
    vl := w 2
    lpstart := word (w 3)
    lpend := word (w 4)
    lpcount := BitVec.ofNat 32 (w 5)
    lpouter := word (w 6)
    mxfmta := BitVec.ofNat 4 (w 7)
    mxfmtb := BitVec.ofNat 4 (w 8)
    mxbanda := word (w 9)
    mxbandb := word (w 10)
    mxout := BitVec.ofNat 4 (w 11)
    rclass := BitVec.ofNat 3 (w 12)
    met := decide (w 13 % 2 = 1)
    sigEn := decide (w 14 % 2 = 1)
    sigMis := decide (w 14 / 2 % 2 = 1)
    ticket := BitVec.ofNat 16 (w 15)
    reqno := BitVec.ofNat 16 (w 16)
    chkC := BitVec.ofNat 9 (leAt a 0x298 8 / 512)
    chkD := BitVec.ofNat 9 (leAt a 0x298 8)
    wake := decide (leAt a 0x2A0 8 % 2 = 1)
    launch := some launch
    index := leAt a 0x2A8 8
    fifo := (List.range (leAt a 0x290 8)).map (fun i =>
      ⟨word (leAt a (0x400 + 16 * i) 8), word (leAt a (0x408 + 16 * i) 8)⟩) }
  (x.setX 10 a0).setX 11 a1

/-- R387: the rank, the threads captured and the block of a core-state record, when its digest holds. -/
def State.coreBlock (s : State) (p : Nat) (r : List Byte) : Option (Nat × Nat × List Byte) :=
  match s.readVa p (word (leAt r 8 8)) 0x143200 with
  | some b => if Sha.sha256 b = (r.drop 0x20).take 32 then some (leAt r 0 2, leAt r 2 1, b) else none
  | none => none

/-- The blocks of a manifest, when every one is readable and every rank is VALID. -/
def State.coreBlocks (s : State) (p : Nat) : List (List Byte) → Option (List (Nat × Nat × List Byte))
  | [] => some []
  | r :: rs =>
    match s.coreBlock p r with
    | none => none
    | some b => if (s.rankCore p b.1).isNone then none else (s.coreBlocks p rs).map (b :: ·)

/-- R387 steps 4 and 7: the captured threads of a block, by hardware thread. -/
def State.blockThreads (s : State) (p : Nat) (l : Launch) (m : Manifest) (b : Nat × Nat × List Byte) : List (Nat × Thread) :=
  (([0, 1, 2, 3] : List Nat).filter (fun i => b.2.1.testBit i)).map (fun i =>
    (i, Thread.fromArea ((b.2.2.drop (0x141200 + 0x800 * i)).take 0x800) l.id (word (l.word 2)) (word m.epoch) (word m.va)
      (s.part p).trapVector))

/-- R387, R310: a captured block on core c while another partition's tag stands there: partition p's saved context. -/
def State.restoreAway (s : State) (p c l : Nat) (bs : List Byte) (ts : List (Nat × Thread)) : State :=
  let k := ((s.coreFor p c).getD ((s.coreAt c).emptied (s.rankIn p c))).fromBlock bs l
  let g : Snapshot := ⟨c, k,
    ([0, 1, 2, 3] : List Nat).map (fun i => (4 * c + i, match List.find? (fun (e : Nat × Thread) => e.1 == i) ts with
      | some e => e.2
      | none => Thread.reset)),
    Memory.writeBytes [] (spadKey c 0) (bs.take 0xF8000), []⟩
  if s.away p c then s.modSaved p c (fun v => { v with snapshot := g })
  else { s with saved := s.saved ++ [⟨p, g, [], [], []⟩] }

/-- R387 steps 4 and 7: the core that now holds a rank takes a captured block, where partition p's context of it lives. -/
def State.restoreBlock (s : State) (p : Nat) (l : Launch) (m : Manifest) (b : Nat × Nat × List Byte) : State :=
  match s.rankCore p b.1 with
  | none => s
  | some c =>
    let ts := s.blockThreads p l m b
    if s.tagOf c ≠ p ∨ s.away p c then s.restoreAway p c l.id b.2.2 ts
    else
      let s := s.modCore c (fun k => k.fromBlock b.2.2 l.id)
      let s := { s with
        mem := Memory.writeBytes (Memory.clear s.mem (spadKey c 0) (2^20)) (spadKey c 0) (b.2.2.take 0xF8000) }
      ts.foldl (fun s e => s.setThread (4 * c + e.1) e.2) s

/-- Restores a list of blocks. -/
def State.restoreBlocks (s : State) (p : Nat) (l : Launch) (m : Manifest) : List (Nat × Nat × List Byte) → State
  | [] => s
  | b :: bs => (s.restoreBlock p l m b).restoreBlocks p l m bs

/-! Logs, Weir objects and the launch. -/

/-- R387 step 5: a channel-log record joins its receiver's queue or sets a wake flag. -/
def State.restoreLog (s : State) (p : Nat) (r : List Byte) : State :=
  match s.rankCore p (leAt r 0 2) with
  | none => s
  | some c =>
    let entry := (r.drop 0x10).take 64
    if leAt r 2 1 = 1 then s.modThreadFor p (4 * c + leAt r 3 1 % 4) (fun x => { x with wake := true })
    else s.modChannelFor p c (leAt r 3 1 % 32) (fun q => { q with queue := q.queue ++ [⟨word (leAt entry 0 8), entry.drop 8, 0⟩] })

/-- R387 step 6: a Weir record of the partition's allotment. -/
def State.restoreWeir (s : State) (p : Nat) (r : List Byte) : State :=
  let q := s.part p
  let i := leAt r 2 2
  let v := leAt r 8 8
  if leAt r 0 2 % 2 = 0 then (if i < q.counters.2 then s.setCounter (q.counters.1 + i) (word v) else s)
  else if i < q.semaphores.2 then s.setSem (q.semaphores.1 + i) ⟨v % 2^32, [], []⟩
  else s

/-- The cores and captured threads of a list of blocks. -/
def State.blockCores (s : State) (p : Nat) (bs : List (Nat × Nat × List Byte)) : List (Nat × Nat) :=
  sortBy (·.1) (bs.filterMap (fun b => (s.rankCore p b.1).map (fun c => (c, b.2.1))))

/-- R387 steps 6 and 7: the launch that rollback entry resumes. -/
def State.resumedLaunch (s : State) (p : Nat) (m : Manifest) (bs : List (Nat × Nat × List Byte)) : Launch :=
  let cs := s.blockCores p bs
  let dies := (cs.map (fun e => dieOf e.1)).eraseDups
  { launchOf s.nextId p m.record (s.record p m.record) with
    members := cs.flatMap (fun e => (([0, 1, 2, 3] : List Nat).filter (fun i => e.2.testBit i)).map (· + 4 * e.1))
    dies := dies
    installed := dies
    ballots := dies.map (fun d => (d, true))
    firstBallot := some s.now
    closed := true
    leader := dies.head?
    postedAt := s.now
    counter := m.nextIndex
    block := (0, 0)
    halted := m.halted
    rollbackEntry := true }

/-- R388: the job's last committed epoch is the restored one; new epochs go on from the highest issued. -/
def Spore.afterRollback (sp : Spore) (m : Manifest) (l : Nat) : Spore :=
  { sp.atLaunch true with
    last := m.epoch
    lastManifest := m.va
    issued := max sp.issued m.epoch
    launch := some l }

/-- R387 steps 4 to 7, once every check has passed and the pages stand. -/
def State.resumeLaunch (s : State) (p : Nat) (m : Manifest) (bs : List (Nat × Nat × List Byte)) : State :=
  let l := s.resumedLaunch p m bs
  let s := s.bump.setLaunch l
  let s := s.restoreBlocks p l m bs
  let s := m.logs.foldl (fun s r => s.restoreLog p r) s
  let s := m.weirs.foldl (fun s r => s.restoreWeir p r) s
  let s := l.dies.foldl (fun s d => s.installImages l d (List.range 16)) s
  let s := s.startCores l ((s.blockCores p bs).map (·.1))
  let s := s.modSpore p (fun sp => sp.afterRollback m l.id)
  s.setArmed p l.record true

/-- R387: rollback entry from the manifest at va: a status, and what it did before it ended. A manifest, digest, block or
page that does not hold gives BADARG, a pool record that is not valid and unarmed STATE (log entry 35). -/
def State.rollbackEntry (s : State) (p va : Nat) : State × Nat :=
  let ts := (s.part p).cores.flatMap threadsOfCore
  let s := s.functionReset p
  let s := { s with windows := s.windows.filter (fun w => !ts.contains w.thread) }
  match s.chain p va with
  | none => (s, 2)
  | some ms =>
    match ms.head? with
    | none => (s, 2)
    | some m =>
      let ws := s.record p m.record
      if !recordValid ws || recordArmed ws then (s, 3)
      else
        match s.restorePages p (newestPages [] (ms.flatMap (·.pages))) with
        | (s, false) => (s, 2)
        | (s, true) =>
          match s.coreBlocks p m.cores with
          | none => (s, 2)
          | some bs => (s.resumeLaunch p m bs, 0)

end Sys2Proof.Machine
end

