-- ==== Sys2Proof/Machine/Commands.lean ====
section
/-!
DEFINITION. The monitor's commands (R393, R394) and what they set: partitions, allotments, pages, frames, tables, starts,
modes, the time base, attestation, firmware, the error log, the reset of a die and the job of a partition.
-/
namespace Sys2Proof.Machine

/-! The frame of a command (R392). -/

/-- R392: function 0's command c ends with a status that names no partition. -/
def State.plainDone (s : State) (c : Cmd) (status : Nat) : State := s.commandDone 0 63 c.htag status

/-- R392: a command of function 0 about the partition that op0 names: BADARG for a tag above 47, STATE for a partition that
does not exist (log entry 36), else what the command does and its status. -/
def State.partCommand (s : State) (c : Cmd) (act : State → Nat → State × Nat) : State :=
  let p := c.op0.toNat
  if 47 < p then s.plainDone c 2
  else if !s.partExists p then s.commandDone 0 p c.htag 3
  else
    let r := act s p
    r.1.commandDone 0 p c.htag r.2

/-- What a command without an effect answers. -/
def State.refuse (s : State) (status : Nat) : State × Nat := (s, status)

/-- R336, R389: n bytes at a host address lie within its 48 bits. -/
def hostFits (a n : Nat) : Bool := decide (a + n ≤ 2^48)

/-- R393: the cores that a 128-byte mask image at a host address names: 16 bytes for each die in ascending order, one bit
for each logical core. -/
def State.maskCores (s : State) (a : Nat) : List Nat :=
  let m := leValue (Memory.readBytes s.mem (hostKey a) 128)
  (List.range 1024).filter (fun c => m.testBit c)

/-! Partitions. -/

/-- R393: the core sets of the partitions that hold a masked core; the mask may only equal such a set. -/
def State.maskFits (s : State) (cores : List Nat) : Bool :=
  s.parts.all (fun e => !e.2.cores.any (fun c => cores.contains c) || e.2.cores == cores)

/-- R393, R40: the new partition: its priority, its cores, and each of their ranks VALID. -/
def Partition.created (prio : Nat) (cores : List Nat) : Partition :=
  { Partition.reset with priority := prio, cores := cores, ranks := cores.map (fun c => (c, .valid c)) }

/-- Hands a list of cores to a tag (R306). -/
def State.handCores (s : State) (tag : Nat) : List Nat → State
  | [] => s
  | c :: cs => (s.handCore c tag).handCores tag cs

/-- R393, R306, R310: partition p is created; a set shared with an existing partition keeps the tag it holds. -/
def State.create (s : State) (p prio : Nat) (cores : List Nat) : State :=
  let shared := s.parts.any (fun e => e.2.cores == cores)
  let s := s.setPart p (.created prio cores)
  if shared then s else s.handCores p cores

/-- R393: PCREATE. -/
def State.pcreate (s : State) (c : Cmd) : State :=
  let p := c.op0.toNat
  let cores := s.maskCores c.op2.toNat
  if 47 < p then s.plainDone c 2
  else if 7 < c.op1.toNat ∨ !hostFits c.op2.toNat 128 ∨ cores = [] then s.commandDone 0 p c.htag 2
  else if s.partExists p || !s.maskFits cores then s.commandDone 0 p c.htag 3
  else (s.create p c.op1.toNat cores).commandDone 0 p c.htag 0

/-- R393: PCREATE. -/
def execPcreate (cmd : Cmd) (s : State) : Result := .next (s.pcreate cmd)

/-- R393, R291: partition p ends: a function-level reset, then its cores take tag 63 and its accounting ends; the package fill
keeps its heat. With the tags of a time-shared set on it, the set carries tag 63 from now on, and no other partition of the
ring takes it: neither R310 nor R393 says which would (DESIGN CHOICE, log entry 90). -/
def State.destroy (s : State) (p : Nat) : State :=
  let s := s.functionReset p
  let s := s.handCores 63 ((s.part p).cores.filter (fun c => s.tagOf c == p))
  { s with
    parts := Sparse.erase s.parts p
    saved := s.saved.filter (fun v => v.tag != p)
    functions := Sparse.erase s.functions (p + 1) }

/-- R393: PDESTROY. -/
def execPdestroy (cmd : Cmd) (s : State) : Result := .next (s.partCommand cmd (fun s p => (s.destroy p, 0)))

/-- R320, R392: the resize of partition p takes effect if it can; function 0 then reads on. -/
def State.resizeStep (s : State) (p : Nat) : State :=
  let s := s.applyResize p
  if (s.part p).resize.isSome then s else (s.setFn 0 { s.fn 0 with reading := none }).readNext 0 4096

/-- R320: PRESIZE: the change is asked for, and takes place at once when no launch of the partition runs. Its event comes
when it has taken place. -/
def State.presize (s : State) (c : Cmd) : State :=
  let p := c.op0.toNat
  let cores := s.maskCores c.op1.toNat
  if 47 < p then s.plainDone c 2
  else if !hostFits c.op1.toNat 128 ∨ cores = [] then s.commandDone 0 p c.htag 2
  else if !s.partExists p then s.commandDone 0 p c.htag 3
  else (s.modPart p (fun q => { q with resize := some (cores, c.htag) })).resizeStep p

/-- R320: PRESIZE. -/
def execPresize (cmd : Cmd) (s : State) : Result := .next (s.presize cmd)

/-- R320: RESIZE_APPLY: a resize that waited takes effect at the partition's superstep boundary. -/
def execResizeApply (p : Nat) (s : State) : Result :=
  .next (if (s.part p).resize.isSome then s.resizeStep p else s)

/-- R322, R393: PFLR. -/
def execPflr (cmd : Cmd) (s : State) : Result :=
  .next (s.partCommand cmd (fun s p => ((s.functionReset p).restartSupervisor p, 0)))

/-! Allotments. -/

/-- R267: the sum over the other partitions of PCAP·2^(15-k). -/
def State.capOfOthers (s : State) (p : Nat) : Nat :=
  s.parts.foldl (fun a e => if e.1 = p then a else a + e.2.pcap * 2^(15 - e.2.k)) 0

/-- R267, R270, R281: PRES on partition p: PCAP, PDRAIN's SHARE and FIXED, PSCALE and the meter allowance. RATE follows at
its next computation (R268). -/
def State.setReservoir (s : State) (c : Cmd) (p : Nat) : State × Nat :=
  let q := s.part p
  let cap := c.op1.toNat
  let k := c.op3.toNat
  if 2^40 ≤ cap ∨ 15 < k then s.refuse 2
  else if 2^39 < s.capOfOthers p + cap * 2^(15 - k) ∨ (k ≠ q.k ∧ (q.po ≠ 0 ∨ q.pf ≠ 0)) then s.refuse 3
  else
    ((s.modPart p (fun q => { q with
      pcap := cap
      share := field c.op2.toNat 28 28
      fixed := c.op2.getLsbD 63
      k := k
      allowance := c.op4.toNat })).rewriteInfo p, 0)

/-- R393: PRES. -/
def execPres (cmd : Cmd) (s : State) : Result := .next (s.partCommand cmd (fun s p => s.setReservoir cmd p))

/-- R158: PSCOPE: ceilings 00 and 01 are refused. -/
def State.setCeiling (s : State) (c : Cmd) (p : Nat) : State × Nat :=
  if c.op1 = 2 then (s.modPart p (fun q => { q with ceiling := .pkg }), 0)
  else if c.op1 = 3 then (s.modPart p (fun q => { q with ceiling := .sys }), 0)
  else s.refuse 2

/-- R158: PSCOPE. -/
def execPscope (cmd : Cmd) (s : State) : Result := .next (s.partCommand cmd (fun s p => s.setCeiling cmd p))

/-- R393: an allotment word: base in bits 15:0, length in bits 31:16. -/
def allotOf (v : Word) : Nat × Nat := (field v.toNat 0 16, field v.toNat 16 16)

/-- R177: two allotments have a common object. -/
def allotsMeet (a b : Nat × Nat) : Bool := overlaps a.1 a.2 b.1 b.2 && a.2 != 0 && b.2 != 0

/-- R393: a thread of partition p runs: it holds a context. -/
def State.partBusy (s : State) (p : Nat) : Bool :=
  (s.part p).cores.any (fun c => (s.tagOf c == p || s.away p c)
    && (threadsOfCore c).any (fun t => (s.threadFor p t).status != .free))

/-- R177: an allotment would overlap another partition's. -/
def State.allotTaken (s : State) (p : Nat) (a b d : Nat × Nat) : Bool :=
  s.parts.any (fun e => e.1 != p &&
    (allotsMeet e.2.counters a || allotsMeet e.2.semaphores b || allotsMeet e.2.barriers d))

/-- R177: PWEIR on partition p; a semaphore that enters its allotment starts at 0, whatever another partition left there. -/
def State.setAllotments (s : State) (c : Cmd) (p : Nat) : State × Nat :=
  let a := allotOf c.op1
  let b := allotOf c.op2
  let d := allotOf c.op3
  if 4096 < a.1 + a.2 ∨ 1024 < b.1 + b.2 ∨ 64 < d.1 + d.2 then s.refuse 2
  else if s.partBusy p || s.allotTaken p a b d then s.refuse 3
  else
    let old := (s.part p).semaphores
    let s := { s with sems := s.sems.filter (fun e => !inAllot b e.1 || inAllot old e.1) }
    ((s.modPart p (fun q => { q with counters := a, semaphores := b, barriers := d })).rewriteInfo p, 0)

/-- R177: PWEIR. -/
def execPweir (cmd : Cmd) (s : State) : Result := .next (s.partCommand cmd (fun s p => s.setAllotments cmd p))

/-! Pages and tables. -/

/-- R331, R309, R340, R396, R292: the GPA of a 4 KiB page, of 40 bits. -/
def pageGpaOk (g : Word) : Bool := decide (g.toNat < 2^40) && g.toNat % 4096 == 0

/-- R393: PPLACE on partition p: the pages of one die, and the information page. -/
def State.placePages (s : State) (c : Cmd) (p : Nat) : State × Nat :=
  let d := c.op1.toNat
  if !(s.part p).cores.any (fun k => dieOf k == d) || !(([c.op2, c.op3, c.op4, c.op5] : List Word).all pageGpaOk) then s.refuse 2
  else
    let g : DiePages := ⟨c.op2.toNat, c.op3.toNat, c.op4.toNat, c.op5.toNat, c.op6⟩
    ((s.modPart p (fun q => { q with pages := Sparse.set q.pages d g })).rewriteInfo p, 0)

/-- R393: PPLACE. -/
def execPplace (cmd : Cmd) (s : State) : Result := .next (s.partCommand cmd (fun s p => s.placePages cmd p))

/-- R331, R339: S1ROOT: the GPA of the top-level table, 40 bits and aligned on 64 KiB. -/
def State.setRoot (s : State) (c : Cmd) (p : Nat) : State × Nat :=
  if 2^40 ≤ c.op1.toNat ∨ c.op1.toNat % 2^16 ≠ 0 then s.refuse 2
  else (s.modPart p (fun q => { q with s1root := some c.op1.toNat }), 0)

/-- R331: S1ROOT. -/
def execS1root (cmd : Cmd) (s : State) : Result := .next (s.partCommand cmd (fun s p => s.setRoot cmd p))

/-- R335, R339: S2WRITE: one entry of the second-stage table. -/
def State.setEntry (s : State) (c : Cmd) (p : Nat) : State × Nat :=
  if 2^19 ≤ c.op1.toNat ∨ field c.op2.toNat 52 12 ≠ 0 ∨ field c.op2.toNat 4 17 ≠ 0 then s.refuse 2
  else (s.modPart p (fun q => { q with s2 := Sparse.set q.s2 c.op1.toNat c.op2 }), 0)

/-- R335: S2WRITE. -/
def execS2write (cmd : Cmd) (s : State) : Result := .next (s.partCommand cmd (fun s p => s.setEntry cmd p))

/-! Frames (R326). -/

/-- A frame's address: a multiple of 2 MiB in HBM, host memory or the fabric (R326, R336). -/
def frameAddress (a : Nat) : Bool := a % frameBytes == 0 && (isHbm a || classOf a == 8 || classOf a == 9)

/-- R326: FASSIGN with tag 63: a CLEAN HBM frame of stack d becomes SHARED and the telemetry frame of die d. -/
def State.shareFrame (s : State) (a d : Nat) : State × Nat :=
  if !isHbm a || d != stackOf a then s.refuse 2
  else if s.frameAt a ≠ .clean then s.refuse 3
  else
    let s := s.setFrame (a / frameBytes) .shared
    ({ s with telemetry := Sparse.set s.telemetry d (a, 0) }, 0)

/-- R326: FASSIGN of a CLEAN frame to partition p. -/
def State.assignFrame (s : State) (a p : Nat) : State × Nat :=
  if !s.partExists p || s.frameAt a ≠ .clean then s.refuse 3
  else (s.setFrame (a / frameBytes) (.assigned p), 0)

/-- R326: FASSIGN. -/
def State.fassign (s : State) (c : Cmd) : State :=
  let a := c.op0.toNat
  let p := c.op1.toNat
  let r :=
    if !frameAddress a then s.refuse 2
    else if p = 63 then s.shareFrame a c.op2.toNat
    else if 47 < p then s.refuse 2
    else s.assignFrame a p
  r.1.commandDone 0 (if p ≤ 47 then p else 63) c.htag r.2

/-- R326: FASSIGN. -/
def execFassign (cmd : Cmd) (s : State) : Result := .next (s.fassign cmd)

/-- R326: FFREE: an HBM frame enters SCRUBBING and the device's writes to a SHARED one end; the mode set now is the scrub's
(R328). A class 8 or 9 frame is CLEAN at once, with its event. -/
def State.releaseFrame (s : State) (a : Nat) : State × Nat :=
  if !frameAddress a then s.refuse 2
  else match s.frameAt a with
    | .scrubbing | .clean => s.refuse 3
    | .assigned _ | .shared =>
      if isHbm a then
        (let s := s.setFrame (a / frameBytes) .scrubbing
         ({ s with
            hostScrubs := if s.modes.getLsbD 1 then a / frameBytes :: s.hostScrubs else s.hostScrubs
            telemetry := s.telemetry.filter (fun e => e.2.1 != a) }, 0))
      else (s.frameClean (a / frameBytes), 0)

/-- R326: FFREE. -/
def execFfree (cmd : Cmd) (s : State) : Result :=
  .next (let r := s.releaseFrame cmd.op0.toNat
    r.1.plainDone cmd r.2)

/-! Starts. -/

/-- R398: PSTART may start partition p: it has its top-level table and the pages of every die on which it holds cores, and
thread 0 of its lowest-ranked core is FREE. -/
def State.startable (s : State) (p : Nat) : Bool :=
  let q := s.part p
  q.s1root.isSome && q.cores.all (fun c => (Sparse.find? q.pages (dieOf c)).isSome)
    && (match s.lowestCore p with
      | some c => (s.threadFor p (4 * c)).status == .free || (s.tagOf c != p && !s.away p c)
      | none => false)

/-- R399: PSTART on partition p. -/
def State.pstart (s : State) (c : Cmd) (p : Nat) : State × Nat :=
  if !s.startable p then s.refuse 3
  else
    let s := s.modPart p (fun q => { q with pstart := some (c.op1, c.op2, c.op3), trapVector := c.op2 })
    ({ s.startFirst p c.op1 c.op2 c.op3 with anyStart := true }, 0)

/-- R399: PSTART. -/
def execPstart (cmd : Cmd) (s : State) : Result := .next (s.partCommand cmd (fun s p => s.pstart cmd p))

/-- R344: a guest fault for thread t of partition p, PARKED by a PAGE2: PAGE1 with the same address and SUB and TVAL2 0, with
the destination of R341 and R343. -/
def State.inject (s : State) (p t : Nat) : State :=
  let x := s.threadFor p t
  let tr : Trap := ⟨.page1, x.tval, 0, subOf x.tstat, laneOf x.tstat⟩
  if x.inh then s.doubleTrap p t .page1
  else if s.servedByHandler p t then s.modThreadFor p t (fun x => { x.enterHandler tr x.tepc with flow := x.flow })
  else (s.modThreadFor p t (fun x => { x.record tr x.tepc with status := .suspended, flow := x.flow })).recordFault p t

/-- R344: RESUME2 on partition p; the thread's request counts again (R280). -/
def State.resume2 (s : State) (c : Cmd) (p : Nat) : State × Nat :=
  if 1 < c.op2.toNat then s.refuse 2
  else match s.namedThread p c.op1 with
    | none => s.refuse 3
    | some t =>
      if (s.threadFor p t).status ≠ .parked .page2 then s.refuse 3
      else
        let s := if c.op2 = 0 then s.modThreadFor p t (fun x => { x with status := .ready }) else s.inject p t
        (if s.away p (coreOf t) then s else s.relevel (coreOf t), 0)

/-- R344: RESUME2. -/
def execResume2 (cmd : Cmd) (s : State) : Result := .next (s.partCommand cmd (fun s p => s.resume2 cmd p))

/-- R393: the partition that a command of function fn names: op0 for the monitor, its own for a virtual function. -/
def commandPart (fn : Nat) (c : Cmd) : Nat := if fn = 0 then c.op0.toNat else fn - 1

/-- R392: a command of any function about a partition. -/
def State.sharedCommand (s : State) (fn : Nat) (c : Cmd) (act : State → Nat → State × Nat) : State :=
  let p := commandPart fn c
  if 47 < p then s.commandDone fn 63 c.htag 2
  else if !s.partExists p then s.commandDone fn p c.htag 3
  else
    let r := act s p
    r.1.commandDone fn p c.htag r.2

/-- R296, R398: the host's launch of record op1 of partition p: STATE before the first PSTART, else the checks of LARM, whose
codes other than 0 are answered plus 16 (log entry 37). -/
def State.hostLaunch (s : State) (c : Cmd) (p : Nat) : State × Nat :=
  if (s.part p).pstart.isNone then s.refuse 3
  else
    let n := c.op1.toNat
    let st := s.armStatus p n
    if st ≠ 0 then s.refuse (st + 16) else (s.arm p n, 0)

/-- R296: LAUNCH of function fn. -/
def execLaunch (fn : Nat) (cmd : Cmd) (s : State) : Result := .next (s.sharedCommand fn cmd (fun s p => s.hostLaunch cmd p))

/-- R144, R393: the host wakes a thread of partition p: BADARG where its rank is INVALID. -/
def State.hostWake (s : State) (c : Cmd) (p : Nat) : State × Nat :=
  match s.namedThread p c.op1 with
  | none => s.refuse 2
  | some t => (s.wakeFor p t, 0)

/-- R144: WAKE of function fn. -/
def execWake (fn : Nat) (cmd : Cmd) (s : State) : Result := .next (s.sharedCommand fn cmd (fun s p => s.hostWake cmd p))

/-- R387: ROLLBACK. -/
def execRollback (cmd : Cmd) (s : State) : Result :=
  .next (s.partCommand cmd (fun s p => s.rollbackEntry p cmd.op1.toNat))

/-! Modes, slices and time. -/

/-- R328: FMODE: one function of R328 in hardware or host-assisted mode; the information pages follow (R396). -/
def State.setMode (s : State) (c : Cmd) : State × Nat :=
  let n := c.op0.toNat
  if 5 < n ∨ 1 < c.op1.toNat then s.refuse 2
  else
    let m : BitVec 6 := 1#6 <<< n
    let s := { s with modes := if c.op1 = 1 then s.modes ||| m else s.modes &&& ~~~m }
    (s.rewriteAll (Sparse.keys s.parts), 0)

/-- R328: FMODE. -/
def execFmode (cmd : Cmd) (s : State) : Result :=
  .next (let r := s.setMode cmd
    r.1.plainDone cmd r.2)

/-- R309, R310, R313, R325: PSLICE on partition p: SLICE, REFILL and the next partition of its ring. A partition that becomes
time-shared while it runs begins a slice; one that ceases to be keeps DEBT at 0. -/
def State.setSlice (s : State) (c : Cmd) (p : Nat) : State × Nat :=
  let us := c.op1.toNat
  let nx := c.op3.toNat
  if us < 1000 ∨ 1000000 < us ∨ 2^32 ≤ c.op2.toNat ∨ (47 < nx ∧ nx ≠ 63) then s.refuse 2
  else
    let was := (s.part p).next.isSome
    let s := (s.refillAll p).modPart p (fun q => { q with slice := us, refill := c.op2.toNat, next := if nx = 63 then none else some nx })
    if nx = 63 then (s.modPart p (fun q => { q with debt := 0, sliceEnded := none, handsTo := none }), 0)
    else if !was && s.running p then (s.beginSlice p, 0)
    else (s, 0)

/-- R309: PSLICE. -/
def execPslice (cmd : Cmd) (s : State) : Result := .next (s.partCommand cmd (fun s p => s.setSlice cmd p))

/-- R401: TIMESET sets PTPTIME once, before the first PSTART, when the time base has started (R397). The device's own intervals
keep their length. -/
def State.setTime (s : State) (t : Nat) : State × Nat :=
  if s.timeSet || s.anyStart || decide (s.stagesUp < 6) then s.refuse 3
  else
    ({ s with
      now := t
      timeSet := true
      recentErrors := s.recentErrors.map (fun e => (e.1, e.2 + t - s.now))
      parts := Sparse.mapValues s.parts (fun _ q => { q with
        sliceUntil := q.sliceUntil + t - s.now
        refilled := (List.range 8).map (fun d => (d, Sparse.get q.refilled d 0 + t - s.now))
        sliceEnded := q.sliceEnded.map (fun x => x + t - s.now) }) }, 0)

/-- R401: TIMESET. -/
def execTimeset (cmd : Cmd) (s : State) : Result :=
  .next (let r := s.setTime cmd.op0.toNat
    r.1.plainDone cmd r.2)

/-! Attestation, firmware, the error log. -/

/-- R410: the first 0x180 bytes of a report over a nonce. -/
def State.attestedBytes (s : State) (nonce : List Byte) : List Byte :=
  nonce ++ leBytes s.version 8 ++ leBytes s.now 8 ++ Config.serialBytes ++ fit (Config.stageDigests s.firmware) 256
    ++ zeros 48

/-- R410: the 1024 bytes of a report. -/
def State.reportBytes (s : State) (nonce : List Byte) : List Byte :=
  let b := s.attestedBytes nonce
  b ++ fit (Config.signature b) 384 ++ zeros 256

/-- R410: the report over the nonce at one host address goes to another. -/
def State.attest (s : State) (nonce report : Nat) : State × Nat :=
  if !hostFits nonce 32 || !hostFits report 1024 then s.refuse 2
  else (s.writeBytesAt (hostKey report) (s.reportBytes (Memory.readBytes s.mem (hostKey nonce) 32)), 0)

/-- R410: ATTEST. -/
def execAttest (cmd : Cmd) (s : State) : Result :=
  .next (let r := s.attest cmd.op0.toNat cmd.op1.toNat
    r.1.plainDone cmd r.2)

/-- R407, R408: a new image is checked and stored until the next cold reset; one that fails a check is refused with STATE
(log entry 38). -/
def State.stageImage (s : State) (image : List Byte) : State × Nat :=
  if s.imageRuns image then ({ s with staged := some image }, 0) else s.refuse 3

/-- R408: FWSTAGE of n bytes at a host address. -/
def State.fwstage (s : State) (a n : Nat) : State × Nat :=
  if !hostFits a n then s.refuse 2 else s.stageImage (Memory.readBytes s.mem (hostKey a) n)

/-- R408: FWSTAGE. -/
def execFwstage (cmd : Cmd) (s : State) : Result :=
  .next (let r := s.fwstage cmd.op0.toNat cmd.op1.toNat
    r.1.plainDone cmd r.2)

/-- R363, R393: ERRLOG: n records from number k on, 32 bytes each, to host memory. -/
def State.copyErrors (s : State) (k n a : Nat) : State × Nat :=
  if n < 1 ∨ 4096 < n ∨ !hostFits a (32 * n) then s.refuse 2
  else (s.writeBytesAt (hostKey a) ((List.range n).flatMap (fun i => s.errorRecord (k + i))), 0)

/-- R393: ERRLOG. -/
def execErrlog (cmd : Cmd) (s : State) : Result :=
  .next (let r := s.copyErrors cmd.op0.toNat cmd.op1.toNat cmd.op2.toNat
    r.1.plainDone cmd r.2)

/-! The reset of a die (R400). -/

/-- R400: no core of die d holds a tag of a partition. -/
def State.dieUnused (s : State) (d : Nat) : Bool := (coresOfDie d).all (fun c => 47 < s.tagOf c)

/-- R400: die d's L2 is empty as at a cold reset: a line that is dirty there falls back to the Basin's copy, and its dirty notices
are no longer sent. -/
def State.coldL2 (s : State) (d : Nat) : State :=
  let mine (a : Nat) : Bool := isHbm a && stackOf a == d
  { s with
    mem := Memory.restore s.mem (s.stale.filter (fun e => mine e.1))
    stale := s.stale.filter (fun e => !mine e.1)
    noticed := s.noticed.filter (fun l => !mine (64 * l))
    notices := s.notices.filter (fun n => !mine (64 * n.line)) }

/-- An agent is a structure of die d. -/
def Agent.onDie (d : Nat) : Agent → Bool
  | .slice k _ => k == d
  | .ni c => dieOf c == d
  | .basin | .weir | .hostIO | .optical => false

/-- R308, R309, R325, R340, R400: a partition's state that the structures of die d hold: its L2's counter and soft limit, the
engines' budget, the slots of the fault-queue page and the region words. Where the monitor has placed its pages stays (log
entry 53). -/
def Partition.dieCleared (q : Partition) (d now : Nat) : Partition :=
  { q with
    occupancy := Sparse.erase q.occupancy d
    softLimits := Sparse.erase q.softLimits d
    budget := Sparse.erase q.budget d
    refilled := Sparse.set q.refilled d (now / 100000 * 100000)
    slots := q.slots.filter (fun e => e.1 / 64 != d)
    regions := q.regions.filter (fun e => e.1 / 128 != d) }

/-- R400: every structure of die d is as at a cold reset, but the spare map and the quarantine. -/
def State.dieCleared (s : State) (d : Nat) : State :=
  let here (t : Nat) : Bool := dieOf (coreOf t) == d
  let lo := spadKey (128 * d) 0
  let s := s.coldL2 d
  { s with
    threads := s.threads.filter (fun e => !here e.1)
    cores := s.cores.filter (fun e => dieOf e.1 != d)
    mem := Memory.clear s.mem lo (128 * 2^20)
    poison := s.poison.filter (fun a => !(decide (lo ≤ a) && decide (a < lo + 128 * 2^20)))
    blocks := s.blocks.filter (fun b => !(isSpad (256 * b) && dieOf (spadCore (256 * b)) == d))
    domains := s.domains.filter (fun e => e.1 / 16 != d)
    forwards := s.forwards.filter (fun f => f.die != d)
    tags := s.tags.filter (fun e => e.1 / 136 != d)
    copies := s.copies.filter (fun q => q.die != d)
    sfu := s.sfu.filter (fun e => dieOf e.2 != d)
    dropLog := s.dropLog.filter (fun e => e.1 / 136 != d)
    parts := Sparse.mapValues s.parts (fun _ q => q.dieCleared d s.now)
    voltages := s.voltages.filter (fun e => e.1 / 4 != d)
    droop := s.droop.filter (fun dom => dom / 4 != d)
    limited := s.limited.filter (fun dom => dom / 4 != d)
    windows := s.windows.filter (fun w => !here w.thread && !w.agent.onDie d) }

/-- R400: DIERESET of die d. -/
def State.dieReset (s : State) (d : Nat) : State × Nat :=
  if 7 < d then s.refuse 2 else if !s.dieUnused d then s.refuse 3 else (s.dieCleared d, 0)

/-- R400: DIERESET. -/
def execDiereset (cmd : Cmd) (s : State) : Result :=
  .next (let r := s.dieReset cmd.op0.toNat
    r.1.plainDone cmd r.2)

/-! Jobs (R394). -/

/-- R364, R394: the spore record of a partition under a job number: a new number begins with no epoch. -/
def Spore.underJob (sp : Spore) (job pkg count : Nat) (nodes : List Nat) : Spore :=
  let new := { sp with job := job, pkg := pkg, packages := count, nodes := nodes }
  if sp.job = job then new
  else { new with issued := 0, last := 0, cur := 0, epoch := 0, cuts := 0, lastManifest := 0, state := .idle, fail := 0 }

/-- R377: under a new job no packet of partition p belongs to a cut. -/
def State.forgetCuts (s : State) (p : Nat) : State :=
  let f (k : Packet) : Packet := if k.tag = p then { k with cut := 0 } else k
  { s with packets := s.packets.map f, saved := s.saved.map (fun v => { v with ring := v.ring.map f }) }

/-- R394: the node table: count numbers of two bytes at a host address, read only for a job of several packages; none where it
does not lie within the host's addresses of 48 bits (R336, R389). -/
def State.nodeTable (s : State) (a count : Nat) : Option (List Nat) :=
  if count ≤ 1 then some []
  else if !hostFits a (2 * count) then none
  else some ((List.range count).map (fun i => leValue (Memory.readBytes s.mem (hostKey (a + 2 * i)) 2)))

/-- R394: PJOB on partition p. -/
def State.nameJob (s : State) (c : Cmd) (p : Nat) : State × Nat :=
  let job := field c.op1.toNat 0 16
  let pkg := field c.op2.toNat 0 8
  let count := field c.op2.toNat 8 8
  if count = 0 ∨ count ≤ pkg then s.refuse 2
  else if (s.part p).spore.busy then s.refuse 3
  else match s.nodeTable c.op3.toNat count with
    | none => s.refuse 2
    | some nodes =>
      let s := if (s.part p).spore.job = job then s else s.forgetCuts p
      ((s.modSpore p (fun sp => sp.underJob job pkg count nodes)).rewriteInfo p, 0)

/-- R394: PJOB. -/
def execPjob (cmd : Cmd) (s : State) : Result := .next (s.partCommand cmd (fun s p => s.nameJob cmd p))

end Sys2Proof.Machine
end

