-- ==== Sys2Proof/Machine/Dispatch.lean ====
section
/-!
DEFINITION. The one match that sends each instruction to its meaning: the words of R48 to R291 first, then the steps of the
package's other agents (spec/95_what_each_step_holds.md: every row of the opcode table is one step).
-/
namespace Sys2Proof.Machine
open Sys2Proof

def exec (i : Instr) (s : State) : Host.Outcome State Fault Refusal :=
  match i with
  | .nop => Sys2Proof.Machine.execNop s
  | .halt => Sys2Proof.Machine.execHalt s
  | .trap code => Sys2Proof.Machine.execTrap code s
  | .eret => Sys2Proof.Machine.execEret s
  | .brk => Sys2Proof.Machine.execBrk s
  | .tyield => Sys2Proof.Machine.execTyield s
  | .tsleep ra => Sys2Proof.Machine.execTsleep ra s
  | .twake ra => Sys2Proof.Machine.execTwake ra s
  | .sigchk sig => Sys2Proof.Machine.execSigchk sig s
  | .fenceCore => Sys2Proof.Machine.execFenceCore s
  | .fenceDie => Sys2Proof.Machine.execFenceDie s
  | .fencePkg => Sys2Proof.Machine.execFencePkg s
  | .fenceSys => Sys2Proof.Machine.execFenceSys s
  | .csrrw rd ra csr => Sys2Proof.Machine.execCsrrw rd ra csr s
  | .csrrs rd ra csr => Sys2Proof.Machine.execCsrrs rd ra csr s
  | .jal rd off => Sys2Proof.Machine.execJal rd off s
  | .jalr rd ra imm => Sys2Proof.Machine.execJalr rd ra imm s
  | .beq ra rb off => Sys2Proof.Machine.execBeq ra rb off s
  | .bne ra rb off => Sys2Proof.Machine.execBne ra rb off s
  | .blt ra rb off => Sys2Proof.Machine.execBlt ra rb off s
  | .bge ra rb off => Sys2Proof.Machine.execBge ra rb off s
  | .bltu ra rb off => Sys2Proof.Machine.execBltu ra rb off s
  | .bgeu ra rb off => Sys2Proof.Machine.execBgeu ra rb off s
  | .loop ra off => Sys2Proof.Machine.execLoop ra off s
  | .load rd ra imm sz nt z => Sys2Proof.Machine.execLoad rd ra imm sz nt z s
  | .store rs ra imm sz nt g => Sys2Proof.Machine.execStore rs ra imm sz nt g s
  | .lda rd ra imm sz scope => Sys2Proof.Machine.execLda rd ra imm sz scope s
  | .stl rs ra g imm sz scope => Sys2Proof.Machine.execStl rs ra g imm sz scope s
  | .amoAdd rd ra rb ty g => Sys2Proof.Machine.execAmoAdd rd ra rb ty g s
  | .amoAnd rd ra rb ty g => Sys2Proof.Machine.execAmoAnd rd ra rb ty g s
  | .amoOr rd ra rb ty g => Sys2Proof.Machine.execAmoOr rd ra rb ty g s
  | .amoXor rd ra rb ty g => Sys2Proof.Machine.execAmoXor rd ra rb ty g s
  | .amoMin rd ra rb ty g => Sys2Proof.Machine.execAmoMin rd ra rb ty g s
  | .amoMax rd ra rb ty g => Sys2Proof.Machine.execAmoMax rd ra rb ty g s
  | .amoMinu rd ra rb ty g => Sys2Proof.Machine.execAmoMinu rd ra rb ty g s
  | .amoMaxu rd ra rb ty g => Sys2Proof.Machine.execAmoMaxu rd ra rb ty g s
  | .amoSwap rd ra rb ty g => Sys2Proof.Machine.execAmoSwap rd ra rb ty g s
  | .amoCas rd ra rb ty g => Sys2Proof.Machine.execAmoCas rd ra rb ty g s
  | .getr rd ra ty => Sys2Proof.Machine.execGetr rd ra ty s
  | .putr ra rb ty g => Sys2Proof.Machine.execPutr ra rb ty g s
  | .get rd ra rb => Sys2Proof.Machine.execGet rd ra rb s
  | .put rd ra rb g => Sys2Proof.Machine.execPut rd ra rb g s
  | .cpop rd ra => Sys2Proof.Machine.execCpop rd ra s
  | .cwait => Sys2Proof.Machine.execCwait s
  | .send rs ra ch => Sys2Proof.Machine.execSend rs ra ch s
  | .recv rd ra ch => Sys2Proof.Machine.execRecv rd ra ch s
  | .rpoll rd ra ch => Sys2Proof.Machine.execRpoll rd ra ch s
  | .bar dom => Sys2Proof.Machine.execBar dom s
  | .step dom => Sys2Proof.Machine.execStep dom s
  | .bdom rd ra dom => Sys2Proof.Machine.execBdom rd ra dom s
  | .weirCadd rd ra rb => Sys2Proof.Machine.execWeirCadd rd ra rb s
  | .weirCread rd ra => Sys2Proof.Machine.execWeirCread rd ra s
  | .weirCswap rd ra rb => Sys2Proof.Machine.execWeirCswap rd ra rb s
  | .weirSwait ra => Sys2Proof.Machine.execWeirSwait ra s
  | .weirSpost ra => Sys2Proof.Machine.execWeirSpost ra s
  | .weirStry rd ra => Sys2Proof.Machine.execWeirStry rd ra s
  | .fcfg ra fl => Sys2Proof.Machine.execFcfg ra fl s
  | .fwaitf ra fl => Sys2Proof.Machine.execFwaitf ra fl s
  | .fwaite ra fl => Sys2Proof.Machine.execFwaite ra fl s
  | .fprod ra fl => Sys2Proof.Machine.execFprod ra fl s
  | .fcons ra fl => Sys2Proof.Machine.execFcons ra fl s
  | .frd rd fl => Sys2Proof.Machine.execFrd rd fl s
  | .rsv rd ra => Sys2Proof.Machine.execRsv rd ra s
  | .rsvW rd ra => Sys2Proof.Machine.execRsvW rd ra s
  | .rsvP rd ra => Sys2Proof.Machine.execRsvP rd ra s
  | .rsvWP rd ra => Sys2Proof.Machine.execRsvWP rd ra s
  | .spnd ra => Sys2Proof.Machine.execSpnd ra s
  | .rrel rd => Sys2Proof.Machine.execRrel rd s
  | .rfill rd => Sys2Proof.Machine.execRfill rd s
  | .rwait ra => Sys2Proof.Machine.execRwait ra s
  | .sprint level => Sys2Proof.Machine.execSprint level s
  | .spore rd ra => Sys2Proof.Machine.execSpore rd ra s
  | .larm rd ra => Sys2Proof.Machine.execLarm rd ra s
  | .lpatchPrio rd ra rb => Sys2Proof.Machine.execLpatchPrio rd ra rb s
  | .lpatchArg rd ra rb => Sys2Proof.Machine.execLpatchArg rd ra rb s
  | .lpatchCount rd ra rb => Sys2Proof.Machine.execLpatchCount rd ra rb s
  | .lpatchDone rd ra rb => Sys2Proof.Machine.execLpatchDone rd ra rb s
  | .vld vd ra rb e => Sys2Proof.Machine.execVld vd ra rb e s
  | .vlds vd ra rb e => Sys2Proof.Machine.execVlds vd ra rb e s
  | .vldf vd ra rb e => Sys2Proof.Machine.execVldf vd ra rb e s
  | .vst vd ra rb e => Sys2Proof.Machine.execVst vd ra rb e s
  | .vsts vd ra rb e => Sys2Proof.Machine.execVsts vd ra rb e s
  | .vstf vd ra rb e => Sys2Proof.Machine.execVstf vd ra rb e s
  | .vsetl rd ra => Sys2Proof.Machine.execVsetl rd ra s
  | .vloop ra k => Sys2Proof.Machine.execVloop ra k s
  | .sbind v ra fl => Sys2Proof.Machine.execSbind v ra fl s
  | .sunbind v => Sys2Proof.Machine.execSunbind v s
  | .vmovxXv rd ra vb => Sys2Proof.Machine.execVmovxXv rd ra vb s
  | .vmovxVx vd ra rb => Sys2Proof.Machine.execVmovxVx vd ra rb s
  | .add rd ra rb => Sys2Proof.Machine.execAdd rd ra rb s
  | .sub rd ra rb => Sys2Proof.Machine.execSub rd ra rb s
  | .and rd ra rb => Sys2Proof.Machine.execAnd rd ra rb s
  | .or rd ra rb => Sys2Proof.Machine.execOr rd ra rb s
  | .xor rd ra rb => Sys2Proof.Machine.execXor rd ra rb s
  | .sll rd ra rb => Sys2Proof.Machine.execSll rd ra rb s
  | .srl rd ra rb => Sys2Proof.Machine.execSrl rd ra rb s
  | .sra rd ra rb => Sys2Proof.Machine.execSra rd ra rb s
  | .slt rd ra rb => Sys2Proof.Machine.execSlt rd ra rb s
  | .sltu rd ra rb => Sys2Proof.Machine.execSltu rd ra rb s
  | .min rd ra rb => Sys2Proof.Machine.execMin rd ra rb s
  | .max rd ra rb => Sys2Proof.Machine.execMax rd ra rb s
  | .minu rd ra rb => Sys2Proof.Machine.execMinu rd ra rb s
  | .maxu rd ra rb => Sys2Proof.Machine.execMaxu rd ra rb s
  | .mul rd ra rb => Sys2Proof.Machine.execMul rd ra rb s
  | .mulhiSs rd ra rb => Sys2Proof.Machine.execMulhiSs rd ra rb s
  | .mulhiUu rd ra rb => Sys2Proof.Machine.execMulhiUu rd ra rb s
  | .mulhiSu rd ra rb => Sys2Proof.Machine.execMulhiSu rd ra rb s
  | .div rd ra rb => Sys2Proof.Machine.execDiv rd ra rb s
  | .divu rd ra rb => Sys2Proof.Machine.execDivu rd ra rb s
  | .rem rd ra rb => Sys2Proof.Machine.execRem rd ra rb s
  | .remu rd ra rb => Sys2Proof.Machine.execRemu rd ra rb s
  | .addw rd ra rb => Sys2Proof.Machine.execAddw rd ra rb s
  | .subw rd ra rb => Sys2Proof.Machine.execSubw rd ra rb s
  | .sllw rd ra rb => Sys2Proof.Machine.execSllw rd ra rb s
  | .srlw rd ra rb => Sys2Proof.Machine.execSrlw rd ra rb s
  | .sraw rd ra rb => Sys2Proof.Machine.execSraw rd ra rb s
  | .mulw rd ra rb => Sys2Proof.Machine.execMulw rd ra rb s
  | .divw rd ra rb => Sys2Proof.Machine.execDivw rd ra rb s
  | .divuw rd ra rb => Sys2Proof.Machine.execDivuw rd ra rb s
  | .remw rd ra rb => Sys2Proof.Machine.execRemw rd ra rb s
  | .remuw rd ra rb => Sys2Proof.Machine.execRemuw rd ra rb s
  | .addi rd ra imm => Sys2Proof.Machine.execAddi rd ra imm s
  | .andi rd ra imm => Sys2Proof.Machine.execAndi rd ra imm s
  | .ori rd ra imm => Sys2Proof.Machine.execOri rd ra imm s
  | .xori rd ra imm => Sys2Proof.Machine.execXori rd ra imm s
  | .slti rd ra imm => Sys2Proof.Machine.execSlti rd ra imm s
  | .sltiu rd ra imm => Sys2Proof.Machine.execSltiu rd ra imm s
  | .slli rd ra sh => Sys2Proof.Machine.execSlli rd ra sh s
  | .srli rd ra sh => Sys2Proof.Machine.execSrli rd ra sh s
  | .srai rd ra sh => Sys2Proof.Machine.execSrai rd ra sh s
  | .slliw rd ra sh => Sys2Proof.Machine.execSlliw rd ra sh s
  | .srliw rd ra sh => Sys2Proof.Machine.execSrliw rd ra sh s
  | .sraiw rd ra sh => Sys2Proof.Machine.execSraiw rd ra sh s
  | .lui rd imm => Sys2Proof.Machine.execLui rd imm s
  | .auipc rd imm => Sys2Proof.Machine.execAuipc rd imm s
  | .clz rd ra => Sys2Proof.Machine.execClz rd ra s
  | .ctz rd ra => Sys2Proof.Machine.execCtz rd ra s
  | .popc rd ra => Sys2Proof.Machine.execPopc rd ra s
  | .bext rd ra rb => Sys2Proof.Machine.execBext rd ra rb s
  | .bins rd ra rb => Sys2Proof.Machine.execBins rd ra rb s
  | .sext rd ra rb => Sys2Proof.Machine.execSext rd ra rb s
  | .zext rd ra rb => Sys2Proof.Machine.execZext rd ra rb s
  | .lea rd ra rb => Sys2Proof.Machine.execLea rd ra rb s
  | .lea2 rd ra rb => Sys2Proof.Machine.execLea2 rd ra rb s
  | .lea4 rd ra rb => Sys2Proof.Machine.execLea4 rd ra rb s
  | .lea8 rd ra rb => Sys2Proof.Machine.execLea8 rd ra rb s
  | .fadd rd ra rb rm => Sys2Proof.Machine.execFadd rd ra rb rm s
  | .fsub rd ra rb rm => Sys2Proof.Machine.execFsub rd ra rb rm s
  | .fmul rd ra rb rm => Sys2Proof.Machine.execFmul rd ra rb rm s
  | .fdiv rd ra rb rm => Sys2Proof.Machine.execFdiv rd ra rb rm s
  | .fsqrt rd ra rm => Sys2Proof.Machine.execFsqrt rd ra rm s
  | .fmin rd ra rb => Sys2Proof.Machine.execFmin rd ra rb s
  | .fmax rd ra rb => Sys2Proof.Machine.execFmax rd ra rb s
  | .feq rd ra rb => Sys2Proof.Machine.execFeq rd ra rb s
  | .fclt rd ra rb => Sys2Proof.Machine.execFclt rd ra rb s
  | .fcle rd ra rb => Sys2Proof.Machine.execFcle rd ra rb s
  | .ftoiW rd ra rm => Sys2Proof.Machine.execFtoiW rd ra rm s
  | .ftoiL rd ra rm => Sys2Proof.Machine.execFtoiL rd ra rm s
  | .itofW rd ra rm => Sys2Proof.Machine.execItofW rd ra rm s
  | .itofL rd ra rm => Sys2Proof.Machine.execItofL rd ra rm s
  | .fabs rd ra => Sys2Proof.Machine.execFabs rd ra s
  | .fneg rd ra => Sys2Proof.Machine.execFneg rd ra s
  | .fmaS rd ra rb rc => Sys2Proof.Machine.execFmaS rd ra rb rc s
  | .fmsS rd ra rb rc => Sys2Proof.Machine.execFmsS rd ra rb rc s
  | .varithVadd vd va vb ha hb ty => Sys2Proof.Machine.execVarithVadd vd va vb ha hb ty s
  | .varithVsub vd va vb ha hb ty => Sys2Proof.Machine.execVarithVsub vd va vb ha hb ty s
  | .varithVmul vd va vb ha hb ty => Sys2Proof.Machine.execVarithVmul vd va vb ha hb ty s
  | .varithVmin vd va vb ha hb ty => Sys2Proof.Machine.execVarithVmin vd va vb ha hb ty s
  | .varithVmax vd va vb ha hb ty => Sys2Proof.Machine.execVarithVmax vd va vb ha hb ty s
  | .varithVabs vd va ha ty => Sys2Proof.Machine.execVarithVabs vd va ha ty s
  | .varithVneg vd va ha ty => Sys2Proof.Machine.execVarithVneg vd va ha ty s
  | .vintVadd vd va vb ha hb ty => Sys2Proof.Machine.execVintVadd vd va vb ha hb ty s
  | .vintVsub vd va vb ha hb ty => Sys2Proof.Machine.execVintVsub vd va vb ha hb ty s
  | .vintVmul vd va vb ha hb ty => Sys2Proof.Machine.execVintVmul vd va vb ha hb ty s
  | .vintVmin vd va vb ha hb ty => Sys2Proof.Machine.execVintVmin vd va vb ha hb ty s
  | .vintVmax vd va vb ha hb ty => Sys2Proof.Machine.execVintVmax vd va vb ha hb ty s
  | .vintVminu vd va vb ha hb ty => Sys2Proof.Machine.execVintVminu vd va vb ha hb ty s
  | .vintVmaxu vd va vb ha hb ty => Sys2Proof.Machine.execVintVmaxu vd va vb ha hb ty s
  | .vintVand vd va vb ha hb ty => Sys2Proof.Machine.execVintVand vd va vb ha hb ty s
  | .vintVor vd va vb ha hb ty => Sys2Proof.Machine.execVintVor vd va vb ha hb ty s
  | .vintVxor vd va vb ha hb ty => Sys2Proof.Machine.execVintVxor vd va vb ha hb ty s
  | .vintVsll vd va vb ha hb ty => Sys2Proof.Machine.execVintVsll vd va vb ha hb ty s
  | .vintVsrl vd va vb ha hb ty => Sys2Proof.Machine.execVintVsrl vd va vb ha hb ty s
  | .vintVsra vd va vb ha hb ty => Sys2Proof.Machine.execVintVsra vd va vb ha hb ty s
  | .vintVadds vd va vb ha hb ty => Sys2Proof.Machine.execVintVadds vd va vb ha hb ty s
  | .vintVsubs vd va vb ha hb ty => Sys2Proof.Machine.execVintVsubs vd va vb ha hb ty s
  | .vcvtBf16F32 vd va vb ha hb sr => Sys2Proof.Machine.execVcvtBf16F32 vd va vb ha hb sr s
  | .vcvtF32Bf16Lo vd va ha => Sys2Proof.Machine.execVcvtF32Bf16Lo vd va ha s
  | .vcvtF32Bf16Hi vd va ha => Sys2Proof.Machine.execVcvtF32Bf16Hi vd va ha s
  | .vcvtF16F32 vd va vb ha hb sr => Sys2Proof.Machine.execVcvtF16F32 vd va vb ha hb sr s
  | .vcvtF32F16Lo vd va ha => Sys2Proof.Machine.execVcvtF32F16Lo vd va ha s
  | .vcvtF32F16Hi vd va ha => Sys2Proof.Machine.execVcvtF32F16Hi vd va ha s
  | .vcvtF32I32 vd va ha => Sys2Proof.Machine.execVcvtF32I32 vd va ha s
  | .vcvtI32F32 vd va ha => Sys2Proof.Machine.execVcvtI32F32 vd va ha s
  | .vunpkE2m1 vd va ha => Sys2Proof.Machine.execVunpkE2m1 vd va ha s
  | .vunpkE3m2 vd va ha => Sys2Proof.Machine.execVunpkE3m2 vd va ha s
  | .vunpkE2m3 vd va ha => Sys2Proof.Machine.execVunpkE2m3 vd va ha s
  | .vunpkE4m3 vd va ha => Sys2Proof.Machine.execVunpkE4m3 vd va ha s
  | .vunpkE5m2 vd va ha => Sys2Proof.Machine.execVunpkE5m2 vd va ha s
  | .vpackE2m1 vd va ha sr => Sys2Proof.Machine.execVpackE2m1 vd va ha sr s
  | .vpackE3m2 vd va ha sr => Sys2Proof.Machine.execVpackE3m2 vd va ha sr s
  | .vpackE2m3 vd va ha sr => Sys2Proof.Machine.execVpackE2m3 vd va ha sr s
  | .vpackE4m3 vd va ha sr => Sys2Proof.Machine.execVpackE4m3 vd va ha sr s
  | .vpackE5m2 vd va ha sr => Sys2Proof.Machine.execVpackE5m2 vd va ha sr s
  | .vrsum vd va ha ty => Sys2Proof.Machine.execVrsum vd va ha ty s
  | .vrmax vd va ha ty => Sys2Proof.Machine.execVrmax vd va ha ty s
  | .vrmin vd va ha ty => Sys2Proof.Machine.execVrmin vd va ha ty s
  | .vcmpeq vd va vb ha hb ty => Sys2Proof.Machine.execVcmpeq vd va vb ha hb ty s
  | .vcmplt vd va vb ha hb ty => Sys2Proof.Machine.execVcmplt vd va vb ha hb ty s
  | .vcmple vd va vb ha hb ty => Sys2Proof.Machine.execVcmple vd va vb ha hb ty s
  | .vsel vd va vb ha hb ty => Sys2Proof.Machine.execVsel vd va vb ha hb ty s
  | .vshuf vd va vb ha hb ty => Sys2Proof.Machine.execVshuf vd va vb ha hb ty s
  | .vbcast vd va ha ty => Sys2Proof.Machine.execVbcast vd va ha ty s
  | .vrcp vd va ha => Sys2Proof.Machine.execVrcp vd va ha s
  | .vrsqrt vd va ha => Sys2Proof.Machine.execVrsqrt vd va ha s
  | .vsqrt vd va ha => Sys2Proof.Machine.execVsqrt vd va ha s
  | .vexp2 vd va ha => Sys2Proof.Machine.execVexp2 vd va ha s
  | .vlog2 vd va ha => Sys2Proof.Machine.execVlog2 vd va ha s
  | .vfma vd va vb ha hb ty => Sys2Proof.Machine.execVfma vd va vb ha hb ty s
  | .vfms vd va vb ha hb ty => Sys2Proof.Machine.execVfms vd va vb ha hb ty s
  | .vfnma vd va vb ha hb ty => Sys2Proof.Machine.execVfnma vd va vb ha hb ty s
  | .vectorEntryExecute c => Sys2Proof.Machine.execVectorEntryExecute c s
  | .vectorEntryRetire c => Sys2Proof.Machine.execVectorEntryRetire c s
  | .sfuRequest c => Sys2Proof.Machine.execSfuRequest c s
  | .mxMma c => Sys2Proof.Machine.execMxMma c s
  | .mxMmad c => Sys2Proof.Machine.execMxMmad c s
  | .mxKstep c => Sys2Proof.Machine.execMxKstep c s
  | .mxZero c => Sys2Proof.Machine.execMxZero c s
  | .mxLoad c => Sys2Proof.Machine.execMxLoad c s
  | .mxStore c => Sys2Proof.Machine.execMxStore c s
  | .mxFence c => Sys2Proof.Machine.execMxFence c s
  | .mxScaleband c => Sys2Proof.Machine.execMxScaleband c s
  | .storePerformed t => Sys2Proof.Machine.execStorePerformed t s
  | .globalAck w => Sys2Proof.Machine.execGlobalAck w s
  | .ackTimeout w committed => Sys2Proof.Machine.execAckTimeout w committed s
  | .dirtyNoticeArrival n => Sys2Proof.Machine.execDirtyNoticeArrival n s
  | .dirtyNoticeAck n => Sys2Proof.Machine.execDirtyNoticeAck n s
  | .basinHoldRelease w => Sys2Proof.Machine.execBasinHoldRelease w s
  | .remoteAccessRequest r => Sys2Proof.Machine.execRemoteAccessRequest r s
  | .remoteResponse r => Sys2Proof.Machine.execRemoteResponse r s
  | .requestResend r => Sys2Proof.Machine.execRequestResend r s
  | .creditGrant c ch => Sys2Proof.Machine.execCreditGrant c ch s
  | .messageArrival k => Sys2Proof.Machine.execMessageArrival k s
  | .packetEjection k => Sys2Proof.Machine.execPacketEjection k s
  | .wakeDelivery k => Sys2Proof.Machine.execWakeDelivery k s
  | .tsleepTimeout t => Sys2Proof.Machine.execTsleepTimeout t s
  | .generationComplete d dom => Sys2Proof.Machine.execGenerationComplete d dom s
  | .watchdogExpiry t => Sys2Proof.Machine.execWatchdogExpiry t s
  | .asyncTrapDelivery t => Sys2Proof.Machine.execAsyncTrapDelivery t s
  | .launchStart p d => Sys2Proof.Machine.execLaunchStart p d s
  | .electionTimeout l => Sys2Proof.Machine.execElectionTimeout l s
  | .leaderPost l => Sys2Proof.Machine.execLeaderPost l s
  | .leaderFail l => Sys2Proof.Machine.execLeaderFail l s
  | .haltComplete t => Sys2Proof.Machine.execHaltComplete t s
  | .copyCommandStart d => Sys2Proof.Machine.execCopyCommandStart d s
  | .copyComplete q => Sys2Proof.Machine.execCopyComplete q s
  | .copyBudgetRefill p d => Sys2Proof.Machine.execCopyBudgetRefill p d s
  | .drainStep => Sys2Proof.Machine.execDrainStep s
  | .drainMeasure drain => Sys2Proof.Machine.execDrainMeasure drain s
  | .meterTick c energy => Sys2Proof.Machine.execMeterTick c energy s
  | .sluiceEvaluation => Sys2Proof.Machine.execSluiceEvaluation s
  | .powerLimitCut mw => Sys2Proof.Machine.execPowerLimitCut mw s
  | .reservationGrant t => Sys2Proof.Machine.execReservationGrant t s
  | .rwaitRelease t => Sys2Proof.Machine.execRwaitRelease t s
  | .levelSwitch c => Sys2Proof.Machine.execLevelSwitch c s
  | .telemetryFrameWrite d power records => Sys2Proof.Machine.execTelemetryFrameWrite d power records s
  | .sliceEnd p => Sys2Proof.Machine.execSliceEnd p s
  | .superstepSwitch p => Sys2Proof.Machine.execSuperstepSwitch p s
  | .forcedPreemption c => Sys2Proof.Machine.execForcedPreemption c s
  | .coreResume c => Sys2Proof.Machine.execCoreResume c s
  | .regionWatchdog c => Sys2Proof.Machine.execRegionWatchdog c s
  | .resizeApply p => Sys2Proof.Machine.execResizeApply p s
  | .frameScrubComplete f => Sys2Proof.Machine.execFrameScrubComplete f s
  | .bootScrubComplete => Sys2Proof.Machine.execBootScrubComplete s
  | .dieQuarantine d => Sys2Proof.Machine.execDieQuarantine d s
  | .linkRetryFail t a => Sys2Proof.Machine.execLinkRetryFail t a s
  | .opticalLaneLoss node => Sys2Proof.Machine.execOpticalLaneLoss node s
  | .ptpInputLock => Sys2Proof.Machine.execPtpInputLock s
  | .ptpInputLoss => Sys2Proof.Machine.execPtpInputLoss s
  | .voltageDroop dom => Sys2Proof.Machine.execVoltageDroop dom s
  | .currentLimit dom => Sys2Proof.Machine.execCurrentLimit dom s
  | .coldReset stage => Sys2Proof.Machine.execColdReset stage s
  | .hostRead fn gpa n => Sys2Proof.Machine.execHostRead fn gpa n s
  | .hostWrite fn gpa data => Sys2Proof.Machine.execHostWrite fn gpa data s
  | .hostAtomic fn gpa op n b cmp => Sys2Proof.Machine.execHostAtomic fn gpa op n b cmp s
  | .cqtailWrite fn v => Sys2Proof.Machine.execCqtailWrite fn v s
  | .ringConfigWrite fn off v => Sys2Proof.Machine.execRingConfigWrite fn off v s
  | .eqheadWrite fn v => Sys2Proof.Machine.execEqheadWrite fn v s
  | .pcreate cmd => Sys2Proof.Machine.execPcreate cmd s
  | .pdestroy cmd => Sys2Proof.Machine.execPdestroy cmd s
  | .presize cmd => Sys2Proof.Machine.execPresize cmd s
  | .pflr cmd => Sys2Proof.Machine.execPflr cmd s
  | .pres cmd => Sys2Proof.Machine.execPres cmd s
  | .pscope cmd => Sys2Proof.Machine.execPscope cmd s
  | .pweir cmd => Sys2Proof.Machine.execPweir cmd s
  | .pplace cmd => Sys2Proof.Machine.execPplace cmd s
  | .s1root cmd => Sys2Proof.Machine.execS1root cmd s
  | .s2write cmd => Sys2Proof.Machine.execS2write cmd s
  | .fassign cmd => Sys2Proof.Machine.execFassign cmd s
  | .ffree cmd => Sys2Proof.Machine.execFfree cmd s
  | .pstart cmd => Sys2Proof.Machine.execPstart cmd s
  | .resume2 cmd => Sys2Proof.Machine.execResume2 cmd s
  | .launch fn cmd => Sys2Proof.Machine.execLaunch fn cmd s
  | .wake fn cmd => Sys2Proof.Machine.execWake fn cmd s
  | .rollback cmd => Sys2Proof.Machine.execRollback cmd s
  | .fmode cmd => Sys2Proof.Machine.execFmode cmd s
  | .pslice cmd => Sys2Proof.Machine.execPslice cmd s
  | .timeset cmd => Sys2Proof.Machine.execTimeset cmd s
  | .attest cmd => Sys2Proof.Machine.execAttest cmd s
  | .fwstage cmd => Sys2Proof.Machine.execFwstage cmd s
  | .errlog cmd => Sys2Proof.Machine.execErrlog cmd s
  | .diereset cmd => Sys2Proof.Machine.execDiereset cmd s
  | .pjob cmd => Sys2Proof.Machine.execPjob cmd s
  | .sporeArm p => Sys2Proof.Machine.execSporeArm p s
  | .coreCaptureDone c => Sys2Proof.Machine.execCoreCaptureDone c s
  | .backgroundPageCopy p va => Sys2Proof.Machine.execBackgroundPageCopy p va s
  | .markerArrival pkg sender c => Sys2Proof.Machine.execMarkerArrival pkg sender c s
  | .sporeSeal p => Sys2Proof.Machine.execSporeSeal p s
  | .sporeCommit p => Sys2Proof.Machine.execSporeCommit p s
  | .sporeFail p cause => Sys2Proof.Machine.execSporeFail p cause s
  | .errorRecordRequest first count => Sys2Proof.Machine.execErrorRecordRequest first count s
  | .i3cDynamicAddress a => Sys2Proof.Machine.execI3cDynamicAddress a s
  | .getVersion => Sys2Proof.Machine.execGetVersion s
  | .getCapabilities => Sys2Proof.Machine.execGetCapabilities s
  | .negotiateAlgorithms => Sys2Proof.Machine.execNegotiateAlgorithms s
  | .getCertificate => Sys2Proof.Machine.execGetCertificate s
  | .getMeasurements => Sys2Proof.Machine.execGetMeasurements s
  | .instructionFetchReturn t => Sys2Proof.Machine.execInstructionFetchReturn t s
  | .storeMissReturn t => Sys2Proof.Machine.execStoreMissReturn t s
  | .slotWindowClose t => Sys2Proof.Machine.execSlotWindowClose t s
  | .fabricDeviceAccess write die va n data => Sys2Proof.Machine.execFabricDeviceAccess write die va n data s
  | .hostFabricAcknowledgement w => Sys2Proof.Machine.execHostFabricAcknowledgement w s
  | .monitorSluiceGrant t => Sys2Proof.Machine.execMonitorSluiceGrant t s
  | .hostWalkReply t => Sys2Proof.Machine.execHostWalkReply t s
  | .monitorNamesLeader l d => Sys2Proof.Machine.execMonitorNamesLeader l d s
  | .monitorNamesSpare d half => Sys2Proof.Machine.execMonitorNamesSpare d half s
  | .basinInvalidateRequest f => Sys2Proof.Machine.execBasinInvalidateRequest f s
  | .voltageRecovery dom => Sys2Proof.Machine.execVoltageRecovery dom s
  | .currentLimitRelease dom => Sys2Proof.Machine.execCurrentLimitRelease dom s

end Sys2Proof.Machine
end

