-- ==== Sys2Proof/Machine/Issue.lean ====
section
/-!
DEFINITION. What happens between two steps: the ends of waits (R19), the choice of the thread that issues (R20, R143), the
fetch and the decoding of its bundle (R50 to R55, R75), what a completed word leaves behind (R124 to R129, R349), and the
default course of the package's other agents (log entry 2).
-/
namespace Sys2Proof

/-- R123: a conditional branch. -/
def Instr.isBranch : Instr → Bool
  | .beq _ _ _ | .bne _ _ _ | .blt _ _ _ | .bge _ _ _ | .bltu _ _ _ | .bgeu _ _ _ => true
  | _ => false

/-- R104, R130: a word that writes LFSRSEED. -/
def Instr.writesSeed : Instr → Bool
  | .csrrw _ _ csr => csr == 0x0A0
  | .csrrs _ ra csr => csr == 0x0A0 && ra != 0
  | _ => false

/-- R349: SIGCHK leaves the checker's D alone. -/
def Instr.isSigchk : Instr → Bool
  | .sigchk _ => true
  | _ => false

/-- R392, R393: the function, the code and the operands of a host command; none for another instruction. -/
def Instr.command : Instr → Option (Nat × Nat × Cmd)
  | .pcreate c => some (0, 0x01, c)
  | .pdestroy c => some (0, 0x02, c)
  | .presize c => some (0, 0x03, c)
  | .pflr c => some (0, 0x04, c)
  | .pres c => some (0, 0x05, c)
  | .pscope c => some (0, 0x06, c)
  | .pweir c => some (0, 0x07, c)
  | .pplace c => some (0, 0x08, c)
  | .s1root c => some (0, 0x09, c)
  | .s2write c => some (0, 0x0A, c)
  | .fassign c => some (0, 0x0B, c)
  | .ffree c => some (0, 0x0C, c)
  | .pstart c => some (0, 0x0D, c)
  | .resume2 c => some (0, 0x0E, c)
  | .launch fn c => some (fn, 0x0F, c)
  | .wake fn c => some (fn, 0x10, c)
  | .rollback c => some (0, 0x11, c)
  | .fmode c => some (0, 0x12, c)
  | .pslice c => some (0, 0x13, c)
  | .timeset c => some (0, 0x14, c)
  | .attest c => some (0, 0x15, c)
  | .fwstage c => some (0, 0x16, c)
  | .errlog c => some (0, 0x17, c)
  | .diereset c => some (0, 0x18, c)
  | .pjob c => some (0, 0x19, c)
  | _ => none

/-- R346, R348: the word reads register r, or with r = 0 an entry of a queue. -/
def Instr.readsStored (i : Instr) (r : Reg) : Bool :=
  if r = 0 then (match i with
    | .recv _ _ _ | .cpop _ _ => true
    | _ => false)
  else i.reads.contains r.toNat

/-- R180: a WEIR word. -/
def Instr.isWeir : Instr → Bool
  | .weirCadd _ _ _ | .weirCread _ _ | .weirCswap _ _ _ | .weirSwait _ | .weirSpost _ | .weirStry _ _ => true
  | _ => false

end Sys2Proof

namespace Sys2Proof.Machine

/-! The ends of waits (R19). -/

/-- What thread t waits for has come. The events of the opcode table that end a wait find the same conditions. -/
def State.waitOver (s : State) (t : Nat) : Wait → Bool
  | .fetch => false
  | .walk va => (s.thread t).permits.contains (va &&& 0xFFFFFFFFFFFF0000)
  | .storeMiss a => !s.pageHeld (s.partOf t) a
  | .bufferRoom => decide ((s.thread t).buffer.length < 16)
  | .overlap a n => !s.overlapBusy t a n
  | .performed sc v => s.released t sc v
  | .bufferEmpty => (s.thread t).buffer.isEmpty
  | .putRoom => decide ((s.thread t).puts.length < 32)
  | .reply _ | .reservation => (s.thread t).reply.isSome
  | .fifoRoom => !(s.thread t).fifoFull
  | .completion => !(s.thread t).fifo.isEmpty
  | .credit c ch _ _ _ =>
    (match s.channelFor (s.partOf t) c ch with
     | some q => q.granted.contains t
     | none => true)
  | .recv ch => (s.channel (coreOf t) ch).claimed.any (fun e => e.1 == t)
  | .filled fl n => decide (n ≤ (flumeOf (s.coreAt (coreOf t)).flumes fl).filled)
  | .free fl n => let f := flumeOf (s.coreAt (coreOf t)).flumes fl; decide (f.filled + n ≤ 2^f.k)
  | .barrier k g => decide (g < (s.domain k).gen) && !(match (s.thread t).launch with
      | some l => (match Sparse.find? s.launches l with
        | some l => l.held
        | none => false)
      | none => false)
  | .semaphore i => (s.sem i).granted.contains t
  | .sleep limit => (s.thread t).wake || (match limit with
      | some n => decide (n ≤ (s.coreAt (coreOf t)).cycle)
      | none => false)
  | .fill n => decide (s.fillOf (s.partOf t) ≤ n)
  | .queueRoom n => decide ((s.coreAt (coreOf t)).vqueue.length + n ≤ 16)
  | .vwriter v n => !s.writerBefore (coreOf t) v n
  | .streamIdle v => !s.namedInQueue (coreOf t) v
  | .vectorRetired => !s.vectorBusy t
  | .vectorMemory => !s.vectorMemoryBusy t
  | .mxRoom => decide ((s.coreAt (coreOf t)).mxqueue.length < 8)
  | .halt => s.haltReady t
  | .inTransit r => !(s.rankEntry (s.partOf t) r).holds || !s.holdFull (s.partOf t) r (coreOf t)
  | .held line => !s.heldLines.any (fun h => h.line == line)
  | .forward line wide => !s.lineBlocked t line wide
  | .putsDone a n => !s.overlapBusy t a n && !s.putOverlap t a n
  | .writesDone => !s.writesBusy t
  | .spore _ => (s.thread t).reply.isSome

/-- What is due for one thread before any other choice: the end of its wait, a pending cause, or the watchdog (R19, R137,
R142, R188). -/
inductive Due where
  | nothing
  | resume (w : Wait)
  | halt
  | deliver
  | expire
  deriving DecidableEq, Repr

/-- What is due for thread t; nothing while its core's quarantine waits for its spare (R358). -/
def State.dueFor (s : State) (t : Nat) (x : Thread) : Due :=
  if s.frozen (coreOf t) then .nothing
  else
  let late := if s.expires t then Due.expire else .nothing
  if x.nextAsync.isSome && !(x.status == .ready && x.woke.isSome) then .deliver
  else match x.status with
    | .blocked .halt _ => if s.haltReady t then .halt else late
    | .blocked w _ => if s.waitOver t w then .resume w else late
    | _ => late

/-- The first thread of a list for which something is due. -/
def State.firstDue (s : State) : List (Nat × Thread) → Option (Nat × Due)
  | [] => none
  | (t, x) :: r =>
    match s.dueFor t x with
    | .nothing => s.firstDue r
    | d => some (t, d)

/-! What a step does. -/

/-- What the next step is: a new state, what a meaning left, an ill-formed choice, another agent's step, or the words of a
bundle. -/
inductive Plan where
  | done (s : State)
  | ran (r : Result)
  | stop
  | event (i : Instr) (s : State)
  | word (i : Instr) (s : State)
  | pair (i j : Instr) (s : State)

/-! Fetch and decode (R50 to R55). -/

/-- R50, R2: the two words of the 8 bytes of a bundle. -/
def bundleWords (bs : List Byte) : BitVec 32 × BitVec 32 :=
  (BitVec.ofNat 32 (leValue (bs.take 4)), BitVec.ofNat 32 (leValue (bs.drop 4)))

/-- R55, R51: what the second word of a pair whose first word is i reads: everything as it stands before the pair. -/
def State.pairView (s : State) (i : Instr) : PairView :=
  let k := s.coreAt s.here
  ⟨s.me.regs, s.me.fcsr, if i.writesSeed then some s.me.lfsr else none, s.me.vl, k.binds, k.vqueue.length, []⟩

/-- R219, R228: a word takes a slot of the vector queue; a VLOOP of no passes takes none. -/
def State.takesSlot (s : State) (i : Instr) : Bool :=
  match i with
  | .vloop ra _ => s.x32 ra != 0
  | i => i.vshape.isSome

/-- R219, R51: the slots that a pair takes in the vector queue. -/
def State.pairSlots (s : State) (i j : Instr) : Nat := (s.takesSlot i).toNat + (s.takesSlot j).toNat

/-- R184, R233: a word that moves the head of a flume when it issues. -/
def movesHead : Instr → Bool
  | .fcons _ _ | .sunbind _ => true
  | _ => false

/-- R51: the second word of a pair pops its streams at once, where no entry of the queue stands before it at that stream. -/
def State.popSecond (s : State) (j : Instr) : State :=
  match s.pair, j.vshape with
  | some p, some h =>
    let (_, e, s) := s.gather s.here (s.entryOf j 0 0 [])
      ((sourcesOf h).filter (fun x => !s.namedInQueue s.here x.2.1.toNat && (bindOf p.binds.toList x.2.1).isSome))
    { s with pair := some { p with got := e.got, binds := Vector.ofFn (fun i : Fin 4 => e.binds.getD i.val none) } }
  | _, _ => s

/-- R51: where the first word of a pair, with its view set, moves a flume's head, the second word pops before it; where the
first word traps or waits, nothing is popped. A stream at which earlier entries stand, or which holds no slot, is popped at the
head of the queue (R231; log entry 81). -/
def State.popAhead (s : State) (i j : Instr) : State :=
  if movesHead i then
    let v := s.popSecond j
    match exec i v with
    | .next r => (match r.me.flow with
      | .trapped | .waits => s
      | _ => v)
    | _ => s
  else s

/-- R51, R219: a pair that can issue, or waits as one for room in the vector queue. -/
def State.planPair (s : State) (i j : Instr) : Plan :=
  if s.pairSlots i j ≠ 0 ∧ 16 < (s.coreAt s.here).vqueue.length + s.pairSlots i j then
    .done (s.wait (.queueRoom (s.pairSlots i j)))
  else .pair i j (({ s with pair := some (s.pairView i) } : State).popAhead i j)

/-- The ILLEGAL of a decoder's refusal (R55, R147); an ERET in a pair is never a double trap (R136). A word of ERET's function
with a field that is not zero where it must be (R140) is no ERET here: R136 does not say whether it counts as the ERET word
itself (DESIGN CHOICE, log entry 78). -/
def State.decodeFault (s : State) (at' : Word) (w : BitVec 32) (sub : BitVec 8) : State :=
  s.raiseAt ⟨.illegal, at', w.setWidth 64, sub, 0xFF⟩
    (match decodeWord w.toNat with
     | .ok .eret => true
     | _ => false)

/-- R54, R55: the executing thread stands at the second word of a bundle that a transfer reached: alone if the bundle is
lone, else MISALIGN. -/
def State.planSecond (s : State) (w0 w1 : BitVec 32) : Plan :=
  if w0.getLsbD 31 then
    match decodeSecond w1 with
    | some j => .word j (s.modMe (fun t => { t with second := some w1 }))
    | none => .done (s.decodeFault s.at w1 0)
  else .done (s.fault .misalign s.at (s.me.from?.getD 0))

/-- R55: the whole bundle is decoded before either word executes. A zero-count skip of an earlier pass ends here. -/
def State.planBundle (s : State) (w0 w1 : BitVec 32) : Plan :=
  let b := bundleOf s.at
  let s := s.modMe (fun t => { t with skip := t.skip.filter (fun k => k.1 != b) })
  match decodeBundle w0 w1 with
  | .illegal slot w sub => .done (s.decodeFault (b + 4 * word slot) w sub)
  | .lone i _ => .word i (s.modMe (fun t => { t with second := some w1 }))
  | .pair i j => s.planPair i j

/-- Decodes what the executing thread has fetched. -/
def State.planWords (s : State) (w0 w1 : BitVec 32) : Plan :=
  if s.at.getLsbD 2 then s.planSecond w0 w1 else s.planBundle w0 w1

/-- R75, R149, R328, R337: the executing thread fetches its bundle; the words stay fetched until they have completed. -/
def State.planFetch (s : State) : Plan :=
  let b := bundleOf s.at
  if s.walkWaits b && (match classify b with | .home d => d != 9 | _ => false) then
    .done ((s.askWalk b .fetch).wait (.walk b))
  else match s.fetchAddress s.cur b with
    | .error tr => .done (s.raise { tr with tval := s.at })
    | .ok a =>
      let s := s.readySource (dieOf s.here) a 8
      let w := bundleWords (s.dieBytes (dieOf s.here) a 8)
      (s.modMe (fun t => { t with fetched := some w })).planWords w.1 w.2

/-- The words that the executing thread issues: the second lone word of its bundle (R52), the words it has fetched, or a
fetch. -/
def State.planIssue (s : State) : Plan :=
  match s.me.fetched, s.at.getLsbD 2, s.me.second with
  | _, true, some w1 =>
    (match decodeSecond w1 with
     | some j => .word j s
     | none => .done (s.decodeFault s.at w1 0))
  | some w, _, _ => s.planWords w.1 w.2
  | none, _, _ => s.planFetch

/-! The choice of a thread (R20, R52, R143). -/

/-- R143: a TYIELD still passes over thread t: another thread that was READY has not issued and is READY. -/
def State.yielding (s : State) (k : Core) (t : Nat) : Bool :=
  k.yields.any (fun y => y.1 == t && y.2.any (fun u => (s.thread u).status == .ready))

/-- R52: the thread that issued last has the second lone word of its bundle before it. -/
def Thread.midBundle (x : Thread) : Bool :=
  x.status == .ready && x.pc.getLsbD 2 && x.second.isSome && x.woke.isNone && x.from?.isNone

/-- R20: the thread of core c that issues next: round-robin from the one after the last, over READY threads. -/
def State.pickThread (s : State) (c : Nat) : Option Nat :=
  let k := s.coreAt c
  let last := 4 * c + k.issuedLast
  if s.frozen c then none
  else if (s.thread last).midBundle then some last
  else (([1, 2, 3, 4] : List Nat).map (fun i => 4 * c + (k.issuedLast + i) % 4)).find? (fun t =>
    (s.thread t).status == .ready && !s.yielding k t)

/-- R20, R143, R104: thread t of core c issues: the core's cycle count and round-robin move on. -/
def Core.issued (k : Core) (t : Nat) : Core :=
  { k with
    cycle := k.cycle + 1
    issuedLast := t % 4
    yields := (k.yields.filter (fun y => y.1 != t)).map (fun y => (y.1, y.2.filter (· != t))) }

/-- Thread t begins to issue. -/
def State.begin (s : State) (t : Nat) : State :=
  ({ s with cur := t, pair := none, turn := coreOf t + 1 }.modCore (coreOf t) (fun k => k.issued t)).modThread t
    (fun x => { x with flow := .falls })

/-- Core c issues, when one of its threads can. -/
def State.issueOn (s : State) (c : Nat) : Plan :=
  match s.pickThread c with
  | some t => (s.begin t).planIssue
  | none => .done s

/-- The cores that have a READY thread and can issue, in ascending order. -/
def State.readyCores (s : State) : List Nat :=
  (s.threads.filter (fun e => e.2.status == .ready && !s.frozen (coreOf e.1))).map (fun e => coreOf e.1)

/-- The core whose turn it is: the first READY one from `turn` on, else the first. -/
def State.pickCore (s : State) : Option Nat :=
  let cs := s.readyCores
  match cs.find? (fun c => decide (s.turn ≤ c)) with
  | some c => some c
  | none => cs.head?

/-! What a completed word leaves (R124 to R129, R349). -/

/-- R349: 9-bit left rotation by one place. -/
def rot9 (x : BitVec 9) : BitVec 9 := x.rotateLeft 1

/-- R349: a control transfer's, or a branch not taken's, change of C. -/
def Thread.checkTarget (t : Thread) (a : Word) : Thread := { t with chkC := rot9 t.chkC ^^^ a.extractLsb' 2 9 }

/-- R349: an executed word's change of D. -/
def Thread.checkWord (t : Thread) (i : Instr) : Thread :=
  if i.isSigchk then t
  else
    let r := i.reads
    let n := i.writesNumber + 7 * r.getD 0 0 + 13 * r.getD 1 0 + 19 * r.getD 2 0
    { t with chkD := rot9 t.chkD ^^^ BitVec.ofNat 9 n }

/-- R349: the checker moves at app privilege only. -/
def Thread.checkIf (t : Thread) (app : Bool) (f : Thread → Thread) : Thread := if app then f t else t

/-- R125, R127: end processing of bundle b, on the loop CSRs in force for it; none while LH is set (R129). -/
def Thread.endOfBundle (t : Thread) (b : Word) (lh : Bool) : Thread × Option Word :=
  t.inLoopForce (fun t => if lh then (t, none) else t.loopEnd b 3)

/-- R125, R128: a taken transfer to `a` tests the loops in force for its bundle; none while LH is set (R129). -/
def Thread.leaveTo (t : Thread) (a : Word) (lh : Bool) : Thread :=
  (t.inLoopForce (fun t => (if lh then t else t.popOutside a 3, none))).1

/-- A thread goes on at an address that the word at `w` leads to (R54). -/
def Thread.goTo (t : Thread) (a w : Word) : Thread := { t with pc := a, from? := some w, second := none, fetched := none }

/-- The thread without the skip of bundle b. -/
def Thread.dropSkip (t : Thread) (b : Word) : Thread := { t with skip := t.skip.filter (fun k => k.1 != b) }

/-- The thread falls out of bundle b at its end: a zero-count skip, a loop back-edge, or the next bundle (R126, R127). -/
def Thread.leaveBundle (old t : Thread) (w b : Word) (app : Bool) : Thread :=
  match List.find? (fun (k : Word × Word) => k.1 == b) t.skip with
  | some k => ((t.dropSkip b).endOfBundle b true).1.goTo k.2 w
  | none =>
    match t.endOfBundle b old.lh with
    | (t, some a) => (t.checkIf app (fun t => t.checkTarget a)).goTo a w
    | (t, none) => { t.goTo (b + 8) w with from? := none }

/-- R123, R124, R127, R128, R138: where thread `t` goes on after the words `is` have completed with flow f; `old` is the
thread before them: before the pair, or before the last of two lone words. Its TSTAT.LH governs the end processing and the test
of R128: the spec does not say whether a write of LH in the bundle does (DESIGN CHOICE, log entry 79). -/
def Thread.advance (old t : Thread) (is : List Instr) (f : Flow) : Thread :=
  let w := old.pc
  let b := bundleOf w
  let app := !old.supervisor
  let first := !w.getLsbD 2 && old.second.isSome
  let untaken := is.any Instr.isBranch
  match f with
  | .taken a =>
    let t := t.checkIf app (fun t => t.checkTarget a)
    (((t.leaveTo a old.lh).dropSkip b).dropSkip (bundleOf a)).goTo a w
  | .returned a => (t.endOfBundle b true).1.goTo a w
  | .falls | .trapped | .waits =>
    if first then { t.checkIf (app && untaken) (fun t => t.checkTarget (w + 4)) with pc := w + 4, from? := none }
    else
      let dest := (old.leaveBundle t w b app).pc
      old.leaveBundle (t.checkIf (app && untaken) (fun t => t.checkTarget dest)) w b app

/-- The words `is` of the executing thread have completed with flow f: the checker (R349), the next pc, and what only one
word's execution holds. -/
def Thread.completed (old t : Thread) (is : List Instr) (f : Flow) : Thread :=
  let t := t.checkIf (!old.supervisor) (fun t => is.foldl Thread.checkWord t)
  let t := old.advance t is f
  { t with
    woke := none
    permits := []
    watchOnce := match f with
      | .returned _ => t.watchOnce
      | _ => none }

/-- The end of a step of words: a trap or a wait leaves the thread where it put it; completed words move it on. -/
def State.finish (s : State) (old : Thread) (is : List Instr) (f : Flow) : State :=
  let s := { s with pair := none }
  match f with
  | .trapped | .waits => s
  | _ => s.modMe (fun t => old.completed t is f)

/-- The first word of a pair has neither trapped nor begun to wait (R51). -/
def Flow.goesOn : Flow → Bool
  | .trapped | .waits => false
  | .falls | .taken _ | .returned _ => true

/-- R51: the second word of a pair executes, at its own address. -/
def State.secondOfPair (s : State) : State := s.modMe (fun t => { t with pc := t.pc + 4, flow := .falls })

/-- What comes after the first word of a pair (R51): the second word, unless the first trapped or waits. -/
def afterFirst (j : Instr) (old : Thread) (is : List Instr) (u : State) : Host.Outcome State Fault Refusal :=
  let f := u.me.flow
  if f.goesOn then
    match exec j u.secondOfPair with
    | .next v => .next ((v.modMe (fun t => { t with pc := old.pc })).finish old is f)
    | r => r
  else .next (u.finish old is f)

/-- Carries out a plan. -/
def Plan.run : Plan → Host.Outcome State Fault Refusal
  | .done t => .next t
  | .ran r => r
  | .stop => .fault .noSuchAgent
  | .event i t => exec i t
  | .word i t =>
    (match exec i t with
     | .next u => .next (u.finish t.me [i] u.me.flow)
     | r => r)
  | .pair i j t =>
    (match exec i t with
     | .next u => afterFirst j t.me [i, j] u
     | r => r)

/-! The words that a completed generation retires (R353, R384). -/

/-- The package with the core of a snapshot as the snapshot has it. -/
def State.standIn (s : State) (p : Nat) (g : Snapshot) : State :=
  { s.setTag g.core p with
    cores := Sparse.set s.cores g.core g.state
    threads := g.threads.foldl (fun m e => Sparse.set m e.1 e.2) s.threads
    saved := s.saved.filter (fun v => !(v.tag == p && v.snapshot.core == g.core)) }

/-- A snapshot with thread t as x. -/
def Snapshot.withThread (g : Snapshot) (t : Nat) (x : Thread) : Snapshot :=
  { g with threads := g.threads.map (fun e => if e.1 = t then (t, x) else e) }

/-- R353, R384: member t of a snapshot retires its BAR or STEP, which has completed, with its pair: its registers include the
second word's result and it stands at its next bundle. One that cannot issue it now (R219) stays in it. -/
def Snapshot.retire (s : State) (p : Nat) (g : Snapshot) (t : Nat) (x : Thread) : Snapshot :=
  let again := match x.woke with
    | some w => { x with status := .blocked w s.now, woke := none }
    | none => x
  match (((s.standIn p g).begin t).planIssue).run with
  | .next v =>
    if (v.thread t).status = .ready ∧ (v.thread t).woke = none then
      let k := v.coreAt g.core
      { g.withThread t (v.thread t) with
        state := { k with cycle := g.state.cycle, issuedLast := g.state.issuedLast, yields := g.state.yields } }
    else g.withThread t again
  | _ => g.withThread t again

/-- R353, R384: the members of a snapshot that have their word at domain number n before them retire it. -/
def Snapshot.retired (s : State) (p n : Nat) (g : Snapshot) : Snapshot :=
  (g.threads.filter (fun e => e.2.leavesAt n)).foldl (fun g e => g.retire s p e.1 e.2) g

/-- A log or a capture has just been taken, whose members have not retired their words. -/
def State.leaveDue (s : State) : Bool :=
  s.launches.any (fun e => e.2.log.any (fun g => g.leavesAt (e.2.stepDomain.getD 16)))
    || s.parts.any (fun e => e.2.spore.snaps.any (fun g => g.leavesAt e.2.spore.domain))

/-- R353, R371, R384: the members of the logs and captures just taken retire their words in them. -/
def State.retireLogs (s : State) : State :=
  { s with
    launches := Sparse.mapValues s.launches (fun _ l =>
      { l with log := l.log.map (fun g => g.retired s l.part (l.stepDomain.getD 16)) })
    parts := Sparse.mapValues s.parts (fun p q =>
      { q with spore := { q.spore with snaps := q.spore.snaps.map (fun g => g.retired s p q.spore.domain) } }) }

/-! The default course (log entry 2). -/

/-- The host command that each function has read and not finished (R392), with its function. A resize that has been asked
for waits for its boundary. -/
def State.readings (s : State) : List (Nat × Nat × Cmd) :=
  s.functions.filterMap (fun e => match e.2.reading with
    | some (code, c) => if code = 3 ∧ (s.part c.op0.toNat).resize.isSome then none else some (e.1, code, c)
    | none => none)

/-- R392, R393: the device performs a command by its code. -/
def State.perform (s : State) (fn code : Nat) (c : Cmd) : Result :=
  match code with
  | 0x01 => execPcreate c s
  | 0x02 => execPdestroy c s
  | 0x03 => execPresize c s
  | 0x04 => execPflr c s
  | 0x05 => execPres c s
  | 0x06 => execPscope c s
  | 0x07 => execPweir c s
  | 0x08 => execPplace c s
  | 0x09 => execS1root c s
  | 0x0A => execS2write c s
  | 0x0B => execFassign c s
  | 0x0C => execFfree c s
  | 0x0D => execPstart c s
  | 0x0E => execResume2 c s
  | 0x0F => execLaunch fn c s
  | 0x10 => execWake fn c s
  | 0x11 => execRollback c s
  | 0x12 => execFmode c s
  | 0x13 => execPslice c s
  | 0x14 => execTimeset c s
  | 0x15 => execAttest c s
  | 0x16 => execFwstage c s
  | 0x17 => execErrlog c s
  | 0x18 => execDiereset c s
  | 0x19 => execPjob c s
  | _ => .next s

/-- The MXU steps of a command code (R256, R259). -/
def mxSteps (c code : Nat) : List (State → Result) :=
  match code with
  | 1 => [execMxMma c, execMxKstep c]
  | 2 => [execMxMmad c, execMxKstep c]
  | 3 => [execMxZero c]
  | 4 => [execMxLoad c]
  | 5 => [execMxStore c]
  | 6 => [execMxFence c]
  | 7 => [execMxScaleband c]
  | _ => []

/-- Steps that a put, or a write of a copy command, makes possible. -/
def Put.agents (w : Put) : List (State → Result) :=
  [execRemoteAccessRequest w.id, execGlobalAck w.id, execHostFabricAcknowledgement w.id]

/-- R39, R40: a message to core c that its NI holds may ask for its credit. -/
def Cargo.agents (c : Nat) : Cargo → List (State → Result)
  | .message ch _ => [execCreditGrant c ch]
  | .wake _ | .request _ | .put _ => []

/-- Steps that a thread's own state makes possible. -/
def Thread.agents (t : Nat) (x : Thread) : List (State → Result) :=
  (match x.buffer with
   | [] => []
   | w :: _ => if w.sent then [execGlobalAck w.id] else [execStorePerformed t])
    ++ x.puts.flatMap Put.agents
    ++ (match x.status with
      | .blocked (.storeMiss _) _ => [execStoreMissReturn t]
      | .blocked .fetch _ => [execInstructionFetchReturn t]
      | .blocked (.credit c ch _ _ _) _ => [execCreditGrant c ch, execSlotWindowClose t]
      | .blocked .reservation _ => [execReservationGrant t]
      | _ => [])

/-- Steps that a core's queues make possible. -/
def Core.agents (c : Nat) (k : Core) : List (State → Result) :=
  (if k.vqueue.isEmpty then [] else [execVectorEntryRetire c, execVectorEntryExecute c, execSfuRequest c])
    ++ (match k.mxqueue with
      | [] => []
      | q :: _ => mxSteps c q.code)

/-- Steps of a spore under way (R369 to R377): markers between the cores of this package, captures, copies, the seal and
the commit. -/
def Spore.agents (p : Nat) (sp : Spore) : List (State → Result) :=
  if sp.started then
    let cs := sp.snaps.map (·.core)
    [execSporeArm p] ++ cs.flatMap (fun c => (cs.filter (fun x => x != c && !sp.markers.contains (sp.pkg, x, c))).map
        (fun x => execMarkerArrival sp.pkg x c))
      ++ sp.capturing.map (fun c => execCoreCaptureDone c)
      ++ ((sp.pages.filter (fun g => !g.copied)).map (fun g => execBackgroundPageCopy p (word g.va)))
      ++ [execSporeSeal p] ++ (if sp.packages = 1 then [execSporeCommit p] else [])
  else []

/-- Steps that a partition's state makes possible. -/
def Partition.agents (p : Nat) (q : Partition) : List (State → Result) :=
  q.spore.agents p
    ++ (if q.resize.isSome then [execResizeApply p] else [])
    ++ (if q.next.isSome then [execSliceEnd p] else [])
    ++ (if q.sliceEnded.isSome then [execSuperstepSwitch p] ++ q.cores.map (fun c => execForcedPreemption c) else [])

/-- The steps that other agents can take now, in the order of the default course. Only time and the outside world can bring
others. -/
def State.agents (s : State) : List (State → Result) :=
  s.threads.flatMap (fun e => e.2.agents e.1)
    ++ s.requests.flatMap (fun e => [execRemoteAccessRequest e.1, execRemoteResponse e.1])
    ++ s.notices.flatMap (fun n => [execDirtyNoticeArrival n.id, execDirtyNoticeAck n.id])
    ++ s.packets.flatMap (fun k => k.cargo.agents k.dest ++ [execPacketEjection k.id, execMessageArrival k.id,
      execWakeDelivery k.id])
    ++ s.cores.flatMap (fun e => e.2.agents e.1)
    ++ s.copies.flatMap (fun q => q.writes.flatMap Put.agents
      ++ (if q.running then [execCopyComplete q.id] else [execCopyCommandStart q.die]))
    ++ (s.domains.filter (fun e => !e.2.arrived.isEmpty)).map (fun e => execGenerationComplete (e.1 / 16) (e.1 % 16))
    ++ s.saved.map (fun v => execCoreResume v.snapshot.core)
    ++ s.launches.flatMap (fun e =>
      (e.2.maskDies.filter (fun d => !e.2.installed.contains d)).map (fun d => execLaunchStart e.2.part d))
    ++ s.parts.flatMap (fun e => e.2.agents e.1)

/-- A step of another agent changes the state. -/
def State.changes (s : State) (f : State → Result) : Bool :=
  match f s with
  | .next t => decide (t ≠ s)
  | _ => false

/-- The first step of a list that changes the state, as it leaves it. -/
def State.firstChange (s : State) (fs : List (State → Result)) : Option Result := (fs.find? s.changes).map (fun f => f s)

/-- What happens when no thread can issue: a sleep's cycles pass (R145), freed frames are scrubbed, and the boot scrub ends
(R326). -/
def State.idle (s : State) : Plan :=
  match s.threads.findSome? (fun e => match e.2.status with
    | .blocked (.sleep (some n)) _ => some (e.1, n)
    | _ => none) with
  | some (t, n) =>
    if (s.coreAt (coreOf t)).cycle < n then .done (s.modCore (coreOf t) (fun k => { k with cycle := n }))
    else .ran (execTsleepTimeout t s)
  | none =>
    match s.firstChange ((s.frames.filter (fun e => e.2 == .scrubbing)).map (fun e => execFrameScrubComplete e.1)) with
    | some r => .ran r
    | none => if s.bootScrubbed || decide (s.stagesUp < 3) then .done s else .ran (execBootScrubComplete s)

/-- R145: cycles pass on the cores that only sleep while another core issues. -/
def State.sleepersTick (s : State) (c : Nat) : State :=
  { s with cores := Sparse.mapValues s.cores (fun d k =>
      if d ≠ c ∧ ([0, 1, 2, 3] : List Nat).any (fun h => match (s.thread (4 * d + h)).status with
          | .blocked (.sleep (some _)) _ => true
          | _ => false) then { k with cycle := k.cycle + 1 } else k) }

/-- The default course: the NI sends a put (R164), a host command is performed (R392), another agent takes a step, the
core whose turn it is issues, or the package idles. -/
def State.defaultPlan (s : State) : Plan :=
  match s.nextPut with
  | some (t, w) => .done (s.sendPut t w)
  | none =>
    match s.readings with
    | (fn, code, c) :: _ => .ran (s.perform fn code c)
    | [] =>
      match s.firstChange s.agents with
      | some r => .ran r
      | none =>
        match s.pickCore with
        | some c => (s.sleepersTick c).issueOn c
        | none => s.idle

/-! The agenda (log entry 2). -/

/-- R19: thread t's next bundle misses in the instruction cache; the thread waits for its return. -/
def State.missFetch (s : State) (t : Nat) : State :=
  let x := s.thread t
  if x.status = .ready ∧ x.fetched.isNone ∧ x.woke ≠ some .fetch then
    (s.modThread t (fun x => { x with status := .blocked .fetch s.now })).stopsReady t
  else s

/-- R42, R297: the host writes record n of partition p's launch pool; a write to an armed record is refused with status. A written
record can hold the armed bit itself, which queues no launch: the spec does not say (DESIGN CHOICE, log entry 88). The
answer is the status as a doubleword: 0 OK, 2 BADARG for a record the pool does not have, 3 STATE for an armed one
(DEDUCED, log entry 75). -/
def State.hostRecord (s : State) (p n : Nat) (ws : List Word) : State :=
  if 255 < n then { s with hostReply := some (leBytes 2 8) }
  else if recordArmed (s.record p n) then { s with hostReply := some (leBytes 3 8) }
  else
    { s.modPart p (fun q =>
        { q with pool := (List.range 32).foldl (fun m k => Sparse.set m (32 * n + k) (ws.getD k 0)) q.pool }) with
      hostReply := some (leBytes 0 8) }

/-- R346: an upset that cannot be corrected poisons its granule. -/
def State.upset (s : State) (a : Nat) : State :=
  let g := a / granuleSize a * granuleSize a
  { s with poison := if s.poison.contains g then s.poison else s.poison ++ [g] }

/-- Bytes of host or fabric memory change: n bytes below the end of their class (R336). -/
def State.outsideBytes (s : State) (a : Nat) (bs : List Byte) : Plan :=
  if 8 ≤ classOf a ∧ a + bs.length ≤ 10 * 2^48 then .done (s.writeBytesAt a bs) else .stop

/-- R348, R358: the executing word meets an uncorrectable error in register r or in a queue entry: UE, TVAL 0. The rewrite test
leaves all ones in the register; a double trap runs no test (R136). -/
def State.wordFailed (s : State) (r : Reg) : State :=
  (if s.me.inh then s else s.setX r (BitVec.allOnes 64)).raiseFor (Trap.plain .ue 0 0) false (if r = 0 then .queue else .register)

/-- R180, R348, R352: an uncorrectable error in the Weir: a precise UE that holds no datum of the core. -/
def State.weirFailed (s : State) : State :=
  (if s.me.inh then s.doubleTrap (s.partOf s.cur) s.cur .ue
   else
    ((s.modMe (fun t => { t.record (Trap.plain .ue 0 0) t.pc with pc := wordAligned t.pc })).withdraw s.cur).contain s.cur
      [⟨.weir, some 8, none⟩] .ue 0 Cause.ue.code .elsewhere).flowTo .trapped

/-- R20: thread t issues next on its core, and its next word is met by an error where it can be; the first word of a pair. -/
def State.metBy (s : State) (t : Nat) (meets : Instr → Bool) (failed : State → State) : Plan :=
  if s.pickThread (coreOf t) = some t then
    match (s.begin t).planIssue with
    | .word i u => if meets i then .done (failed u) else .word i u
    | .pair i j u => if meets i then .done { failed u with pair := none } else .pair i j u
    | p => p
  else .done s

/-- An event may stand in the agenda: a well-formed step of another agent; a host command only when its function has read
it. -/
def State.admits (s : State) (i : Instr) : Bool :=
  (encodeWord i).isNone && i.wf && (match i.command with
    | some r => s.readings.contains r
    | none => true)

/-- R308: counter k (an L2's die, or 8 for the Basin) of partition p shows n lines. -/
def State.setOccupancy (s : State) (p k n : Nat) : State :=
  s.modPart p (fun q => { q with occupancy := Sparse.set q.occupancy k n })

/-- R308: the monitor sets the soft limit of counter k of partition p. -/
def State.setSoftLimit (s : State) (p k n : Nat) : State :=
  s.modPart p (fun q => { q with softLimits := Sparse.set q.softLimits k n })

/-- R369: the NIs that other packages have in partition p's job: package index and core of each. -/
def State.setPeers (s : State) (p : Nat) (nis : List (Nat × Nat)) : State :=
  s.modSpore p (fun sp => { sp with peers := nis.filter (fun x => x.1 != sp.pkg && decide (x.1 < sp.packages)) })

/-- R378, R36: what another package sends: a message on one of 32 channels with a payload of at most 56 bytes, or a wake. -/
def Cargo.fromOutside : Cargo → Bool
  | .message ch m => decide (ch < 32) && decide (m.payload.length ≤ 56)
  | .wake h => decide (h < 4)
  | .request _ | .put _ => false

/-- One choice of the agenda. -/
def State.planTurn (s : State) : Turn → Plan
  | .event i => if s.admits i then .event i s else .stop
  | .issue c => if c < 1024 then s.issueOn c else .stop
  | .cycles c n => if c < 1024 then .done (s.modCore c (fun k => { k with cycle := k.cycle + n })) else .stop
  | .time ns => .done (if s.stagesUp < 6 then s else { s with now := s.now + ns })
  | .fetchMiss t => if t < 4096 then .done (s.missFetch t) else .stop
  | .upset a => .done (s.upset a)
  | .record p n ws => .done (s.hostRecord p n ws)
  | .rewrite fails => .done { s with testFails := s.testFails ++ [fails] }
  | .memory a bs => s.outsideBytes a bs
  | .corrected src die tag unit addr =>
    if src < 10 ∧ die < 14 ∧ tag < 64 ∧ unit < 2^16 then .done (s.corrected src die tag unit addr) else .stop
  | .wordError t r => if t < 4096 then s.metBy t (fun i => i.readsStored r) (fun u => u.wordFailed r) else .stop
  | .weirError t => if t < 4096 then s.metBy t Instr.isWeir State.weirFailed else .stop
  | .laneError c v => if c < 1024 then .done (s.laneError c v) else .stop
  | .unitError c => if c < 1024 then .done (s.unitError c) else .stop
  | .mxError c rows cell => if c < 1024 then .done (s.mxUpset c rows cell) else .stop
  | .captureError c => if c < 1024 then .done (s.captureFails c) else .stop
  | .mxEvent c => if c < 1024 then .done (s.mxEvent c) else .stop
  | .elementEvent c => if c < 1024 then .done (s.elementEvent c) else .stop
  | .copyUnit q => .done (s.copyTurn q)
  | .copyRead q k => .done (s.copyReadsAhead q k)
  | .copyWrite q k => .done (s.copyWritesAhead q k)
  | .route die node fibres waves =>
    if die < 4 ∧ node < 4096 ∧ waves.length = 16 then .done (s.setRoute die node ⟨fibres, waves⟩) else .stop
  | .laneFails die fibre wave =>
    if die < 4 ∧ fibre < 16 ∧ wave < 16 then .done (s.lanesFail [256 * die + 16 * fibre + wave]) else .stop
  | .put t id => if t < 4096 then .done (s.putLeaves t id) else .stop
  | .softLimit p k n => if p < 48 ∧ k < 9 then .done (s.setSoftLimit p k n) else .stop
  | .occupancy p k n => if p < 48 ∧ k < 9 then .done (s.setOccupancy p k n) else .stop
  | .peerPacket p pkg source rank cargo =>
    if p < 48 ∧ source < 4096 ∧ rank < 1024 ∧ pkg < 255 ∧ cargo.fromOutside then .done (s.fromPeer p pkg source rank cargo)
    else .stop
  | .peers p nis => if p < 48 then .done (s.setPeers p nis) else .stop
  | .sporeStart p epoch ws => if p < 48 then .done (s.sporeStarts p epoch ws) else .stop
  | .sporeAnswer p t v => if p < 48 ∧ t < 4096 then .done (s.sporeAnswers p t v) else .stop

/-- R372: a dead core's capture is done. -/
def State.retireReady (s : State) : Bool := s.retiring.any (fun c => !s.capturing c)

/-- What time has made due: an election's end (R44), a region's (R312) and a hold's (R212), a refill (R325), a request's next send
(R162), and the end of a wait for an acknowledgement that cannot come (R153, R406). -/
def State.timeDue (s : State) : Option State :=
  (s.electionDue.map s.electionEnds).or <| (s.regionDue.map s.regionExpires).or <| (s.holdDue.map s.holdRelease).or <|
    (s.refillDue.map (fun e => s.refillBudget e.1 e.2)).or <| (s.resendDue.map s.resend).or <|
      s.lostDue.map (fun w => s.ackTimeout w false)

/-- What is due for launches and cores before any other choice: a launch that starts at the moment it can (R299), one that
completes (R47), the dead cores whose captures are done (R372), a quarantine whose cluster can move (R358), a thread over its
margin (R282), and what time has made due. -/
def State.launchDue (s : State) : Option Result :=
  match s.startDue with
  | some (p, d) => some (execLaunchStart p d s)
  | none =>
    match s.settleDue with
    | some id => some (.next (s.settleLaunch id))
    | none =>
      if s.retireReady then some (.next s.retireDone)
      else ((s.moveDue.map s.moveCluster).or ((s.overrunDue.map s.overrun).or s.timeDue)).map .next

/-- The next step: what a completed generation retires in its logs, what is due for a thread, then for a launch, the agenda's
head, or the default course. -/
def State.plan (s : State) : Plan :=
  if s.leaveDue then .done s.retireLogs
  else match s.firstDue s.threads with
  | some (t, .resume w) => .done (s.resume t w)
  | some (t, .halt) => .ran (execHaltComplete t s)
  | some (t, .expire) => .ran (execWatchdogExpiry t s)
  | some (t, _) => .ran (execAsyncTrapDelivery t s)
  | none =>
    match s.launchDue with
    | some r => .ran r
    | none =>
      match s.agenda with
      | a :: r => { s with agenda := r }.planTurn a
      | [] => s.defaultPlan

end Sys2Proof.Machine
end

