-- ==== Sys2Proof/Machine/Step.lean ====
section
/-!
DEFINITION. One step of the package, and where the host places an instruction for the next step.
-/
namespace Sys2Proof.Machine

/-- One step: what is due, what the agenda says, or the default course. -/
def step (s : State) : Host.Outcome State Fault Refusal := s.plan.run

/-! Placing an instruction (log entry 1). -/

/-- The three table entries and the second-stage entry that map VA 0x30000 of window 0 to frame 0: a table each at GPA 0,
0x10000 and 0x20000, the page at GPA 0x30000 with U, X, W and R. -/
def placedTables (m : List Host.Cell) : List Host.Cell :=
  Memory.writeBytes (Memory.writeBytes (Memory.writeBytes m 0 (leBytes 0x10001 8)) 0x10000 (leBytes 0x20001 8))
    (0x20000 + 8 * 3) (leBytes 0x3003F 8)

/-- Partition 0 with core 0 and its second-stage entry (R335). -/
def placedPart (q : Partition) : Partition :=
  { q with cores := [0], s1root := some 0, s2 := Sparse.set q.s2 0 0xF, ranks := Sparse.set q.ranks 0 (.valid 0) }

/-- The instruction of 32 bits w stored where the next step fetches it: a word with its lone bit set as the first word of
the bundle at 0x30000, any other as the second word of a lone bundle that thread 0 has reached (R52, R54). Partition 0 holds
core 0, frame 0 is its own and thread 0 is READY at supervisor privilege. -/
def State.withFetchWord (s : State) (nbits w : Nat) : State :=
  let w := if nbits ≤ 32 then w % 2^32 else 0
  let first := w / 2^31 = 1
  let bundle := if first then leBytes w 4 ++ leBytes 0 4 else leBytes 0x80000000 4 ++ leBytes w 4
  let t : Thread := { s.thread 0 with
    status := .ready
    pc := if first then 0x30000 else 0x30004
    from? := none
    second := none
    fetched := none
    woke := none
    pending := []
    tstat := tstatWord 0 0xFF false true false false }
  { s with
    threads := Sparse.set s.threads 0 t
    tags := Sparse.set s.tags 0 0
    parts := Sparse.set s.parts 0 (placedPart (s.part 0))
    frames := Sparse.set s.frames 0 (.assigned 0)
    bootScrubbed := true
    mem := Memory.writeBytes (placedTables s.mem) 0x30000 bundle
    poison := []
    modes := s.modes &&& 0x3E
    agenda := []
    turn := 0 }

end Sys2Proof.Machine
end

