-- ==== Sys2Proof/Safety.lean ====
section
/-!
DEFINITION. What counts as a safe run, in the terms the statements use.
-/
namespace Sys2Proof.Machine

/-- A step that ends in a next state. -/
def Completes (s : State) : Prop := ∃ t, step s = .next t

/-- An instruction that ends in a next state. -/
def Runs (i : Instr) (s : State) : Prop := ∃ t, exec i s = .next t

/-- The agenda's next choice is one that the package has (log entry 2). -/
def State.agendaOk (s : State) : Prop :=
  match s.agenda with
  | [] => True
  | a :: r =>
    match ({ s with agenda := r } : State).planTurn a with
    | .stop => False
    | _ => True

/-- A run of n steps without a stop. -/
def SafeFor : Nat → State → Prop
  | 0, _ => True
  | n + 1, s => ∃ t, step s = .next t ∧ SafeFor n t

/-! What one word leaves as it was. Each of these says all of the state: what it names may change and nothing else. -/

/-- Every byte of memory reads as before. -/
def SameBytes (s t : State) : Prop := ∀ a, Memory.read t.mem a = Memory.read s.mem a

/-- Every byte of memory outside a .. a+n-1 reads as before. -/
def SameBytesBut (s t : State) (a n : Nat) : Prop :=
  ∀ b, b < a ∨ a + n ≤ b → Memory.read t.mem b = Memory.read s.mem b

/-- Nothing of the package changes but thread u's record; every byte of memory reads as before. -/
def OnlyThread (s t : State) (u : Nat) : Prop :=
  t = { s with threads := t.threads } ∧ (∀ v, v ≠ u → t.thread v = s.thread v) ∧ SameBytes s t

/-- Nothing of the package changes. -/
def Nothing (s t : State) : Prop := t = s ∧ SameBytes s t

/-- R7, R68: register rd of the file holds v, unless rd is x0, and every other register what it held. -/
def RegsSet (old new : Vector Word 64) (rd : Reg) (v : Word) : Prop :=
  ∀ r : Reg, new.get r.toFin = if r = rd ∧ r ≠ 0 then v else old.get r.toFin

/-- The executing thread's x[rd] holds v, unless rd is x0; no other register, flag, CSR or byte changes. -/
def WritesReg (s t : State) (rd : Reg) (v : Word) : Prop :=
  OnlyThread s t s.cur ∧ RegsSet s.me.regs t.me.regs rd v ∧ t.me = { s.me with regs := t.me.regs }

/-- The executing thread's x[rd] holds v, unless rd is x0, and the flags f are ORed into FCSR; nothing else changes. -/
def WritesFloat (s t : State) (rd : Reg) (v : Word) (f : Flags) : Prop :=
  OnlyThread s t s.cur ∧ RegsSet s.me.regs t.me.regs rd v ∧
    t.me = { s.me with regs := t.me.regs, fcsr := s.me.fcsr ||| f.setWidth 11 }

/-- The executing thread goes on at an address; nothing else changes (R123). -/
def Transfers (s t : State) (target : Word) : Prop :=
  OnlyThread s t s.cur ∧ t.me = { s.me with flow := .taken target }

/-- The executing thread's x[rd] holds v, unless rd is x0, and it goes on at an address; nothing else changes (R124). -/
def Jumps (s t : State) (rd : Reg) (v target : Word) : Prop :=
  OnlyThread s t s.cur ∧ RegsSet s.me.regs t.me.regs rd v ∧ t.me = { s.me with regs := t.me.regs, flow := .taken target }

/-- The executing thread is BLOCKED on w since now, and its word executes again; nothing else changes (R19). -/
def Waits (s t : State) (w : Wait) : Prop :=
  OnlyThread s t s.cur ∧ t.me = { s.me with status := .blocked w s.now, flow := .waits }

/-- R135: the executing thread has taken an exception with this record: TCAUSE, TVAL, TVAL2, the word's address in TEPC,
SUB and LANE, PRIV saved in PRV, supervisor with INH and LH set, READY at the bundle of TVEC. Its registers, flags, loop
CSRs and every other CSR, every other thread and every byte of memory are as before; what the model keeps of the bundle that
was left (its second word, the words fetched, the loop CSRs in force for it) goes. -/
def TakesTrap (s t : State) (tr : Trap) : Prop :=
  OnlyThread s t s.cur ∧
  t.me = { s.me with
    tcause := tr.cause.code
    tval := tr.tval
    tval2 := tr.tval2
    tepc := s.me.pc &&& 0xFFFFFFFFFFFFFFFC
    tstat := tstatWord tr.sub tr.lane s.me.supervisor true true true
    pc := s.me.tvec &&& 0xFFFFFFFFFFFFFFF8
    from? := none
    second := none
    fetched := none
    woke := none
    permits := []
    loopHeld := none
    loopWritten := 0
    status := .ready
    flow := .trapped }

/-- A trap that goes to the thread's own handler: no handler runs, and the cause is neither a page fault nor one that is
contained or that a watch raises (R134, R136, R341, R344, R352, R361). -/
def Cause.handled : Cause → Bool
  | .page1 | .page2 | .sig | .ue | .watchdog | .watch _ => false
  | _ => true

/-- Nothing of the package changes but core c's record; every byte of memory reads as before. -/
def OnlyCore (s t : State) (c : Nat) : Prop :=
  t = { s with cores := t.cores } ∧ (∀ d, d ≠ c → t.coreAt d = s.coreAt d) ∧ SameBytes s t

/-- The access of the executing thread is watched by nobody (R360, R361). -/
def Unwatched (s : State) (w : Watched) (va : Word) (n : Nat) : Prop := s.ownWatch w va n = none ∧ s.watchers = []

/-- Thread t's wait is over: it is READY and its word executes again; nothing else changes (R19). -/
def Resumes (s t : State) (u : Nat) (w : Wait) : Prop :=
  OnlyThread s t u ∧ t.thread u = { s.thread u with status := .ready, woke := some w }

/-- R152: the executing thread's store x, which has not left, joins its buffer as the newest; nothing else changes. -/
def Buffers (s t : State) (x : Store) : Prop :=
  t = { s with threads := t.threads, nextId := s.nextId + 1 } ∧ (∀ u, u ≠ s.cur → t.thread u = s.thread u) ∧
    t.me = { s.me with buffer := s.me.buffer ++ [x] } ∧ SameBytes s t ∧ x.sent = false ∧ x.committed = false

/-- The little-endian value of the n bytes of memory from key a on. -/
def bytesAt (s : State) (a n : Nat) : Nat := leValue (Memory.readBytes s.mem a n)

/-- R373: no spore of partition p captures any of its pages, so a write copies none first (R374). -/
def State.Unheld (s : State) (p : Nat) : Prop := (s.part p).spore.pages = []

/-- R252: byte k of a thread's staging buffer. -/
def Thread.stagingByte (t : Thread) (k : Nat) : Nat := (t.staging.toList.getD (k / 8) 0).toNat / 256^(k % 8) % 256

/-! Messages (R29, R171). -/

/-- R29, R39: what holds of the slot rows of core k once a message of len bytes of its thread t may leave: outside the
communication phase, or where it has counted, they are as before; else it counts in the row that it matches, the one that it
matched when it began to wait (`row`) where there is one. -/
def CountsIn (k : Core) (row : Option Nat) (t rank ch len : Nat) (holds : List SlotRow → Prop) : Prop :=
  (k.comm = false ∨ k.counted t = true → holds k.rows) ∧
  (∀ i, k.comm = true → k.counted t = false → k.rowOf row rank ch len = some i →
    holds (k.rows.modify i (fun r => { r with sent := r.sent + len })))

/-- R36, R171: the executing thread's message of the len bytes at a leaves for rank r, whose entry names core c, as a release;
`held` for an entry IN TRANSIT, `credit` for one that holds a credit. No thread and no byte changes. -/
def SendsMessage (s t : State) (c r ch len a : Nat) (held credit : Bool) : Prop :=
  SameBytes s t ∧ t.threads = s.threads ∧ ∃ k m, t.packets = s.packets ++ [k] ∧ k.cargo = .message ch m ∧
    k.source = s.cur ∧ k.rank = r ∧ k.dest = c ∧ k.tag = s.partOf s.cur ∧ k.stamp = s.nextId ∧ k.release = true ∧
    k.held = held ∧ k.credit = credit ∧ k.ejected = false ∧ m.sender = s.cur ∧
    m.header = BitVec.ofNat 64 ((s.coreAt s.here).rank + len * 2^10 + ch * 2^16) ∧
    m.payload = Memory.readBytes s.mem a len ++ List.replicate (56 - len) 0

/-- R142: what a HALT of thread u waits for has ended: its copy commands, MXU commands, stores, puts, sends and vector
entries. -/
def HaltOver (s : State) (u : Nat) : Prop :=
  (∀ q ∈ s.copies, q.thread = u → q.part ≠ s.partOf u) ∧ (∀ q ∈ (s.coreAt (coreOf u)).mxqueue, q.thread ≠ u) ∧
    (s.thread u).buffer = [] ∧ (s.thread u).puts = [] ∧
    (∀ k ∈ s.packets, k.source = u → s.sentHere k = true → k.cargo.channel.isSome = true →
      s.packetSent k = true ∧ k.held = false ∧ s.asks k = false) ∧
    ∀ q ∈ (s.coreAt (coreOf u)).vqueue, q.thread ≠ u

/-- R149: an address in the core's own scratchpad, by its core-local form; or a home address of a die. -/
def Space.loads (die : Nat) : Space → Bool
  | .spad _ => true
  | .home d => decide (d = die)
  | _ => false

/-! Atomics (R159). -/

/-- The signed value of the low n bytes. -/
def signedBytes (n v : Nat) : Int := (BitVec.ofNat (8 * n) v).toInt

/-- R159: the new value of each integer atomic of n bytes, old value `o`, operand `b`, comparand `c`. -/
def atomicTable (rd ra rb : Reg) (ty : IntSize) (g : Bool) (o b c : Nat) : List (Instr × AmoOp × Nat) :=
  let n := ty.bytes
  [(.amoAdd rd ra rb (match ty with | .w => .w | .d => .d) g, .add, (o + b) % 2^(8 * n)),
   (.amoAnd rd ra rb ty g, .and, o &&& b), (.amoOr rd ra rb ty g, .or, o ||| b), (.amoXor rd ra rb ty g, .xor, o ^^^ b),
   (.amoMin rd ra rb ty g, .min, if signedBytes n b < signedBytes n o then b else o),
   (.amoMax rd ra rb ty g, .max, if signedBytes n o < signedBytes n b then b else o),
   (.amoMinu rd ra rb ty g, .minu, min o b), (.amoMaxu rd ra rb ty g, .maxu, max o b),
   (.amoSwap rd ra rb ty g, .swap, b), (.amoCas rd ra rb ty g, .cas, if o = c then b else o)]

/-- R31, R35: domain k counts one generation more, with the arrivals that came early for it; nothing else of it changes. -/
def OpensNext (s t : State) (k : Nat) : Prop :=
  t.domain k = { s.domain k with
    gen := (s.domain k).gen + 1
    arrived := ((s.domain k).early.filter (fun e => e.1 == (s.domain k).gen + 1)).map (·.2)
    early := (s.domain k).early.filter (fun e => e.1 != (s.domain k).gen + 1) }

/-- R179: of the package no more changes than the Weir's semaphore i and what is the executing thread's own: every other
semaphore, every counter, every other thread and every byte of memory is as before. -/
def OnlySem (s t : State) (i : Nat) : Prop :=
  (∀ j, j ≠ i → t.sem j = s.sem j) ∧ t.counters = s.counters ∧ (∀ u, u ≠ s.cur → t.thread u = s.thread u) ∧ SameBytes s t

/-! Vector entries (R219, R220). -/

/-- R219, R220, R228: one entry of the executing word joins the end of its core's queue with what it captures: its word, its
thread, its length, two scalar values, its element addresses and the bindings; it is the newest of the thread's replay buffer
of 16. Nothing else changes. -/
def Enqueues (s t : State) (i : Instr) (xa xb : Word) (addrs : List Nat) : Prop :=
  ∃ (q : VItem) (e : VEntry),
    t = { s with threads := t.threads, cores := t.cores, nextId := s.nextId + 1 } ∧ SameBytes s t ∧
    (∀ u, u ≠ s.cur → t.thread u = s.thread u) ∧ (∀ c, c ≠ s.here → t.coreAt c = s.coreAt c) ∧
    t.coreAt s.here = { s.coreAt s.here with vqueue := (s.coreAt s.here).vqueue ++ [q] } ∧
    q.body = [e] ∧ q.isLoop = false ∧ q.passes = 1 ∧ q.pos = 0 ∧ q.done = false ∧ q.flags = 0 ∧ q.thread = s.cur ∧
    e.word = i ∧ e.thread = s.cur ∧ e.xa = xa ∧ e.xb = xb ∧ e.addrs = addrs ∧ e.binds = s.bindsNow.toList ∧
    e.got = (s.pair.map (·.got)).getD [] ∧ q.begun = !e.got.isEmpty ∧
    e.part = [] ∧ e.ue = false ∧ e.seed = s.pair.bind (·.seed) ∧
    e.len = lengthInForce s.vlNow s.bindsNow.toList i.vregs ∧
    t.me = { s.me with replay := t.me.replay } ∧
    (∃ l, s.me.replay ++ [{ e with old := none, seed := none, got := [] }] = l ++ t.me.replay ∧ (t.me.replay.length = 16 ∨ (l = [] ∧ t.me.replay.length ≤ 16)))

/-- R235: the address of each element is in the core's own open scratchpad, aligned, and no watch of the thread meets it. -/
def GoodLanes (s : State) (writes : Bool) (e : Nat) (va : List Word) : Prop :=
  ∀ a ∈ va, (∃ off, classify a = .spad off ∧ off + e ≤ 0xF8000) ∧ a.toNat % e = 0 ∧
    s.ownWatch ⟨s.here, false, true, writes, !writes⟩ a e = none

/-- The image of a register of core c as a number. -/
def State.vreg (s : State) (c : Nat) (v : VReg) : Nat := ((s.coreAt c).vregs.get v.toFin).toNat

/-- R237, R240: what a word without streams or holds reads: its length, va, vb, vd, and the generator: its thread's, or the
one it kept (R130). -/
def State.plainInput (s : State) (c : Nat) (e : VEntry) (h : VShape) : VIn :=
  ⟨e.len, (match h.srcA with | some x => s.vreg c x.1 | none => 0), (match h.srcB with | some x => s.vreg c x.1 | none => 0),
    (match h.srcD with | some v => s.vreg c v | none => 0), e.seed.getD (s.thread e.thread).lfsr⟩

/-- R223, R228: item q is p once its entry under way has executed with flags f: its next entry is under way, of a loop's last one
the first of the next pass, and it is done after the last pass. -/
def Advances (q p : VItem) (f : Flags) : Prop :=
  p.thread = q.thread ∧ p.isLoop = q.isLoop ∧ p.flags = q.flags ||| f ∧ p.begun = true ∧ p.body.length = q.body.length ∧
    (q.pos + 1 < q.body.length → p.pos = q.pos + 1 ∧ p.passes = q.passes ∧ p.done = q.done) ∧
    (q.body.length ≤ q.pos + 1 → 1 < q.passes → p.pos = 0 ∧ p.passes = q.passes - 1 ∧ p.done = q.done) ∧
    (q.body.length ≤ q.pos + 1 → q.passes ≤ 1 → p.done = true)

/-- R231: the head item q of core c waits: its entry stays under way, and no register, flume, thread or byte changes. -/
def StaysAt (s t : State) (c : Nat) (q : VItem) : Prop :=
  SameBytes s t ∧ t.threads = s.threads ∧ (t.coreAt c).vregs = (s.coreAt c).vregs ∧ (t.coreAt c).flumes = (s.coreAt c).flumes ∧
    ∃ p, (t.coreAt c).vqueue.head? = some p ∧ p.pos = q.pos ∧ p.passes = q.passes ∧ p.done = false

/-- R221: a function's output is n lanes of width w, lane j as g says, with the flags of all of them ORed. -/
def LanesAre (o : VOut) (w n : Nat) (g : Nat → Nat × Flags) : Prop :=
  o.width = w ∧ o.lanes.length = n ∧ (∀ j < n, o.lanes[j]? = some (g j).1) ∧
    ∀ k < 5, o.flags.getLsbD k = true ↔ ∃ j < n, (g j).2.getLsbD k = true

/-- R264: the head command of core c has retired: the next one heads the queue and, unless NC is set, its completion is the
thread's newest. -/
def MxDone (s t : State) (c : Nat) (q : MxCmd) (rest : List MxCmd) (status count short : Nat) (flags : Flags) : Prop :=
  (t.coreAt c).mxqueue = (match rest with | [] => [] | n :: r => { n with since := s.now } :: r) ∧
  (q.nc = false → ∃ e, (t.thread q.thread).fifo = (s.thread q.thread).fifo ++ [e] ∧
    e.lo.toNat = (q.ticket.toNat + 2 * 2^16 + status * 2^24 + flags.toNat * 2^32 + q.code * 2^40 + q.tag * 2^48) % 2^64 ∧
    e.hi.toNat = (count + short * 2^32) % 2^64 ∧ (t.thread q.thread).tally = (s.thread q.thread).tally) ∧
  (q.nc = true → (t.thread q.thread).fifo = (s.thread q.thread).fifo ∧
    (t.thread q.thread).tally.count = (s.thread q.thread).tally.count + 1)

/-- R306, R315: core c, which partition p's tag named, is saved for p and carries q's tag with nothing on it: its threads
are FREE, its scratchpad and accumulators zero, its flumes unconfigured. -/
def HandsCore (t : State) (p q c : Nat) : Prop :=
  t.tagOf c = q ∧ (∃ v ∈ t.saved, v.tag = p ∧ v.snapshot.core = c) ∧
  (∀ u, u / 4 = c → (t.thread u).status = .free) ∧ (∀ k < 2^20, Memory.read t.mem (spadKey c k) = 0) ∧
  (t.coreAt c).accs = [] ∧ (∀ n : Fin 16, (t.coreAt c).flumes.get n = Flume.reset) ∧ (t.coreAt c).vqueue = [] ∧
  (t.coreAt c).mxqueue = []

/-- R385: partition p's spore has failed with a code: nothing is captured any more, and its pages are released. -/
def SporeFailed (t : State) (p code : Nat) : Prop :=
  (t.part p).spore.state = .failed ∧ (t.part p).spore.fail = code ∧ (t.part p).spore.pages = [] ∧
    (t.part p).spore.capturing = [] ∧ (t.part p).spore.ready = false

/-! The host link (R389, R392, R395). -/

/-- The newest event of function f is e: it is the last that is held, or it stands in the entry before the ring's tail. -/
def NewestEvent (t : State) (f : Nat) (e : Event) : Prop :=
  (∃ l, (t.fn f).held = l ++ [e]) ∨
    ((t.fn f).held = [] ∧ ∃ k ph, (t.fn f).eqtail = (k + 1) % 2^(t.fn f).eqlog ∧
      Memory.readBytes t.mem (hostKey (t.fn f).eqbase.toNat + 64 * k) 64 = eventBytes e ph)

/-- R389: nothing of the package changes but function f's ring registers; every byte of memory reads as before. -/
def OnlyFunction (s t : State) (f : Nat) : Prop :=
  t = { s with functions := t.functions } ∧ (∀ g, g ≠ f → t.fn g = s.fn g) ∧ SameBytes s t

/-- R392: a command of function f with this host tag has ended with a status, about the partition of this tag (63 for none). -/
def Answered (t : State) (f tag : Nat) (htag : BitVec 32) (status : Nat) : Prop :=
  NewestEvent t f ⟨1, tag, htag, BitVec.ofNat 64 status, []⟩ ∧ (t.fn f).reading = none

/-- A command that is refused changes no thread, core, partition, tag, launch, frame, mode or clock. -/
def NoEffect (s t : State) : Prop :=
  t.threads = s.threads ∧ t.cores = s.cores ∧ t.parts = s.parts ∧ t.tags = s.tags ∧ t.launches = s.launches ∧
    t.frames = s.frames ∧ t.saved = s.saved ∧ t.modes = s.modes ∧ t.now = s.now ∧ t.packets = s.packets ∧ t.copies = s.copies

/-- R306: core c carries tag q and its threads are FREE, its flumes unconfigured, its queues empty. -/
def FreshCore (t : State) (q c : Nat) : Prop :=
  t.tagOf c = q ∧ (∀ u, u / 4 = c → (t.thread u).status = .free) ∧ (∀ n : Fin 16, (t.coreAt c).flumes.get n = Flume.reset) ∧
    (t.coreAt c).accs = [] ∧ (t.coreAt c).vqueue = [] ∧ (t.coreAt c).mxqueue = []

/-- R399: thread u runs as a supervisor from an entry address with a0. -/
def Started (t : State) (u : Nat) (entry info : Word) : Prop :=
  (t.thread u).status = .ready ∧ (t.thread u).pc = entry &&& 0xFFFFFFFFFFFFFFFC ∧ (t.thread u).supervisor = true ∧
    (t.thread u).regs.get (10 : Fin 64) = info ∧ (t.thread u).launch = none

/-- No first-stage leaf and no page of a spore of the partitions that function f's write can meet is listed (R334, R374). -/
def State.leavesApart (s : State) (f : Nat) : Prop :=
  ∀ q ∈ s.partsOfFn f, (s.part q).spore.pages = [] ∧ s.allPages q = []

/-! CSR values (R71, R130). -/

/-- R71, R94, R104, R125, R132, R133, R146, R158, R221, R225, R254, R255, R270, R360: what a CSR reads after a write of v where it
read `old`: bits that read as zero or are read-only ignore the write. `busy` is RMODE's condition. -/
def csrAfter (n : CsrName) (busy : Bool) (old v : Word) : Word :=
  match n with
  | .tstat => (v &&& 0xFFFF02C0) ||| (old &&& 0x100)
  | .tvec | .lpstart | .lpend => v &&& 0xFFFFFFFFFFFFFFF8
  | .fcsr => (v &&& 0x1F) ||| (if v.toNat / 256 % 8 ≤ 4 then v &&& 0x700 else old &&& 0x700)
  | .scopecap => (v &&& 0x300) ||| (old &&& 3)
  | .lpcount => v &&& 0xFFFFFFFF
  | .mxfmta | .mxfmtb => if v.toNat % 16 ∈ [0, 1, 2, 3, 4, 8, 9, 10] then v &&& 15 else old
  | .mxout => if v.toNat % 16 ∈ [0, 1, 2, 3, 4, 8, 9, 10, 12] then v &&& 15 else old
  | .mxbanda | .mxbandb => v &&& 0x80000000000FFFFE
  | .rmode => if busy then old else v &&& 1
  | .rclass => (v &&& 7) ||| (old &&& 0xFFFFFFFFFFFFFFF8)
  | .rmargin => v &&& 0xFFFFFFFFFF
  | .vl => if v.toNat ≤ 32 then v else 32
  | .vshare => v &&& 15
  | .sigstat => (v &&& 3) ||| (old &&& 0xFFFFFFFFFFFFFFFC)
  | .lfsrseed => if v &&& 0xFFFFFFFF = 0 then 1 else v &&& 0xFFFFFFFF
  | .watchM _ => v &&& 0x3F3F
  | _ => v

/-! Integer values as the tables of R112 to R117 give them. -/

/-- R114: the n-bit quotient of two signed values as the exact truncated quotient, saturated; by zero the bound in the
direction of the dividend, 0 for 0. -/
def quotientS (n : Nat) (a b : Int) : Int :=
  if b = 0 then (if a = 0 then 0 else if 0 < a then 2^(n - 1) - 1 else -2^(n - 1))
  else min (a.tdiv b) (2^(n - 1) - 1)

/-- R114: the n-bit quotient of two unsigned values. -/
def quotientU (n a b : Nat) : Nat := if b = 0 then (if a = 0 then 0 else 2^n - 1) else a / b

/-- R112, R114: the signed remainder: the dividend when the divisor is 0. -/
def remainderS (a b : Int) : Int := if b = 0 then a else a.tmod b

/-- R113: bits 31:0 of an integer, sign-extended from bit 31. -/
def sext32 (v : Int) : Word := (BitVec.ofInt 32 v).signExtend 64

end Sys2Proof.Machine
end

