-- ==== Sys2Proof/Certificates/Slice0/Obligations.lean ====
section
/-!
DEFINITION. The statements about the model. Each docstring names the rules of spec/ that it formalises, and the log entry
where a clause is the model's own choice.
-/
open Sys2Proof Sys2Proof.Machine

/-! Integer arithmetic. -/

/-- R112, R114: each INT instruction writes x[rd] with the value of the table, read as integers, and changes nothing else.
Bits 63:6 of a shift amount are ignored. R113, R114: each W form computes on bits 31:0 of its sources and writes the 32-bit
result sign-extended from bit 31. R56, R112: the word of each INT instruction is the major 0x20 with rd, ra, rb and its
function, and decodes to it, with the lone bit too. -/
def Obligations.IntRegisterForms : Prop :=
  (∀ (s : State) (rd ra rb : Reg) (a b : Word), s.x ra = a → s.x rb = b →
  ∀ p ∈ ([(.add rd ra rb, BitVec.ofNat 64 (a.toNat + b.toNat)),
    (.sub rd ra rb, BitVec.ofInt 64 (a.toInt - b.toInt)),
    (.and rd ra rb, a &&& b), (.or rd ra rb, a ||| b), (.xor rd ra rb, a ^^^ b),
    (.sll rd ra rb, BitVec.ofNat 64 (a.toNat * 2^(b.toNat % 64))),
    (.srl rd ra rb, BitVec.ofNat 64 (a.toNat / 2^(b.toNat % 64))),
    (.sra rd ra rb, BitVec.ofInt 64 (a.toInt / 2^(b.toNat % 64))),
    (.slt rd ra rb, if a.toInt < b.toInt then 1 else 0),
    (.sltu rd ra rb, if a.toNat < b.toNat then 1 else 0),
    (.min rd ra rb, BitVec.ofInt 64 (Min.min a.toInt b.toInt)),
    (.max rd ra rb, BitVec.ofInt 64 (Max.max a.toInt b.toInt)),
    (.minu rd ra rb, BitVec.ofNat 64 (Min.min a.toNat b.toNat)),
    (.maxu rd ra rb, BitVec.ofNat 64 (Max.max a.toNat b.toNat)),
    (.mul rd ra rb, BitVec.ofNat 64 (a.toNat * b.toNat)),
    (.mulhiSs rd ra rb, BitVec.ofInt 64 (a.toInt * b.toInt / 2^64)),
    (.mulhiUu rd ra rb, BitVec.ofNat 64 (a.toNat * b.toNat / 2^64)),
    (.mulhiSu rd ra rb, BitVec.ofInt 64 (a.toInt * b.toNat / 2^64)),
    (.div rd ra rb, BitVec.ofInt 64 (quotientS 64 a.toInt b.toInt)),
    (.divu rd ra rb, BitVec.ofNat 64 (quotientU 64 a.toNat b.toNat)),
    (.rem rd ra rb, BitVec.ofInt 64 (remainderS a.toInt b.toInt)),
    (.remu rd ra rb, BitVec.ofNat 64 (a.toNat % b.toNat))] : List (Instr × Word)),
    ∃ t, exec p.1 s = .next t ∧ WritesReg s t rd p.2) ∧
  (∀ (s : State) (rd ra rb : Reg) (a b : BitVec 32), (s.x ra).setWidth 32 = a → (s.x rb).setWidth 32 = b →
  ∀ p ∈ ([(.addw rd ra rb, sext32 (a.toInt + b.toInt)),
    (.subw rd ra rb, sext32 (a.toInt - b.toInt)),
    (.sllw rd ra rb, sext32 (a.toInt * 2^(b.toNat % 32))),
    (.srlw rd ra rb, sext32 ((a.toNat / 2^(b.toNat % 32) : Nat) : Int)),
    (.sraw rd ra rb, sext32 (a.toInt / 2^(b.toNat % 32))),
    (.mulw rd ra rb, sext32 (a.toInt * b.toInt)),
    (.divw rd ra rb, sext32 (quotientS 32 a.toInt b.toInt)),
    (.divuw rd ra rb, sext32 (quotientU 32 a.toNat b.toNat)),
    (.remw rd ra rb, sext32 (remainderS a.toInt b.toInt)),
    (.remuw rd ra rb, sext32 ((a.toNat % b.toNat : Nat) : Int))] : List (Instr × Word)),
    ∃ t, exec p.1 s = .next t ∧ WritesReg s t rd p.2) ∧
  (∀ rd ra rb : Reg, ∀ p ∈ ([(.add rd ra rb, 0x00), (.sub rd ra rb, 0x01), (.and rd ra rb, 0x02), (.or rd ra rb, 0x03), (.xor rd ra rb, 0x04),
    (.sll rd ra rb, 0x05), (.srl rd ra rb, 0x06), (.sra rd ra rb, 0x07), (.slt rd ra rb, 0x08), (.sltu rd ra rb, 0x09),
    (.min rd ra rb, 0x0A), (.max rd ra rb, 0x0B), (.minu rd ra rb, 0x0C), (.maxu rd ra rb, 0x0D), (.mul rd ra rb, 0x10),
    (.mulhiSs rd ra rb, 0x11), (.mulhiUu rd ra rb, 0x12), (.mulhiSu rd ra rb, 0x13), (.div rd ra rb, 0x14),
    (.divu rd ra rb, 0x15), (.rem rd ra rb, 0x16), (.remu rd ra rb, 0x17), (.addw rd ra rb, 0x20), (.subw rd ra rb, 0x21),
    (.sllw rd ra rb, 0x22), (.srlw rd ra rb, 0x23), (.sraw rd ra rb, 0x24), (.mulw rd ra rb, 0x25), (.divw rd ra rb, 0x26),
    (.divuw rd ra rb, 0x27), (.remw rd ra rb, 0x28), (.remuw rd ra rb, 0x29)] : List (Instr × Nat)), ∀ w,
    w = 0x20 * 2^25 + rd.toNat * 2^19 + ra.toNat * 2^13 + rb.toNat * 2^7 + p.2 →
    encodeWord p.1 = some w ∧ decodeWord w = .ok p.1 ∧ decodeBundle (BitVec.ofNat 32 (2^31 + w)) 0 = .lone p.1 .nop)

/-- R115, R116: the immediate forms compute the matching INT function with sext(imm13), or with the shift amount of the word,
in place of x[rb]. R117: LUI writes sext(imm19) * 2^13; AUIPC adds the address of the bundle that holds it, whichever word it
occupies. -/
def Obligations.IntImmediateForms : Prop :=
  (∀ (s : State) (rd ra : Reg) (imm : BitVec 13) (sh : BitVec 6) (shw : BitVec 5) (a : Word), s.x ra = a →
  ∀ p ∈ ([(.addi rd ra imm, BitVec.ofInt 64 (a.toInt + imm.toInt)),
    (.andi rd ra imm, a &&& BitVec.ofInt 64 imm.toInt),
    (.ori rd ra imm, a ||| BitVec.ofInt 64 imm.toInt),
    (.xori rd ra imm, a ^^^ BitVec.ofInt 64 imm.toInt),
    (.slti rd ra imm, if a.toInt < imm.toInt then 1 else 0),
    (.sltiu rd ra imm, if a.toNat < (BitVec.ofInt 64 imm.toInt).toNat then 1 else 0),
    (.slli rd ra sh, BitVec.ofNat 64 (a.toNat * 2^sh.toNat)),
    (.srli rd ra sh, BitVec.ofNat 64 (a.toNat / 2^sh.toNat)),
    (.srai rd ra sh, BitVec.ofInt 64 (a.toInt / 2^sh.toNat)),
    (.slliw rd ra shw, sext32 ((a.toNat * 2^shw.toNat : Nat) : Int)),
    (.srliw rd ra shw, sext32 ((a.toNat % 2^32 / 2^shw.toNat : Nat) : Int)),
    (.sraiw rd ra shw, sext32 ((BitVec.ofNat 32 a.toNat).toInt / 2^shw.toNat))] : List (Instr × Word)),
    ∃ t, exec p.1 s = .next t ∧ WritesReg s t rd p.2) ∧
  (∀ (s : State) (rd : Reg) (imm : BitVec 19),
    (∃ t, exec (.lui rd imm) s = .next t ∧ WritesReg s t rd (BitVec.ofInt 64 (imm.toInt * 2^13))) ∧
    (∃ t, exec (.auipc rd imm) s = .next t ∧
      WritesReg s t rd (BitVec.ofInt 64 ((s.me.pc.toNat / 8 * 8 : Nat) + imm.toInt * 2^13))))

/-! Bit operations. -/

/-- R118: CLZ, CTZ and POPC count the leading zero, trailing zero and one bits of x[ra]. R118: BEXT, BINS, SEXT and ZEXT bit
by bit, with the position p in bits 5:0 and the width in bits 14:8 of x[rb], at most 64 - p; and the LEA forms modulo 2^64.
BINS reads x[rd]. R118: the word of each BITS instruction is the major 0x2A with rd, ra, rb (0 for one source) and its
function, and decodes to it. -/
def Obligations.BitOperations : Prop :=
  (∀ (s : State) (rd ra : Reg) (a : Word), s.x ra = a →
    (∃ t n, exec (.clz rd ra) s = .next t ∧ WritesReg s t rd (BitVec.ofNat 64 n) ∧ n ≤ 64 ∧ a.toNat < 2^(64 - n) ∧
      (n < 64 → 2^(63 - n) ≤ a.toNat)) ∧
    (∃ t n, exec (.ctz rd ra) s = .next t ∧ WritesReg s t rd (BitVec.ofNat 64 n) ∧ n ≤ 64 ∧
      (∀ i < n, a.getLsbD i = false) ∧ (n < 64 → a.getLsbD n = true)) ∧
    (∃ t, exec (.popc rd ra) s = .next t ∧
      WritesReg s t rd (BitVec.ofNat 64 ((List.range 64).countP (fun i => a.getLsbD i))))) ∧
  (∀ (s : State) (rd ra rb : Reg) (a b : Word), s.x ra = a → s.x rb = b →
    ∀ p w, p = b.toNat % 64 → w = Min.min (b.toNat / 256 % 128) (64 - p) →
    (∃ t v, exec (.bext rd ra rb) s = .next t ∧ WritesReg s t rd v ∧
      ∀ i < 64, v.getLsbD i = (decide (i < w) && a.getLsbD (p + i))) ∧
    (∃ t v, exec (.bins rd ra rb) s = .next t ∧ WritesReg s t rd v ∧
      ∀ i < 64, v.getLsbD i = if p ≤ i ∧ i < p + w then a.getLsbD (i - p) else (s.x rd).getLsbD i) ∧
    (∃ t v, exec (.sext rd ra rb) s = .next t ∧ WritesReg s t rd v ∧
      ∀ i < 64, v.getLsbD i = a.getLsbD (Min.min i p)) ∧
    (∃ t v, exec (.zext rd ra rb) s = .next t ∧ WritesReg s t rd v ∧
      ∀ i < 64, v.getLsbD i = (decide (i ≤ p) && a.getLsbD i)) ∧
    ∀ e ∈ ([(.lea rd ra rb, 1), (.lea2 rd ra rb, 2), (.lea4 rd ra rb, 4), (.lea8 rd ra rb, 8)] : List (Instr × Nat)),
      ∃ t, exec e.1 s = .next t ∧ WritesReg s t rd (BitVec.ofNat 64 (a.toNat + b.toNat * e.2))) ∧
  (∀ rd ra rb : Reg, ∀ p ∈ ([(.clz rd ra, 0, 0), (.ctz rd ra, 0, 1), (.popc rd ra, 0, 2), (.bext rd ra rb, rb.toNat, 3),
    (.bins rd ra rb, rb.toNat, 4), (.sext rd ra rb, rb.toNat, 5), (.zext rd ra rb, rb.toNat, 6), (.lea rd ra rb, rb.toNat, 7),
    (.lea2 rd ra rb, rb.toNat, 8), (.lea4 rd ra rb, rb.toNat, 9), (.lea8 rd ra rb, rb.toNat, 10)] : List (Instr × Nat × Nat)), ∀ w,
    w = 0x2A * 2^25 + rd.toNat * 2^19 + ra.toNat * 2^13 + p.2.1 * 2^7 + p.2.2 →
    encodeWord p.1 = some w ∧ decodeWord w = .ok p.1)

/-! Scalar floating point. -/

/-- R119 to R121, R92, R94: each FLT, FMA.S and FMS.S form writes the FP32 encoding of its result to bits 31:0 of x[rd] with
bits 63:32 zero, or an integer over all 64 bits, ORs the flags of its one rounding into FCSR, and changes nothing else. The
mode is that of the word, or FCSR.RM. -/
def Obligations.FloatForms : Prop :=
  ∀ (s : State) (rd ra rb rc : Reg) (rm : Rounding) (a b c : Nat) (m d : RMode),
    a = (s.x ra).toNat % 2^32 → b = (s.x rb).toNat % 2^32 → c = (s.x rc).toNat % 2^32 →
    m = s.mode rm → d = s.dynamicMode →
    (∀ p ∈ ([(.fadd rd ra rb rm, Fmt.f32.add m a b), (.fsub rd ra rb rm, Fmt.f32.sub m a b),
      (.fmul rd ra rb rm, Fmt.f32.mul m a b), (.fdiv rd ra rb rm, Fmt.f32.div m a b), (.fsqrt rd ra rm, Fmt.f32.sqrt m a),
      (.fmin rd ra rb, Fmt.f32.minMax false a b), (.fmax rd ra rb, Fmt.f32.minMax true a b),
      (.itofW rd ra rm, Fmt.f32.ofInt m ((s.x ra).setWidth 32 : BitVec 32).toInt), (.itofL rd ra rm, Fmt.f32.ofInt m (s.x ra).toInt),
      (.fabs rd ra, Fmt.f32.abs a), (.fneg rd ra, Fmt.f32.negate a),
      (.fmaS rd ra rb rc, Fmt.f32.fma d false false a b c),
      (.fmsS rd ra rb rc, Fmt.f32.fma d false true a b c)] : List (Instr × (Nat × Flags))),
      ∃ t, exec p.1 s = .next t ∧ WritesFloat s t rd (BitVec.ofNat 64 (p.2.1 % 2^32)) p.2.2) ∧
    (∀ p ∈ ([(.feq rd ra rb, Fmt.f32.cmpEq a b), (.fclt rd ra rb, Fmt.f32.cmpLt a b),
      (.fcle rd ra rb, Fmt.f32.cmpLe a b)] : List (Instr × (Bool × Flags))),
      ∃ t, exec p.1 s = .next t ∧ WritesFloat s t rd (if p.2.1 then 1 else 0) p.2.2) ∧
    (∃ t, exec (.ftoiW rd ra rm) s = .next t ∧
      WritesFloat s t rd (sext32 (Fmt.f32.toInt m 32 a).1) (Fmt.f32.toInt m 32 a).2) ∧
    (∃ t, exec (.ftoiL rd ra rm) s = .next t ∧
      WritesFloat s t rd (BitVec.ofNat 64 (Fmt.f32.toInt m 64 a).1) (Fmt.f32.toInt m 64 a).2)

/-- R88, R93, R97: an encoding that is no NaN stands for a value that every rounding mode delivers as that encoding, with no
flag, in every format. R95, R98, R120: FEQ, FCLT and FCLE answer 0 when a source is a NaN, FCLT and FCLE then raise IV, and of
two sources that are no NaN exactly one of a < b, b < a and a = b holds and no flag is raised. -/
def Obligations.FloatValues : Prop :=
  (∀ f ∈ [Fmt.f32, Fmt.f16, Fmt.bf16, Fmt.e5m2, Fmt.e4m3, Fmt.e3m2, Fmt.e2m3, Fmt.e2m1],
    ∀ (mode : RMode) (bits : Nat), bits < 2^f.width → (f.decode bits).isNan = false →
      f.deliver mode (f.decode bits) = (bits, 0)) ∧
  (∀ a b : Nat,
    (((Fmt.f32.decode a).isNan || (Fmt.f32.decode b).isNan) = true →
      (Fmt.f32.cmpEq a b).1 = false ∧ Fmt.f32.cmpLt a b = (false, Flags.iv) ∧ Fmt.f32.cmpLe a b = (false, Flags.iv)) ∧
    (((Fmt.f32.decode a).isNan || (Fmt.f32.decode b).isNan) = false →
      ∃ l e g : Bool, Fmt.f32.cmpLt a b = (l, 0) ∧ Fmt.f32.cmpEq a b = (e, 0) ∧ Fmt.f32.cmpLt b a = (g, 0) ∧
        Fmt.f32.cmpLe a b = (l || e, 0) ∧ l.toNat + e.toNat + g.toNat = 1))

/-! Branches, jumps and hardware loops. -/

/-- R123: each branch compares x[ra] with x[rb]; when the comparison holds it is taken to W + 4 * sext(off13), W its own
word's address, else it falls through. It writes no register. R56, R123: the word of each branch is its major, 4 to 9, with
ra, rb and off13, and decodes to it. -/
def Obligations.Branches : Prop :=
  (∀ (s : State) (ra rb : Reg) (off : BitVec 13) (a b : Word), s.x ra = a → s.x rb = b →
  ∀ p ∈ ([(.beq ra rb off, decide (a = b)), (.bne ra rb off, decide (a ≠ b)),
    (.blt ra rb off, decide (a.toInt < b.toInt)), (.bge ra rb off, decide (b.toInt ≤ a.toInt)),
    (.bltu ra rb off, decide (a.toNat < b.toNat)), (.bgeu ra rb off, decide (b.toNat ≤ a.toNat))] : List (Instr × Bool)),
    ∃ t, exec p.1 s = .next t ∧
      if p.2 then Transfers s t (BitVec.ofInt 64 (s.me.pc.toInt + 4 * off.toInt)) else Nothing s t) ∧
  (∀ (ra rb : Reg) (off : BitVec 13), ∀ p ∈ ([(.beq ra rb off, 4), (.bne ra rb off, 5), (.blt ra rb off, 6), (.bge ra rb off, 7),
    (.bltu ra rb off, 8), (.bgeu ra rb off, 9)] : List (Instr × Nat)), ∀ w,
    w = p.2 * 2^25 + ra.toNat * 2^19 + rb.toNat * 2^13 + off.toNat →
    encodeWord p.1 = some w ∧ decodeWord w = .ok p.1)

/-- R122, R124: JAL and JALR write the link value, the next word of an L=1 bundle or else the next bundle, and transfer: JAL
to W + 4 * sext(off19), JALR to x[ra] + sext(imm13), formed from the old x[ra], when bits 1:0 of that are zero. R124, R54: a
JALR target with bits 1:0 not zero raises MISALIGN at the JALR, which writes nothing. -/
def Obligations.JumpsAndLinks : Prop :=
  (∀ (s : State) (rd ra : Reg) (off : BitVec 19) (imm : BitVec 13) (link target : Word),
    link = (if s.me.pc.toNat % 8 < 4 ∧ s.me.second ≠ none then s.me.pc + 4 else (s.me.pc &&& 0xFFFFFFFFFFFFFFF8) + 8) →
    target = BitVec.ofInt 64 ((s.x ra).toInt + imm.toInt) →
    (∃ t, exec (.jal rd off) s = .next t ∧ Jumps s t rd link (BitVec.ofInt 64 (s.me.pc.toInt + 4 * off.toInt))) ∧
    (target.toNat % 4 = 0 → ∃ t, exec (.jalr rd ra imm) s = .next t ∧ Jumps s t rd link target)) ∧
  (∀ (s : State) (rd ra : Reg) (imm : BitVec 13) (target : Word), s.me.inh = false →
    target = BitVec.ofInt 64 ((s.x ra).toInt + imm.toInt) → target.toNat % 4 ≠ 0 →
    ∃ t, exec (.jalr rd ra imm) s = .next t ∧ TakesTrap s t ⟨.misalign, target, 0, 0, 0xFF⟩)

/-- R125, R126: the loop CSRs in force for a bundle are those that read, unless the bundle has written some of them: a value it
writes governs the next. R126: LOOP with a count that is not 0 and no loop active sets LPSTART, LPEND and LPCOUNT; with one
active loop whose end is not before E it pushes that loop into LPOUTER; with a count of 0 it changes no loop CSR and leaves
bundle B for E + 8. That this skip belongs to its bundle, one for each, is log entry 8 (DEDUCED); that a LOOP ends what its own
bundle has written, and is tested on the CSRs in force, is log entry 62 (DEDUCED). R126, R148: LOOP raises ILLEGAL with
sub-code 3 while LH is set, 1 at a third level, and 2 when its end lies after the end of the active loop. -/
def Obligations.LoopSetup : Prop :=
  (∀ (s : State) (ra : Reg) (off : BitVec 13) (b e : Word) (n : BitVec 32), s.me.lh = false →
    b = s.me.pc &&& 0xFFFFFFFFFFFFFFF8 → e = BitVec.ofInt 64 (s.me.pc.toInt + 4 * off.toInt) &&& 0xFFFFFFFFFFFFFFF8 →
    n = (s.x ra).setWidth 32 →
    (n = 0 → ∃ t, exec (.loop ra off) s = .next t ∧ OnlyThread s t s.cur ∧
      t.me = { s.me with skip := (b, e + 8) :: s.me.skip.filter (fun k => k.1 != b) }) ∧
    (n ≠ 0 → s.me.loopInForce.count = 0 → ∃ t, exec (.loop ra off) s = .next t ∧ OnlyThread s t s.cur ∧
      t.me = { s.me with lpstart := b + 8, lpend := e, lpcount := n, loopHeld := none, loopWritten := 0 }) ∧
    (∀ f, f = s.me.loopInForce → n ≠ 0 → f.count ≠ 0 → f.outer.toNat / 2^32 = 0 → e.toNat ≤ f.stop.toNat →
      ∃ t o, exec (.loop ra off) s = .next t ∧ OnlyThread s t s.cur ∧
        t.me = { s.me with lpstart := b + 8, lpend := e, lpcount := n, lpouter := o, loopHeld := none, loopWritten := 0 } ∧
        o.toNat / 2^32 = f.count.toNat ∧
        o.toNat / 2^16 % 2^16 = (b + 8 - f.start).toNat / 8 % 2^16 ∧
        o.toNat % 2^16 = (f.stop - f.start).toNat / 8 % 2^16)) ∧
  (∀ (s : State), s.me.loopHeld = none → s.me.loopInForce = ⟨s.me.lpstart, s.me.lpend, s.me.lpcount, s.me.lpouter⟩) ∧
  (∀ (s : State) (ra : Reg) (off : BitVec 13) (e : Word) (sub : BitVec 8), s.me.inh = false →
    e = BitVec.ofInt 64 (s.me.pc.toInt + 4 * off.toInt) &&& 0xFFFFFFFFFFFFFFF8 →
    ((s.me.lh = true ∧ sub = 3) ∨
      (s.me.lh = false ∧ (s.x ra).setWidth 32 ≠ (0 : BitVec 32) ∧ s.me.loopInForce.count ≠ 0 ∧
        ((s.me.loopInForce.outer.toNat / 2^32 ≠ 0 ∧ sub = 1) ∨
          (s.me.loopInForce.outer.toNat / 2^32 = 0 ∧ s.me.loopInForce.stop.toNat < e.toNat ∧ sub = 2)))) →
    ∃ t w, exec (.loop ra off) s = .next t ∧ TakesTrap s t ⟨.illegal, s.me.pc, w, sub, 0xFF⟩)

/-- R127: end processing at the end of bundle b: an iteration that is not the last goes back to LPSTART; the last one ends the
loop and uncovers the enclosing one, which the same bundle may end an iteration of as well. R128: a taken transfer to T leaves
a loop whose body holds T as it is and never decrements a count; it leaves no loop active whose body T lies outside of. -/
def Obligations.LoopEndProcessing : Prop :=
  (∀ (x : Thread) (b : Word),
    ((x.lpcount = 0 ∨ b ≠ x.lpend) → x.loopEnd b 3 = (x, none)) ∧
    (x.lpcount.toNat > 1 → b = x.lpend → x.loopEnd b 3 = ({ x with lpcount := x.lpcount - 1 }, some x.lpstart)) ∧
    (x.lpcount = 1 → b = x.lpend → x.lpouter.toNat / 2^32 = 0 →
      x.loopEnd b 3 = ({ x with lpstart := 0, lpend := 0, lpcount := 0, lpouter := 0 }, none)) ∧
    (x.lpcount = 1 → b = x.lpend → ∀ st en n : Nat, x.lpouter.toNat / 2^32 = n → n ≠ 0 →
      BitVec.ofNat 64 st = x.lpstart - BitVec.ofNat 64 (8 * (x.lpouter.toNat / 2^16 % 2^16)) →
      BitVec.ofNat 64 en = BitVec.ofNat 64 st + BitVec.ofNat 64 (8 * (x.lpouter.toNat % 2^16)) →
      let y : Thread := { x with lpstart := BitVec.ofNat 64 st, lpend := BitVec.ofNat 64 en, lpouter := 0,
                                 lpcount := BitVec.ofNat 32 n }
      (b ≠ y.lpend → x.loopEnd b 3 = (y, none)) ∧
      (b = y.lpend → n > 1 → x.loopEnd b 3 = ({ y with lpcount := BitVec.ofNat 32 (n - 1) }, some y.lpstart)) ∧
      (b = y.lpend → n = 1 →
        x.loopEnd b 3 = ({ x with lpstart := 0, lpend := 0, lpcount := 0, lpouter := 0 }, none)))) ∧
  (∀ (x : Thread) (t : Word),
    let y := x.popOutside t 3
    (x.lpstart.toNat ≤ t.toNat → t.toNat ≤ (x.lpend + 4).toNat → y = x) ∧
    (y.lpcount ≠ 0 → y.lpstart.toNat ≤ t.toNat ∧ t.toNat ≤ (y.lpend + 4).toNat) ∧
    (y.lpcount = x.lpcount ∨ y.lpcount = 0 ∨ y.lpcount.toNat = x.lpouter.toNat / 2^32))

/-! CSRs. -/

/-- R71, R72, R130: CSRRW, and CSRRS with an ra that is not x0, of a CSR that the thread's level may write give x[rd] the old
value, and the CSR takes x[ra], or its bits ORed with x[ra], in the bits that can be written. No other register, CSR, thread or
byte changes. What a written SCOPECAP.CLIP becomes is log entry 63 (DESIGN CHOICE), that MXFMTA, MXFMTB and MXOUT take bits 3:0
alone log entry 44 (DEDUCED). R305: a write of SLOTBASE reads a table at the value: a good one waits for the next communication
phase, which it then governs with its rows' counts at 0, a bad one changes nothing, and SLOTBASE reads as before; earlier
writes of the thread come first (log entry 74, DEDUCED). R72, R130: CSRRS with ra = x0 of a CSR that the thread's level may
read gives x[rd] its value and writes nothing. R71, R72, R148: an access to a CSR address that is not implemented raises
ILLEGAL, and a read or a write that the thread's level may not make raises ACCESS with the CSR's number in TVAL; nothing is
read or written. App code reads no trap CSR. -/
def Obligations.CsrInstructions : Prop :=
  (∀ (s : State) (rd ra : Reg) (csr : BitVec 12) (n : CsrName) (old : Word), csrOf csr = some n → n ≠ .slotbase →
    n.allows s.me.supervisor true = true → (n.waitsForVector = true → s.vectorBusy s.cur = false) → s.readCsr n = old →
    ∀ p ∈ ([(.csrrw rd ra csr, s.x ra), (.csrrs rd ra csr, old ||| s.x ra)] : List (Instr × Word)),
      (p.1 = .csrrs rd ra csr → ra ≠ 0) →
      ∃ t, exec p.1 s = .next t ∧ RegsSet s.me.regs t.me.regs rd old ∧
        t.readCsr n = csrAfter n (decide (s.me.resv ≠ 0 ∨ s.me.req ≠ 0)) old p.2 ∧
        (∀ m, m ≠ n → t.readCsr m = s.readCsr m) ∧ (∀ u, u ≠ s.cur → t.thread u = s.thread u) ∧
        (∀ c, c ≠ s.here → t.coreAt c = s.coreAt c) ∧ SameBytes s t ∧
        t.me.pc = s.me.pc ∧ t.me.status = s.me.status ∧ t.me.buffer = s.me.buffer ∧ t.me.pending = s.me.pending) ∧
  (∀ (s : State) (rd ra : Reg) (csr : BitVec 12) (old : Word), csrOf csr = some .slotbase → s.me.supervisor = true →
    s.readCsr .slotbase = old →
    ∀ p ∈ ([(.csrrw rd ra csr, s.x ra), (.csrrs rd ra csr, old ||| s.x ra)] : List (Instr × Word)),
      (p.1 = .csrrs rd ra csr → ra ≠ 0) →
      (s.writesBusy s.cur = true → ∃ t, exec p.1 s = .next t ∧ Waits s t .writesDone) ∧
      (∀ u rows, s.writesBusy s.cur = false → s.tableBy (some (dieOf s.here)) (s.partOf s.cur) p.2 = (u, .value rows) →
        ∃ t, exec p.1 s = .next t ∧ RegsSet s.me.regs t.me.regs rd old ∧ t.readCsr .slotbase = old ∧
          t.coreAt s.here = { s.coreAt s.here with slotNext := some (p.2, rows) }) ∧
      (∀ u, s.writesBusy s.cur = false → s.tableBy (some (dieOf s.here)) (s.partOf s.cur) p.2 = (u, .bad) →
        ∃ t, exec p.1 s = .next t ∧ RegsSet s.me.regs t.me.regs rd old ∧ t.readCsr .slotbase = old ∧
          t.coreAt s.here = s.coreAt s.here)) ∧
  (∀ (k : Core) (a : Word) (rows : List SlotRow), k.comm = false → k.slotNext = some (a, rows) →
    k.flip.slotBase = a ∧ k.flip.rows = rows.map (fun r => { r with sent := 0 }) ∧ k.flip.slotNext = none ∧
      k.flip.slotCur = none) ∧
  (∀ (s : State) (rd : Reg) (csr : BitVec 12) (n : CsrName), csrOf csr = some n → n.allows s.me.supervisor false = true →
    (n.waitsForVector = true → s.vectorBusy s.cur = false) →
    ∃ t, exec (.csrrs rd 0 csr) s = .next t ∧ WritesReg s t rd (s.readCsr n)) ∧
  (∀ (s : State) (rd ra : Reg) (csr : BitVec 12), s.me.inh = false →
    (∀ i ∈ ([.csrrw rd ra csr, .csrrs rd ra csr] : List Instr),
      (csrOf csr = none → ∃ t w, exec i s = .next t ∧ TakesTrap s t ⟨.illegal, s.me.pc, w, 0, 0xFF⟩) ∧
      (∀ n, csrOf csr = some n → (n.allows s.me.supervisor false = false ∨
          (n.allows s.me.supervisor true = false ∧ (i = .csrrs rd ra csr → ra ≠ 0))) →
        ∃ t, exec i s = .next t ∧ TakesTrap s t ⟨.access, csr.setWidth 64, 0, 0, 0xFF⟩)) ∧
    (csr.toNat ≤ 6 → s.me.supervisor = false →
      ∃ t, exec (.csrrs rd 0 csr) s = .next t ∧ TakesTrap s t ⟨.access, csr.setWidth 64, 0, 0, 0xFF⟩))

/-! Traps, returns and thread control. -/

/-- R135, R139: TRAP and BRK outside a handler take an exception with TCAUSE 0x8000 plus the code, or 0x4000. R138: ERET at
supervisor privilege with bits 1:0 of TEPC zero sets PRIV to PRV, clears INH and LH, and goes on at TEPC; with other bits it
raises MISALIGN with TEPC; at app privilege it raises ACCESS with its own address. R136: TRAP and BRK inside a handler (INH =
1) are double traps: TCAUSE reads UE, SUB 0x80 and TVAL2 the cause that the trap would have had; TEPC, TVAL and the rest of
TSTAT stay, and a thread of no launch is contained by being PARKED (R352); no other thread changes. -/
def Obligations.TrapsAndReturns : Prop :=
  (∀ (s : State) (code : BitVec 12), s.me.inh = false →
    (∃ t, exec (.trap code) s = .next t ∧ TakesTrap s t ⟨.software code, 0, 0, 0, 0xFF⟩ ∧
      t.me.tcause = BitVec.ofNat 64 (0x8000 + code.toNat)) ∧
    (∃ t, exec .brk s = .next t ∧ TakesTrap s t ⟨.brk, 0, 0, 0, 0xFF⟩ ∧ t.me.tcause = 0x4000)) ∧
  (∀ (s : State) (code : BitVec 12), s.me.inh = true → s.me.launch = none → s.away (s.partOf s.cur) s.here = false →
    ∀ p ∈ ([(.trap code, BitVec.ofNat 64 (0x8000 + code.toNat)), (.brk, 0x4000)] : List (Instr × Word)),
      ∃ t, exec p.1 s = .next t ∧ (∀ u, u ≠ s.cur → t.thread u = s.thread u) ∧
        t.me = { s.me with tcause := 0x17, tval2 := p.2,
                           tstat := tstatWord 0x80 (laneOf s.me.tstat) (s.me.tstat.getLsbD 9) s.me.supervisor true s.me.lh
                           second := none, fetched := none, permits := [], woke := none, status := .parked .contained
                           flow := .trapped }) ∧
  (∀ s : State,
    (s.me.supervisor = true → s.me.tepc.toNat % 4 = 0 →
      ∃ t, exec .eret s = .next t ∧ OnlyThread s t s.cur ∧ t.me.flow = .returned s.me.tepc ∧
        t.me.supervisor = s.me.tstat.getLsbD 9 ∧ t.me.inh = false ∧ t.me.lh = false ∧ t.me.regs = s.me.regs ∧
        t.me.fcsr = s.me.fcsr ∧ t.me.tcause = s.me.tcause ∧ t.me.tval = s.me.tval ∧ t.me.tepc = s.me.tepc ∧
        t.me.lpcount = s.me.lpcount ∧ t.me.lpstart = s.me.lpstart ∧ t.me.lpend = s.me.lpend ∧
        t.me.lpouter = s.me.lpouter ∧ t.me.status = s.me.status) ∧
    (s.me.supervisor = true → s.me.tepc.toNat % 4 ≠ 0 →
      ∃ t, exec .eret s = .next t ∧ TakesTrap s t ⟨.misalign, s.me.tepc, 0, 0, 0xFF⟩) ∧
    (s.me.supervisor = false → s.me.inh = false →
      ∃ t, exec .eret s = .next t ∧ TakesTrap s t ⟨.access, s.me.pc, 0, 0, 0xFF⟩))

/-- R53, R142, R143, R145, R146: NOP does nothing. HALT blocks its thread. TYIELD holds the thread back behind the READY
threads of its core, and does nothing when there is none. TSLEEP uses up a wake flag, or blocks until a wake or for x[ra]
cycles when x[ra] is not 0. SIGCHK does nothing at supervisor privilege; at app privilege a matching signature restarts the
checker. R144: TWAKE of the thread itself sets its wake flag; of another thread it sends a wake packet to the rank. A rank
that the table does not hold raises ACCESS. -/
def Obligations.ThreadControl : Prop :=
  (∀ (s : State) (ra : Reg) (sig : BitVec 18),
    (∃ t, exec .nop s = .next t ∧ Nothing s t) ∧
    (∃ t, exec .halt s = .next t ∧ Waits s t .halt) ∧
    (∃ t, exec .tyield s = .next t ∧ OnlyCore s t s.here ∧
      (∀ u, u / 4 = s.cur / 4 → u ≠ s.cur → (s.thread u).status = .ready →
        ∃ y ∈ (t.coreAt s.here).yields, y.1 = s.cur ∧ u ∈ y.2) ∧
      ((∀ u, u / 4 = s.cur / 4 → u ≠ s.cur → (s.thread u).status ≠ .ready) → t = s)) ∧
    (s.me.wake = true → ∃ t, exec (.tsleep ra) s = .next t ∧ OnlyThread s t s.cur ∧ t.me = { s.me with wake := false }) ∧
    (s.me.wake = false → s.me.woke = none → s.x ra = 0 →
      ∃ t, exec (.tsleep ra) s = .next t ∧ Waits s t (.sleep none)) ∧
    (s.me.wake = false → s.me.woke = none → s.x ra ≠ 0 →
      ∃ t, exec (.tsleep ra) s = .next t ∧ Waits s t (.sleep (some ((s.coreAt s.here).cycle + (s.x ra).toNat)))) ∧
    (s.me.supervisor = true → ∃ t, exec (.sigchk sig) s = .next t ∧ Nothing s t) ∧
    (s.me.supervisor = false → s.me.chkC ++ s.me.chkD = sig → ∃ t, exec (.sigchk sig) s = .next t ∧
      OnlyThread s t s.cur ∧ t.me = { s.me with chkC := 0, chkD := 0 })) ∧
  (∀ (s : State) (ra : Reg) (v : Word) (r h : Nat), s.x ra = v → r = v.toNat % 1024 → h = v.toNat / 1024 % 4 →
    (∀ c, Sparse.get (s.part (s.partOf s.cur)).ranks r .invalid = .valid c →
      (c = s.here ∧ h = s.cur % 4 → ∃ t, exec (.twake ra) s = .next t ∧ OnlyThread s t s.cur ∧
        t.me = { s.me with wake := true }) ∧
      (¬ (c = s.here ∧ h = s.cur % 4) → ∃ t k, exec (.twake ra) s = .next t ∧
        t = { s with packets := s.packets ++ [k], nextId := s.nextId + 1 } ∧ SameBytes s t ∧
        k.cargo = .wake h ∧ k.rank = r ∧ k.source = s.cur ∧ k.tag = s.partOf s.cur ∧ k.release = false)) ∧
    (Sparse.get (s.part (s.partOf s.cur)).ranks r .invalid = .invalid → s.me.inh = false →
      ∃ t, exec (.twake ra) s = .next t ∧ TakesTrap s t ⟨.access, v, 0, 0, 0xFF⟩))

/-- R157, R158: each fence, at its scope or the partition's ceiling if that is lower, goes on when every earlier access of the
thread is performed there, and else blocks the thread. A lower ceiling sets CLIP in both cases, or raises SCOPE when CLIPTRAP
is set. No register and no byte changes; at SYS the Basin's copy of every line that the thread wrote early is then the newest.
-/
def Obligations.Fences : Prop :=
  ∀ (s : State) (asked ceiling : Scope), ceiling = (s.part (s.partOf s.cur)).ceiling →
    ∀ i, (asked, i) ∈ ([(.core, .fenceCore), (.die, .fenceDie), (.pkg, .fencePkg), (.sys, .fenceSys)] : List (Scope × Instr)) →
    (scopeCode asked ≤ scopeCode ceiling → s.performed s.cur asked = true → ∃ t, exec i s = .next t ∧ SameBytes s t ∧
      (∀ u, u ≠ s.cur → t.thread u = s.thread u) ∧
      t.me = { s.me with dirty := if asked = .sys then [] else s.me.dirty } ∧
      (asked ≠ .sys → t = s) ∧
      (asked = .sys → ∀ l ∈ s.me.dirty, ∀ k < 64, t.basinByte (l * 64 + k) = Memory.read t.mem (l * 64 + k))) ∧
    (scopeCode asked ≤ scopeCode ceiling → s.performed s.cur asked = false →
      ∃ t, exec i s = .next t ∧ Waits s t (.performed asked false)) ∧
    (scopeCode ceiling < scopeCode asked → s.me.clipTrap = false → s.performed s.cur ceiling = true →
      ∃ t, exec i s = .next t ∧ OnlyThread s t s.cur ∧ t.me = { s.me with clip := true }) ∧
    (scopeCode ceiling < scopeCode asked → s.me.clipTrap = false → s.performed s.cur ceiling = false →
      ∃ t, exec i s = .next t ∧ OnlyThread s t s.cur ∧
        t.me = { s.me with clip := true, status := .blocked (.performed ceiling false) s.now, flow := .waits }) ∧
    (scopeCode ceiling < scopeCode asked → s.me.clipTrap = true → s.me.inh = false →
      ∃ t, exec i s = .next t ∧ TakesTrap s t ⟨.scope, 0, BitVec.ofNat 64 (scopeCode asked), 0, 0xFF⟩)

/-! Loads and stores. -/

/-- R151, R155: LOAD and LDA of n bytes at x[ra] + sext(imm) * n that reach memory, with no earlier access of the thread to
these bytes under way, give x[rd] the little-endian value of the bytes, extended to 64 bits, and change nothing else. LDA
zero-extends; its scope lies at most at the partition's ceiling here. R151, R196: a LOAD whose bytes the newest overlapping
store of the thread's own buffer writes whole takes them from that store; one that a store writes in part, or a PUTR or a
vector access of the thread touches, waits for it. -/
def Obligations.Loads : Prop :=
  (∀ (s : State) (rd ra : Reg) (imm : BitVec 9) (imm7 : BitVec 7) (sz : Size) (nt z : Bool) (scope : Scope),
    ∀ p ∈ ([(.load rd ra imm sz nt z, BitVec.ofInt 64 ((s.x ra).toInt + imm.toInt * sz.bytes), z),
      (.lda rd ra imm7 sz scope, BitVec.ofInt 64 ((s.x ra).toInt + imm7.toInt * sz.bytes), true)] :
        List (Instr × Word × Bool)),
      ∀ (a : Nat) (sp : Space), s.reach .load p.2.1 sz.bytes = .found a sp s → s.pageAt a = none →
        s.forwarded a sz.bytes = .none → s.lineHeld a sz.bytes = none → s.poisoned a sz.bytes = false →
        Unwatched s (s.asWatched .load) p.2.1 sz.bytes → scopeCode scope ≤ scopeCode (s.part (s.partOf s.cur)).ceiling →
        ∃ t, exec p.1 s = .next t ∧ WritesReg s t rd
          (if p.2.2 then BitVec.ofNat 64 (bytesAt s a sz.bytes)
           else (BitVec.ofNat (8 * sz.bytes) (bytesAt s a sz.bytes)).signExtend 64)) ∧
  (∀ (s : State) (rd ra : Reg) (imm : BitVec 9) (sz : Size) (nt z : Bool) (va : Word) (a : Nat) (sp : Space),
    va = BitVec.ofInt 64 ((s.x ra).toInt + imm.toInt * sz.bytes) → s.reach .load va sz.bytes = .found a sp s →
    (∀ x k, s.vectorOverlap s.cur a sz.bytes = false → s.me.puts.any (fun w => w.hits a sz.bytes) = false →
      s.me.buffer.reverse.find? (fun x => x.hits a sz.bytes) = some x → x.place = .mem k → k ≤ a →
      a + sz.bytes ≤ k + x.size → Unwatched s (s.asWatched .load) va sz.bytes →
      ∃ t, exec (.load rd ra imm sz nt z) s = .next t ∧ WritesReg s t rd
        (if z then BitVec.ofNat 64 (x.data.toNat / 256^(a - k) % 256^sz.bytes)
         else (BitVec.ofNat (8 * sz.bytes) (x.data.toNat / 256^(a - k))).signExtend 64)) ∧
    (s.forwarded a sz.bytes = .waits →
      ∃ t, exec (.load rd ra imm sz nt z) s = .next t ∧ Waits s t (.overlap a sz.bytes)))

/-- R152, R156: STORE and STL of n bytes at x[ra] + sext(imm) * n append one store of the low n bytes of x[rs], at the key that
the address reaches, to the thread's store buffer while it holds fewer than 16, after every older one; no byte changes but, for
a home address, the leaf's T bit (R334) that `found` holds. A full buffer, or an earlier vector access of the thread to the
bytes (R215), makes the word wait. R156, R158: STL waits first for the thread's earlier accesses at its scope, or at the
ceiling if that is lower, which sets CLIP, or raises SCOPE when CLIPTRAP is set; at SYS the lines that the thread wrote early
are written back before it. R152, R252: a STORE to the command slot below offset 0x38 is buffered for the thread's staging
buffer and no byte of memory is concerned; one that is not a double at 0x38 or above raises MXQ. -/
def Obligations.Stores : Prop :=
  (∀ (s : State) (rs ra : Reg) (imm : BitVec 9) (sz : Size) (nt g : Bool) (va : Word) (a : Nat) (sp : Space) (found : State),
    va = BitVec.ofInt 64 ((s.x ra).toInt + imm.toInt * sz.bytes) → s.reach .store va sz.bytes = .found a sp found →
    (∀ off, sp ≠ .slot off) →
    (s.vectorOverlap s.cur a sz.bytes = false → s.me.buffer.length < 16 → s.ownWatch (s.asWatched .store) va sz.bytes = none →
      found.watchers = [] → ∃ t x, exec (.store rs ra imm sz nt g) s = .next t ∧ Buffers found t x ∧
        x.place = .mem a ∧ x.va = va ∧ x.size = sz.bytes ∧ x.g = g ∧
        x.data = BitVec.ofNat 64 ((s.x rs).toNat % 256^sz.bytes)) ∧
    (s.vectorOverlap s.cur a sz.bytes = true →
      ∃ t, exec (.store rs ra imm sz nt g) s = .next t ∧ Waits s t (.overlap a sz.bytes)) ∧
    (s.vectorOverlap s.cur a sz.bytes = false → 16 ≤ s.me.buffer.length →
      ∃ t, exec (.store rs ra imm sz nt g) s = .next t ∧ Waits s t .bufferRoom)) ∧
  (∀ (s u : State) (rs ra : Reg) (imm7 : BitVec 7) (sz : Size) (g : Bool) (asked scope ceiling : Scope) (va : Word) (a : Nat)
    (sp : Space) (before : State), va = BitVec.ofInt 64 ((s.x ra).toInt + imm7.toInt * sz.bytes) →
    ceiling = (s.part (s.partOf s.cur)).ceiling → s.reach .stl va sz.bytes = .found a sp before →
    ((scopeCode asked ≤ scopeCode ceiling ∧ scope = asked ∧ u = s) ∨
      (scopeCode ceiling < scopeCode asked ∧ s.me.clipTrap = false ∧ scope = ceiling ∧
        u = s.modMe (fun t => { t with clip := true }))) →
    (u.released u.cur scope true = false →
      ∃ t, exec (.stl rs ra g imm7 sz asked) s = .next t ∧ Waits u t (.performed scope true)) ∧
    (∀ v found, u.released u.cur scope true = true → v = (if scope = .sys then u.writeBack u.cur else u) →
      v.reach .stl va sz.bytes = .found a sp found →
      (v.vectorOverlap v.cur a sz.bytes = false → v.me.buffer.length < 16 → v.ownWatch (v.asWatched .store) va sz.bytes = none →
        found.watchers = [] → ∃ t x, exec (.stl rs ra g imm7 sz asked) s = .next t ∧ Buffers found t x ∧
          x.place = .mem a ∧ x.va = va ∧ x.size = sz.bytes ∧ x.g = g ∧
          x.data = BitVec.ofNat 64 ((s.x rs).toNat % 256^sz.bytes)) ∧
      (v.vectorOverlap v.cur a sz.bytes = false → 16 ≤ v.me.buffer.length →
        ∃ t, exec (.stl rs ra g imm7 sz asked) s = .next t ∧ Waits v t .bufferRoom))) ∧
  (∀ (s : State) (rs ra : Reg) (imm7 : BitVec 7) (sz : Size) (g : Bool) (asked : Scope) (va : Word) (a : Nat) (sp : Space)
    (before : State), va = BitVec.ofInt 64 ((s.x ra).toInt + imm7.toInt * sz.bytes) →
    s.reach .stl va sz.bytes = .found a sp before → scopeCode (s.part (s.partOf s.cur)).ceiling < scopeCode asked →
    s.me.clipTrap = true → s.me.inh = false →
    ∃ t, exec (.stl rs ra g imm7 sz asked) s = .next t ∧
      TakesTrap s t ⟨.scope, 0, BitVec.ofNat 64 (scopeCode asked), 0, 0xFF⟩) ∧
  (∀ (s : State) (rs ra : Reg) (imm : BitVec 9) (sz : Size) (nt g : Bool) (va : Word) (off : Nat),
    va = BitVec.ofInt 64 ((s.x ra).toInt + imm.toInt * sz.bytes) → classify va = .slot off → va.toNat % sz.bytes = 0 →
    (off + sz.bytes ≤ 0x38 → s.me.buffer.length < 16 → Unwatched s (s.asWatched .store) va sz.bytes →
      ∃ t x, exec (.store rs ra imm sz nt g) s = .next t ∧ Buffers s t x ∧
        x.place = .staging off ∧ x.size = sz.bytes ∧ x.data = BitVec.ofNat 64 ((s.x rs).toNat % 256^sz.bytes)) ∧
    (0x38 < off + sz.bytes → sz ≠ .d → s.me.inh = false →
      ∃ t, exec (.store rs ra imm sz nt g) s = .next t ∧ TakesTrap s t ⟨.mxq, va, 0x38, 0, 0xFF⟩))

/-- R137, R149: a LOAD or STORE checks ACCESS (an address that is refused), then MISALIGN (its address is no multiple of its
size), then FARORD (rank space, or a home address of another die), and takes the first that holds, with TVAL the address. -/
def Obligations.AddressTraps : Prop :=
  ∀ (s : State) (r ra : Reg) (imm : BitVec 9) (sz : Size) (nt z g : Bool) (va : Word), s.me.inh = false →
    va = BitVec.ofInt 64 ((s.x ra).toInt + imm.toInt * sz.bytes) → (∀ off, classify va ≠ .slot off) →
    ∀ i ∈ ([.load r ra imm sz nt z, .store r ra imm sz nt g] : List Instr),
      (classify va = .refused → ∃ t, exec i s = .next t ∧ TakesTrap s t ⟨.access, va, 0, 0, 0xFF⟩) ∧
      (classify va ≠ .refused → va.toNat % sz.bytes ≠ 0 →
        ∃ t, exec i s = .next t ∧ TakesTrap s t ⟨.misalign, va, 0, 0, 0xFF⟩) ∧
      (classify va ≠ .refused → va.toNat % sz.bytes = 0 → (classify va).loads (dieOf s.here) = false →
        ∃ t, exec i s = .next t ∧ TakesTrap s t ⟨.farord, va, 0, 0, 0xFF⟩)

/-- R333: through one leaf, whatever its permissions, a fetch needs X, a read R, a write W, an atomic R and W, and app code U
as well; supervisor code ignores U. An access that lacks what it needs takes PAGE1 with the address and its kind in SUB; one
that passes goes through the leaf to one place, the same for all, or meets a later cause of R337. -/
def Obligations.LeafPermissions : Prop :=
  ∀ (s : State) (p window : Nat) (va : Word) (leaf e : Nat) (big : Bool), s.leafOf p va .load = .ok (leaf, e, big) →
    ∃ h, ∀ (k : Access) (sup ok : Bool),
      ok = ((match k with
        | .fetch => e.testBit 4
        | .load | .getr => e.testBit 2
        | .store | .putr => e.testBit 3
        | .atomic => e.testBit 2 && e.testBit 3) && (sup || e.testBit 5)) →
      (ok = false → s.walk p va k sup window = .error ⟨.page1, va, 0, k.sub, 0xFF⟩) ∧
      (ok = true → (∃ c, s.walk p va k sup window = .error c ∧ c.cause ≠ .page1) ∨
        s.walk p va k sup window = .ok ⟨h, leaf, big, BitVec.ofNat 64 e⟩)

/-- R153, R203, R252: STORE_PERFORMED of a thread's oldest store writes its bytes in the scratchpad, or in the own die's window
with a dirty notice for the line (one for each write: DEDUCED, log entry 9) while the Basin keeps its copy; a store to the
command slot writes its bytes of the staging buffer, and a global one leaves for the Basin. Every byte outside the stored ones
is as before. R309, R340: one to a dispatcher page opens or closes a region, or is ignored, and changes no byte. R196, R210: a
store that has left, that an earlier PUTR holds back, or that finds the hazard table full stays. R333, R334: an access of a
write kind through a leaf that the walk allows sets the leaf's T bit and no other bit of memory. A held page of a spore, which
the write copies first (R374), is another statement's. -/
def Obligations.StorePerformed : Prop :=
  (∀ (s : State) (u : Nat), (s.thread u).buffer = [] → ∃ t, exec (.storePerformed u) s = .next t ∧ Nothing s t) ∧
  (∀ (s : State) (u : Nat) (x : Store) (r : List Store), (s.thread u).buffer = x :: r →
    (∀ off, x.place = .staging off → off + x.size ≤ 64 → off % 8 + x.size ≤ 8 →
      ∃ t, exec (.storePerformed u) s = .next t ∧ OnlyThread s t u ∧
        t.thread u = { s.thread u with buffer := r, staging := (t.thread u).staging } ∧
        ∀ k < 64, (t.thread u).stagingByte k
          = if off ≤ k ∧ k < off + x.size then x.data.toNat / 256^(k - off) % 256 else (s.thread u).stagingByte k) ∧
    (∀ a, x.place = .mem a → x.sent = false → s.putAhead u x.id a x.size = false →
      (isSpad a = true → ∃ t, exec (.storePerformed u) s = .next t ∧ SameBytesBut s t a x.size ∧
        Memory.readBytes t.mem a x.size = leBytes x.data.toNat x.size ∧ t.thread u = { s.thread u with buffer := r } ∧
        (∀ v, v ≠ u → t.thread v = s.thread v) ∧ t.cores = s.cores) ∧
      (isSpad a = false → s.pageAt a = none → x.g = false → s.Unheld (s.partOf u) →
        ∃ t n, exec (.storePerformed u) s = .next t ∧ SameBytesBut s t a x.size ∧
          Memory.readBytes t.mem a x.size = leBytes x.data.toNat x.size ∧ (t.thread u).buffer = r ∧
          (t.thread u).regs = (s.thread u).regs ∧ (∀ v, v ≠ u → t.thread v = s.thread v) ∧
          t.notices = s.notices ++ [n] ∧ n.line = a / 64 ∧ n.thread = u ∧ n.arrived = false ∧
          (∀ k, t.basinByte k = s.basinByte k) ∧ t.cores = s.cores) ∧
      (isSpad a = false → s.pageAt a = none → x.g = true →
        ((s.hazardTable (coreOf u)).length < 64 → ∃ t, exec (.storePerformed u) s = .next t ∧ OnlyThread s t u ∧
          t.thread u = { s.thread u with buffer := { x with sent := true, sentAt := s.now } :: r }) ∧
        (64 ≤ (s.hazardTable (coreOf u)).length → ∃ t, exec (.storePerformed u) s = .next t ∧ Nothing s t)) ∧
      (∀ h, isSpad a = false → s.pageAt a = some h → h.faults = false →
        ∃ t, exec (.storePerformed u) s = .next t ∧ SameBytes s t ∧ t.thread u = { s.thread u with buffer := r } ∧
          (∀ v, v ≠ u → t.thread v = s.thread v) ∧ t.cores = s.cores ∧
          (0x100 ≤ h.off → h.off < 0x500 → h.off % 8 = 0 →
            ((Sparse.find? (t.part h.part).regions (h.die * 128 + (h.off - 0x100) / 8)).isSome = true ↔
              x.data.toNat % 2 = 1)) ∧
          (h.off < 0x100 ∨ 0x500 ≤ h.off → t.parts = s.parts)) ∧
      (∀ h, isSpad a = false → s.pageAt a = some h → h.faults = true →
        (h.off ≠ 8 → ∃ t, exec (.storePerformed u) s = .next t ∧ OnlyThread s t u ∧
          t.thread u = { s.thread u with buffer := r }) ∧
        (h.off = 8 → ∃ t, exec (.storePerformed u) s = .next t ∧
          t = (s.resumeSlot h.part h.die x.data.toNat).popStore u))) ∧
    (∀ a, x.place = .mem a → x.sent = true ∨ s.putAhead u x.id a x.size = true →
      ∃ t, exec (.storePerformed u) s = .next t ∧ Nothing s t)) ∧
  (∀ (s : State) (w : Walked), bytesAt s w.leaf 8 = w.entry.toNat →
    bytesAt (s.touch w) w.leaf 8 = w.entry.toNat ||| 2^9 ∧ SameBytesBut s (s.touch w) w.leaf 8 ∧
      (s.touch w).threads = s.threads ∧ (s.touch w).cores = s.cores)

/-- R153, R164, R201, R213: the acknowledgement of a global write that the Basin has not committed makes it the newest value at
the Basin and at its coherence point and ends the store, the put or the engine's write; that of one that has committed ends it
and the hold of its lines, and changes no byte. A global store that arrives commits and has the reads of its lines held.
HOST_FABRIC_ACKNOWLEDGEMENT performs and ends a write to host or fabric memory. Bytes outside the written ones are as before. A
put or an engine's write waits for what its die entered in the forward table before it (DEDUCED, log entry 72). R153, R203,
R207, R212: a dirty notice that arrives is noted for its line; its acknowledgement ends it and the early put or engine write it
belongs to; 256 µs without an acknowledgement end a notice and make ACKLOST pending in its thread; BASIN_HOLD_RELEASE ends the
hold of a lost write once 256 µs have passed since the Basin's acknowledgement, and does nothing while the acknowledgement or
response is still awaited. No byte of memory changes. -/
def Obligations.WriteAcknowledgements : Prop :=
  (∀ (s : State) (w u : Nat),
    (∀ (x : Store) (a : Nat), s.storeOf w = some (u, x) → x.place = .mem a →
      (x.committed = false → s.Unheld (s.partOf u) →
        (∃ t, exec (.globalAck w) s = .next t ∧ SameBytesBut s t a x.size ∧
          Memory.readBytes t.mem a x.size = leBytes x.data.toNat x.size ∧
          (∀ k, a ≤ k → k < a + x.size → t.basinByte k = Memory.read t.mem k) ∧
          (t.thread u).buffer = (s.thread u).buffer.tail ∧ t.cores = s.cores) ∧
        (Sparse.find? s.requests w = none →
          ∃ t, exec (.remoteAccessRequest w) s = .next t ∧ SameBytesBut s t a x.size ∧
            Memory.readBytes t.mem a x.size = leBytes x.data.toNat x.size ∧
            (∀ l ∈ linesOf a x.size, ⟨l, w, s.now⟩ ∈ t.heldLines) ∧
            (t.thread u).buffer = (s.thread u).buffer.map (fun b => if b.id = w then { b with committed := true } else b))) ∧
      (x.committed = true → ∃ t, exec (.globalAck w) s = .next t ∧ SameBytes s t ∧
        t.heldLines = s.heldLines.filter (fun h => h.owner != w) ∧
        (t.thread u).buffer = (s.thread u).buffer.tail ∧ t.cores = s.cores)) ∧
    (∀ x : Put, s.storeOf w = none → s.putOf w = some (u, x) → x.stage = .sent →
      (x.path = .global → s.forwardAhead (dieOf (coreOf u)) w x.a x.size = false → s.Unheld (s.partOf u) →
        ∃ t, exec (.globalAck w) s = .next t ∧ SameBytesBut s t x.a x.size ∧
          Memory.readBytes t.mem x.a x.size = leBytes x.data.toNat x.size ∧
          (t.thread u).puts = (s.thread u).puts.filter (fun y => y.id != w) ∧ t.cores = s.cores) ∧
      (x.path = .outside → ∃ t, exec (.hostFabricAcknowledgement w) s = .next t ∧ SameBytesBut s t x.a x.size ∧
        Memory.readBytes t.mem x.a x.size = leBytes x.data.toNat x.size ∧
        (t.thread u).puts = (s.thread u).puts.filter (fun y => y.id != w) ∧ t.cores = s.cores)) ∧
    (∀ (q : Copy) (x : Put), s.storeOf w = none → s.putOf w = none → s.unitOf w = some (q, x) → x.stage = .sent →
      ∀ i ∈ ([(.globalAck w, .global), (.hostFabricAcknowledgement w, .outside)] : List (Instr × PutPath)), x.path = i.2 →
        (i.2 = .global → s.forwardAhead q.die w x.a x.size = false ∧ s.Unheld q.part) →
        ∃ t, exec i.1 s = .next t ∧ SameBytesBut s t x.a x.size ∧
          Memory.readBytes t.mem x.a x.size = leBytes x.data.toNat x.size ∧ t.threads = s.threads ∧ t.cores = s.cores ∧
          t.copies = s.copies.map (fun c => if c.id = q.id then c.dropWrite w else c))) ∧
  (∀ (s : State) (w : Nat),
    (∀ n, s.notices.find? (fun m => m.id == w) = some n →
      (∃ t, exec (.dirtyNoticeArrival w) s = .next t ∧ n.line ∈ t.noticed ∧ SameBytes s t ∧ t.threads = s.threads) ∧
      (n.arrived = true → s.unitOf n.origin = none → ∃ t, exec (.dirtyNoticeAck w) s = .next t ∧ SameBytes s t ∧
        t.notices = s.notices.filter (fun m => m.id != w) ∧
        (t.thread n.thread).puts = (s.thread n.thread).puts.filter (fun y => y.id != n.origin)) ∧
      (n.arrived = true → ∀ q x, s.unitOf n.origin = some (q, x) →
        ∃ t, exec (.dirtyNoticeAck w) s = .next t ∧ SameBytes s t ∧ t.threads = s.threads ∧
          t.notices = s.notices.filter (fun m => m.id != w) ∧
          t.copies = s.copies.map (fun c => if c.id = q.id then c.dropWrite n.origin else c)) ∧
      (s.storeOf w = none → s.unitOf n.origin = none → n.sentAt + 256000 ≤ s.now → ∀ c : Bool,
        (s.copies.find? (fun q => q.id == w && q.toRank)) = none →
        ∃ t, exec (.ackTimeout w c) s = .next t ∧ SameBytes s t ∧ t.notices = s.notices.filter (fun m => m.id != w) ∧
          ⟨.acklost, n.va, 0, .none⟩ ∈ (t.thread n.thread).pending)) ∧
    (s.awaited w = false → ∃ t, exec (.basinHoldRelease w) s = .next t ∧ SameBytes s t ∧
      t = { s with heldLines := s.heldLines.filter (fun h => h.owner != w || decide (s.now < h.since + 256000)) }) ∧
    (s.awaited w = true → ∃ t, exec (.basinHoldRelease w) s = .next t ∧ Nothing s t))

/-! Atomics, GETR and PUTR. -/

/-- R159, R160: an atomic of a word or a double in the core's own scratchpad, once the thread's earlier stores and its own
accesses to the bytes are done, stores the operation's new value in its bytes, gives x[rd] the old value sign-extended, and
changes nothing else. The float forms add with one rounding to nearest even and zero-extend. -/
def Obligations.AtomicsInScratchpad : Prop :=
  ∀ (s : State) (rd ra rb : Reg) (g : Bool) (a off n : Nat), s.me.reply = none →
    s.reach .amo (s.x ra) n = .found a (.spad off) s → s.me.buffer = [] → s.overlapBusy s.cur a n = false →
    s.poisoned a n = false → Unwatched s (s.asWatched .amo) (s.x ra) n →
    (∀ (ty : IntSize), n = ty.bytes →
      ∀ p ∈ atomicTable rd ra rb ty g (bytesAt s a n) ((s.x rb).toNat % 2^(8 * n)) ((s.x rd).toNat % 2^(8 * n)),
        ∃ t, exec p.1 s = .next t ∧ bytesAt t a n = p.2.2 ∧ SameBytesBut s t a n ∧
          RegsSet s.me.regs t.me.regs rd ((BitVec.ofNat (8 * n) (bytesAt s a n)).signExtend 64) ∧
          t.me = { s.me with regs := t.me.regs } ∧ (∀ u, u ≠ s.cur → t.thread u = s.thread u) ∧ t.cores = s.cores) ∧
    (∀ p ∈ ([(.s, Fmt.f32, 4), (.h, Fmt.bf16, 2)] : List (AmoTy × Fmt × Nat)), n = p.2.2 →
      ∃ t, exec (.amoAdd rd ra rb p.1 g) s = .next t ∧
        bytesAt t a n = (p.2.1.add .rne (bytesAt s a n) ((s.x rb).toNat % 2^(8 * n))).1 % 2^(8 * n) ∧
        SameBytesBut s t a n ∧ RegsSet s.me.regs t.me.regs rd (BitVec.ofNat 64 (bytesAt s a n)) ∧
        t.me = { s.me with regs := t.me.regs } ∧ (∀ u, u ≠ s.cur → t.thread u = s.thread u) ∧ t.cores = s.cores)

/-- R160, R162, R163: an atomic or a GETR whose address reaches a home window or rank space leaves as a request with the
thread's next number, and the thread waits for the response; no byte changes and x[rd] keeps its value. R159, R162, R163: when
the response is there, the atomic or the GETR executes again, takes it and gives x[rd] the old value of the response,
sign-extended, or zero-extended for a float form; nothing else changes. A float form to an agent that does only integer atomics
raises TYP. -/
def Obligations.RequestsLeave : Prop :=
  (∀ (s : State) (rd ra rb : Reg) (ty : IntSize) (g : Bool) (a : Nat) (sp : Space) (found : State),
    s.me.reply = none → (∀ off, sp ≠ .spad off ∧ sp ≠ .slot off) → s.overlapBusy s.cur a ty.bytes = false →
    found.watchers = [] →
    (∀ p ∈ atomicTable rd ra rb ty g 0 0 0, s.reach .amo (s.x ra) ty.bytes = .found a sp found → s.me.buffer = [] →
      (isHbm a = true → s.lineBlocked s.cur (a / 64) (stackOf a != dieOf s.here || g) = false) →
      s.ownWatch (s.asWatched .amo) (s.x ra) ty.bytes = none →
      ∃ t r, exec p.1 s = .next t ∧ SameBytes found t ∧ Sparse.find? t.requests found.nextId = some r ∧
        r.thread = s.cur ∧ r.va = s.x ra ∧ r.a = a ∧ r.size = ty.bytes ∧ r.op = some p.2.1 ∧ r.float = false ∧
        r.b = BitVec.ofNat 64 ((s.x rb).toNat % 256^ty.bytes) ∧ r.cmp = BitVec.ofNat 64 ((s.x rd).toNat % 256^ty.bytes) ∧
        r.g = g ∧ r.num = found.me.reqno ∧ r.stage = .sent ∧
        (∀ u, u ≠ s.cur → t.thread u = found.thread u) ∧
        t.me = { found.me with reqno := found.me.reqno + 1, again := found.me.again - 1,
                               status := .blocked (.reply found.nextId) found.now, flow := .waits }) ∧
    (s.putOverlap s.cur a ty.bytes = false → s.reach .getr (s.x ra) ty.bytes = .found a sp found →
      s.ownWatch (s.asWatched .getr) (s.x ra) ty.bytes = none →
      ∃ t r, exec (.getr rd ra ty) s = .next t ∧ SameBytes found t ∧ Sparse.find? t.requests found.nextId = some r ∧
        r.thread = s.cur ∧ r.va = s.x ra ∧ r.a = a ∧ r.size = ty.bytes ∧ r.op = none ∧ r.num = found.me.reqno ∧
        r.stage = .sent ∧ (∀ u, u ≠ s.cur → t.thread u = found.thread u) ∧
        t.me = { found.me with reqno := found.me.reqno + 1, again := found.me.again - 1,
                               status := .blocked (.reply found.nextId) found.now, flow := .waits })) ∧
  (∀ (s : State) (rd ra rb : Reg) (ty : IntSize) (g : Bool) (v : Word), s.me.reply = some (.value v) →
    ∀ i ∈ (.getr rd ra ty) :: (atomicTable rd ra rb ty g 0 0 0).map (·.1),
      ∃ t, exec i s = .next t ∧ OnlyThread s t s.cur ∧ t.me = { s.me with reply := none, regs := t.me.regs } ∧
        RegsSet s.me.regs t.me.regs rd ((BitVec.ofNat (8 * ty.bytes) v.toNat).signExtend 64)) ∧
  (∀ (s : State) (rd ra rb : Reg) (g : Bool), ∀ p ∈ ([(.s, 4), (.h, 2)] : List (AmoTy × Nat)),
    (∀ v : Word, s.me.reply = some (.value v) → ∃ t, exec (.amoAdd rd ra rb p.1 g) s = .next t ∧ OnlyThread s t s.cur ∧
      t.me = { s.me with reply := none, regs := t.me.regs } ∧
      RegsSet s.me.regs t.me.regs rd (BitVec.ofNat 64 (v.toNat % 2^(8 * p.2)))) ∧
    (∀ (a : Nat) (sp : Space) (found : State), s.me.reply = none → s.reach .amo (s.x ra) p.2 = .found a sp found →
      (sp.integerOnly = true → s.me.inh = false →
        ∃ t, exec (.amoAdd rd ra rb p.1 g) s = .next t ∧ TakesTrap s t ⟨.typ, s.x ra, 0, 0, 0xFF⟩) ∧
      (sp.integerOnly = false → (∀ off, sp ≠ .spad off ∧ sp ≠ .slot off) → s.me.buffer = [] →
        s.overlapBusy s.cur a p.2 = false → found.watchers = [] →
        (isHbm a = true → s.lineBlocked s.cur (a / 64) (stackOf a != dieOf s.here || g) = false) →
        s.ownWatch (s.asWatched .amo) (s.x ra) p.2 = none →
        ∃ t r, exec (.amoAdd rd ra rb p.1 g) s = .next t ∧ SameBytes found t ∧ Sparse.find? t.requests found.nextId = some r ∧
          r.thread = s.cur ∧ r.va = s.x ra ∧ r.a = a ∧ r.size = p.2 ∧ r.op = some .add ∧ r.float = true ∧
          r.b = BitVec.ofNat 64 ((s.x rb).toNat % 256^p.2) ∧ r.g = g ∧ r.num = found.me.reqno ∧ r.stage = .sent ∧
          (∀ u, u ≠ s.cur → t.thread u = found.thread u) ∧
          t.me = { found.me with reqno := found.me.reqno + 1, again := found.me.again - 1,
                                 status := .blocked (.reply found.nextId) found.now, flow := .waits })))

/-- R160 to R163: REMOTE_ACCESS_REQUEST performs an atomic at its agent once: a fresh number stores the new value, keeps the
old one in the agent's window and answers it; a number in the window is answered from it and stores nothing; an older one has
expired. None reaches a fabric node without a working lane (R406). A GETR changes no byte. REMOTE_RESPONSE brings the answer to
the thread; 200 µs without it send the request again, at most four times. -/
def Obligations.RequestsAreServed : Prop :=
  ∀ (s : State) (id : Nat) (r : Request), Sparse.find? s.requests id = some r → r.id = id →
    (r.stage = .sent → s.lineHeldFor id r.a r.size = false → s.atomicHeldBack r = false →
      (r.rank.isSome = true → s.ejected (.request id) = true) → s.poisoned r.a r.size = false → s.pageAt r.a = none →
      (∀ n, nodeOf r.a = some n → s.nodeReached n = true) → s.Unheld (s.partOf r.thread) →
      (∀ op, r.op = some op →
        (s.lookup r.agent r.thread r.num (decide (0 < r.resends)) r.ahead r.first = .fresh → ∃ t, exec (.remoteAccessRequest id) s = .next t ∧
          bytesAt t r.a r.size = amoNew op r.float r.size (bytesAt s r.a r.size) r.b.toNat r.cmp.toNat % 256^r.size ∧
          SameBytesBut s t r.a r.size ∧
          Sparse.find? t.requests id = some { r with stage := .executed (BitVec.ofNat 64 (bytesAt s r.a r.size)) } ∧
          ⟨r.agent, r.thread, r.num, BitVec.ofNat 64 (bytesAt s r.a r.size), s.now⟩ ∈ t.windows) ∧
        (∀ v, s.lookup r.agent r.thread r.num (decide (0 < r.resends)) r.ahead r.first = .stored v → ∃ t, exec (.remoteAccessRequest id) s = .next t ∧
          SameBytes s t ∧ Sparse.find? t.requests id = some { r with stage := .executed v }) ∧
        (s.lookup r.agent r.thread r.num (decide (0 < r.resends)) r.ahead r.first = .expired → ∃ t, exec (.remoteAccessRequest id) s = .next t ∧
          SameBytes s t ∧ Sparse.find? t.requests id = some { r with stage := .expired })) ∧
      (r.op = none → ∃ t v, exec (.remoteAccessRequest id) s = .next t ∧ SameBytes s t ∧
        Sparse.find? t.requests id = some { r with stage := .executed v } ∧
        (r.agent ≠ .basin → v = BitVec.ofNat 64 (bytesAt s r.a r.size)))) ∧
    (∀ v, r.stage = .executed v → ∃ t, exec (.remoteResponse id) s = .next t ∧ SameBytes s t ∧
      Sparse.find? t.requests id = none ∧ t.thread r.thread = { s.thread r.thread with reply := some (.value v) } ∧
      ∀ u, u ≠ r.thread → t.thread u = s.thread u) ∧
    (∀ n, nodeOf r.a = some n → s.nodeReached n = false → ∃ t, exec (.remoteAccessRequest id) s = .next t ∧ Nothing s t) ∧
    (r.stage = .sent → r.offDie = true → r.lastSend + 200000 ≤ s.now →
      (r.resends < 4 → ∃ t, exec (.requestResend id) s = .next t ∧ SameBytes s t ∧ t.threads = s.threads ∧
        Sparse.find? t.requests id = some { r with resends := r.resends + 1, lastSend := s.now }) ∧
      (4 ≤ r.resends → ∃ t, exec (.requestResend id) s = .next t ∧ SameBytes s t ∧ Sparse.find? t.requests id = none ∧
        (t.thread r.thread).reply = some (.retryexp r.va (r.num.setWidth 64))))

/-- R163, R164: a GETR of the own scratchpad reads n bytes, sign-extended, and draws a number; a PUTR hands its low n bytes to
the NI, which holds fewer than 32 of the thread, and goes on. No byte of memory changes. -/
def Obligations.GetrPutr : Prop :=
  ∀ (s : State) (rd ra rb : Reg) (ty : IntSize) (g : Bool) (a off : Nat) (sp : Space) (found : State),
    (s.me.reply = none → s.reach .getr (s.x ra) ty.bytes = .found a (.spad off) s → s.overlapBusy s.cur a ty.bytes = false →
      s.putOverlap s.cur a ty.bytes = false →
      s.poisoned a ty.bytes = false → Unwatched s (s.asWatched .getr) (s.x ra) ty.bytes →
      ∃ t, exec (.getr rd ra ty) s = .next t ∧ OnlyThread s t s.cur ∧
        t.me = { s.me with reqno := s.me.reqno + 1, again := s.me.again - 1, regs := t.me.regs } ∧
        RegsSet s.me.regs t.me.regs rd ((BitVec.ofNat (8 * ty.bytes) (bytesAt s a ty.bytes)).signExtend 64)) ∧
    (s.reach .putr (s.x ra) ty.bytes = .found a sp found → s.vectorOverlap s.cur a ty.bytes = false →
      s.me.puts.length < 32 → s.ownWatch (s.asWatched .putr) (s.x ra) ty.bytes = none → found.watchers = [] →
      ∃ t w, exec (.putr ra rb ty g) s = .next t ∧ t = { found with threads := t.threads, nextId := found.nextId + 1 } ∧
        (∀ u, u ≠ s.cur → t.thread u = found.thread u) ∧ t.me = { found.me with puts := found.me.puts ++ [w] } ∧
        SameBytes found t ∧ w.va = s.x ra ∧ w.a = a ∧ w.size = ty.bytes ∧ w.g = g ∧ w.stage = .queued ∧
        w.data = BitVec.ofNat 64 ((s.x rb).toNat % 256^ty.bytes))

/-- R201, R203: a fabric device's write to a die's window, whose lines no pending write and whose pages no spore holds, makes
its bytes the newest at the Basin too; its read returns the newest bytes of a line whose dirty notice the Basin holds, and
changes no byte. R406: OPTICAL_LANE_LOSS of a node's last lanes: the node is reached no more, no command to or from it goes on,
if lanes reached it before, and no byte changes. -/
def Obligations.FabricAccess : Prop :=
  (∀ (s : State) (die off : Nat) (data : List Byte) (n a : Nat), a = die % 8 * 2^36 + off % 2^36 → 0 < n →
    s.lineHeld a n = none →
    (data.length = n → (∀ p, s.Unheld p) → ∃ t, exec (.fabricDeviceAccess true die off n data) s = .next t ∧ SameBytesBut s t a n ∧
      Memory.readBytes t.mem a n = data ∧ (∀ k, a ≤ k → k < a + n → t.basinByte k = Memory.read t.mem k) ∧
      t.threads = s.threads) ∧
    (∃ t bs, exec (.fabricDeviceAccess false die off n data) s = .next t ∧ SameBytes s t ∧ t.threads = s.threads ∧
      t.hostReply = some bs ∧ bs.length = n ∧
      ((∀ k, a ≤ k → k < a + n → k / 64 ∈ s.noticed) → bs = Memory.readBytes s.mem a n))) ∧
  (∀ (s : State) (node : Nat), node < 4096 → ∃ t, exec (.opticalLaneLoss node) s = .next t ∧ SameBytes s t ∧
    t.nodeReached node = false ∧ (s.nodeReached node = true → ∀ q ∈ t.copies, q ∈ s.copies ∧ s.copyMeets q node = false))

/-! Copy commands and completions. -/

/-- R165: GET and PUT whose ranges pass their checks, with room for the completion and the thread's earlier accesses
performed, give x[rd] the thread's next ticket and hand a command for x[rd] bits 31:0 bytes between x[ra] and x[rb] to the
engines; no byte moves yet. R324, R325: COPY_COMMAND_START gives a free engine of the die, of eight, the waiting command that
ranks highest by partition priority and then age among those that find a unit of budget, and takes that unit; COPY_BUDGET_REFILL
adds REFILL units for each 100 µs that have passed since the last time, up to four times REFILL. No byte changes. -/
def Obligations.CopyCommands : Prop :=
  (∀ (s : State) (rd ra rb : Reg) (g : Bool) (n : Nat), n = (s.x rd).toNat % 2^32 →
    (n ≠ 0 → localError (dieOf s.here) (s.x ra) n = none ∧ s.remoteOk (s.x rb) n = true) → s.me.fifoFull = false →
    copyScope n (s.x ra) (s.x rb) = .pkg → s.released s.cur .pkg true = true →
    ∀ p ∈ ([(.get rd ra rb, false, false), (.put rd ra rb g, true, g)] : List (Instr × Bool × Bool)),
      ∃ t c, exec p.1 s = .next t ∧ t = { s with threads := t.threads, copies := s.copies ++ [c], nextId := s.nextId + 1 } ∧
        SameBytes s t ∧ (∀ u, u ≠ s.cur → t.thread u = s.thread u) ∧
        RegsSet s.me.regs t.me.regs rd (s.me.ticket.setWidth 64) ∧
        t.me = { s.me with regs := t.me.regs, ticket := s.me.ticket + 1, reserved := s.me.reserved + 1 } ∧
        c.thread = s.cur ∧ c.part = s.partOf s.cur ∧ c.put = p.2.1 ∧ c.g = p.2.2 ∧ c.n = n ∧ c.loc = s.x ra ∧
        c.rem = s.x rb ∧ c.ticket = s.me.ticket ∧ c.running = false ∧ c.done = 0) ∧
  (∀ (s : State) (d p : Nat),
    (∀ q, (s.copies.filter (fun c => c.die == d && c.running)).length < 8 → q ∈ s.copies → q.die = d → q.running = false →
      s.hasBudget q.part d = true → (∀ c ∈ s.copies, c.id = q.id → c = q) →
      (∀ c ∈ s.copies, c ≠ q → c.die = d → c.running = false → s.hasBudget c.part d = true →
        s.copyAbove q c = true ∧ s.copyAbove c q = false) →
      ∃ t, exec (.copyCommandStart d) s = .next t ∧ SameBytes s t ∧ { q with running := true, begun := true } ∈ t.copies ∧
        t.copies.length = s.copies.length ∧ t.threads = s.threads ∧
        ((s.part q.part).refill ≠ 0 → Sparse.get (t.part q.part).budget d 0 = Sparse.get (s.part q.part).budget d 0 - 1)) ∧
    (8 ≤ (s.copies.filter (fun c => c.die == d && c.running)).length ∨
        (∀ c ∈ s.copies, c.die = d → c.running = false → s.hasBudget c.part d = false) →
      ∃ t, exec (.copyCommandStart d) s = .next t ∧ Nothing s t) ∧
    (s.partExists p = true → Sparse.get (s.part p).refilled d 0 + 100000 ≤ s.now → ∃ t, exec (.copyBudgetRefill p d) s = .next t ∧ SameBytes s t ∧
      t.threads = s.threads ∧ Sparse.get (t.part p).budget d 0
        = Min.min (Sparse.get (s.part p).budget d 0 + (s.now - Sparse.get (s.part p).refilled d 0) / 100000 * (s.part p).refill)
            (4 * (s.part p).refill)) ∧
    (s.now < Sparse.get (s.part p).refilled d 0 + 100000 →
      ∃ t, exec (.copyBudgetRefill p d) s = .next t ∧ Nothing s t))

/-- R166, R169: a PUT of n bytes from the thread's scratchpad to a core of the partition, of which nothing has been read or
written ahead, whose source is not poisoned and does not overlap its destination, moves exactly those bytes; its completion,
with its ticket, status 0 and n bytes done, enters the thread's FIFO and the command ends. R170: CPOP with an entry in the FIFO
writes its 16 bytes at x[ra] and gives x[rd] its ticket; with none it gives all ones and writes nothing. CWAIT blocks while an
entry is reserved and none is held. -/
def Obligations.CopyMovesBytes : Prop :=
  (∀ (s : State) (id : Nat) (q : Copy) (off r o c : Nat), s.copies.find? (fun x => x.id == id && x.running) = some q →
    q.put = true → q.done = 0 → 0 < q.n → classify q.loc = .spad off → classify q.rem = .rank r o →
    off + q.n ≤ 0xF8000 → o + q.n ≤ 0xF8000 → c ≠ coreOf q.thread ∨ off + q.n ≤ o ∨ o + q.n ≤ off →
    (s.part q.part).refill = 0 → q.writes = [] → q.early = [] → q.written = [] → q.lost = none → (∀ x ∈ s.copies, x.id = q.id → x = q) →
    Sparse.get (s.part q.part).ranks r .invalid = .valid c → s.tagOf c = q.part → s.tagOf (coreOf q.thread) = q.part →
    s.away q.part c = false → s.away q.part (coreOf q.thread) = false →
    s.poisoned (spadKey (coreOf q.thread) off) q.n = false → s.watchers = [] →
    ∃ t, exec (.copyComplete id) s = .next t ∧
      Memory.readBytes t.mem (spadKey c o) q.n = Memory.readBytes s.mem (spadKey (coreOf q.thread) off) q.n ∧
      SameBytesBut s t (spadKey c o) q.n ∧ (∀ x ∈ t.copies, x.id ≠ q.id) ∧
      (t.thread q.thread).fifo = (s.thread q.thread).fifo ++
        [⟨BitVec.ofNat 64 (q.ticket.toNat + 2^16 + q.n * 2^32), 0⟩] ∧
      (t.thread q.thread).regs = (s.thread q.thread).regs ∧ ∀ u, u ≠ q.thread → t.thread u = s.thread u) ∧
  (∀ (s : State) (rd ra : Reg) (off : Nat), classify (s.x ra) = .spad off → off + 16 ≤ 0xF8000 → (s.x ra).toNat % 16 = 0 →
    (s.me.fifo = [] → ∃ t, exec (.cpop rd ra) s = .next t ∧ WritesReg s t rd (BitVec.allOnes 64)) ∧
    (∀ e r, s.me.fifo = e :: r → s.overlapBusy s.cur (spadKey s.here off) 16 = false →
      ∃ t, exec (.cpop rd ra) s = .next t ∧ SameBytesBut s t (spadKey s.here off) 16 ∧
        bytesAt t (spadKey s.here off) 8 = e.lo.toNat ∧ bytesAt t (spadKey s.here off + 8) 8 = e.hi.toNat ∧
        RegsSet s.me.regs t.me.regs rd (BitVec.ofNat 64 (e.lo.toNat % 2^16)) ∧
        t.me = { s.me with regs := t.me.regs, fifo := r } ∧ (∀ u, u ≠ s.cur → t.thread u = s.thread u)) ∧
    (∃ t, exec .cwait s = .next t ∧
      (s.me.fifo = [] ∧ s.me.reserved ≠ 0 → Waits s t .completion) ∧
      (¬ (s.me.fifo = [] ∧ s.me.reserved ≠ 0) → Nothing s t)))

/-! Messages and wakes. -/

/-- R36, R39, R171: SEND of 1 to 56 bytes to a rank that the table holds, with the thread's earlier stores and vector accesses
to the bytes performed, sends a packet that is a release, holding the sender's rank, length and channel in the header and the
payload bytes; it takes a free credit of the channel that nothing asks for before it, or uses the one that it was granted. With
none it waits as the last that asks. No byte of memory and no thread changes. R29: in the communication phase it counts in the
row that it matches, and raises SLOT where it matches none; one that waits for a credit counts when it obtains it, in the row
that it matched when it began to wait (DEDUCED, log entry 40). R40: to an entry IN TRANSIT it leaves without a credit and is
held, up to 16 messages of the NI. R307: to a core that holds nothing of the partition it leaves without a credit. R172, R173:
RECV and RPOLL with a message in the queue, or one that the thread has claimed, write its 64 bytes at x[ra], give x[rd] its
header and take it. With no message for the thread RECV waits as the last of the channel's waiters and RPOLL gives 0. R38, R39,
R307, R316, R319: a packet that has been sent and stands behind no earlier one is ejected to the core whose tag is its own, or
joins the spill ring of a saved one; where the tags differ it is dropped, logged, and TAG is pending in its sender with the
rank in TVAL2 (for a message or wake TVAL is 0: DEDUCED, log entry 46). R144, R173: a message that arrives joins its channel's
queue when nobody waits there, else the longest waiter claims it; a wake sets its thread's flag. A free credit goes to what
asked first. No byte of memory changes. -/
def Obligations.Messages : Prop :=
  (∀ (s : State) (rs ra : Reg) (ch : BitVec 5) (v : Word) (r len off a c : Nat), s.x ra = v → r = v.toNat % 1024 →
    len = v.toNat / 2^16 % 64 → a = spadKey s.here off →
    (s.me.inh = false → len = 0 ∨ 56 < len →
      ∃ t, exec (.send rs ra ch) s = .next t ∧ TakesTrap s t ⟨.access, v, 0, 0, 0xFF⟩) ∧
    (0 < len → len ≤ 56 → classify (s.x rs) = .spad off → off + len ≤ 0xF8000 →
      (s.me.inh = false → s.poisonedFor s.cur a len = false → s.rankEntry (s.partOf s.cur) r = .invalid →
        ∃ t, exec (.send rs ra ch) s = .next t ∧ TakesTrap s t ⟨.access, v, 0, 0, 0xFF⟩) ∧
      (s.poisonedFor s.cur a len = false → s.rankEntry (s.partOf s.cur) r = .valid c ∨ s.rankEntry (s.partOf s.cur) r = .inTransit c →
        s.me.inh = false → (s.coreAt s.here).comm = true → s.mayLeave c ch.toNat = false →
        (s.coreAt s.here).matchRow r ch.toNat len = none → ∃ t, exec (.send rs ra ch) s = .next t ∧
          TakesTrap s t ⟨.slot, v, BitVec.ofNat 64 ((s.coreAt s.here).cycle - (s.coreAt s.here).phaseStart), 0, 0xFF⟩) ∧
      (s.poisonedFor s.cur a len = false → s.overlapBusy s.cur a len = false → s.vectorMemoryBusy s.cur = false →
        s.rankEntry (s.partOf s.cur) r = .valid c →
        (∀ q, s.channelFor (s.partOf s.cur) c ch.toNat = some q →
          (s.cur ∈ q.granted → ∃ t, exec (.send rs ra ch) s = .next t ∧ SendsMessage s t c r ch.toNat len a false true ∧
            t.channelFor (s.partOf s.cur) c ch.toNat = some { q with granted := q.granted.erase s.cur } ∧
            (t.coreAt s.here).rows = (s.coreAt s.here).rows) ∧
          (s.cur ∉ q.granted → s.me.woke = none → CountsIn (s.coreAt s.here) none s.cur r ch.toNat len (fun rows =>
            (0 < q.free → q.asking = [] →
              ∃ t, exec (.send rs ra ch) s = .next t ∧ SendsMessage s t c r ch.toNat len a false true ∧
                t.channelFor (s.partOf s.cur) c ch.toNat = some { q with promised := q.promised + 1 } ∧
                (t.coreAt s.here).rows = rows) ∧
            (q.free = 0 ∨ q.asking ≠ [] → ∃ t, exec (.send rs ra ch) s = .next t ∧ SameBytes s t ∧ t.packets = s.packets ∧
              (∃ row, t.me = { s.me with status := .blocked (.credit c ch.toNat r len row) s.now, flow := .waits } ∧
                row = if (s.coreAt s.here).comm then (s.coreAt s.here).matchRow r ch.toNat len else none) ∧
              (∀ u, u ≠ s.cur → t.thread u = s.thread u) ∧ (t.coreAt s.here).rows = (s.coreAt s.here).rows ∧
              t.channelFor (s.partOf s.cur) c ch.toNat = some { q with
                asking := if .thread s.cur ∈ q.asking then q.asking else q.asking ++ [.thread s.cur] })))) ∧
        (s.channelFor (s.partOf s.cur) c ch.toNat = none → CountsIn (s.coreAt s.here) none s.cur r ch.toNat len (fun rows =>
          ∃ t, exec (.send rs ra ch) s = .next t ∧ SendsMessage s t c r ch.toNat len a false false ∧
            (t.coreAt s.here).rows = rows))) ∧
      (s.poisonedFor s.cur a len = false → s.rankEntry (s.partOf s.cur) r = .inTransit c → s.me.woke = none →
        CountsIn (s.coreAt s.here) none s.cur r ch.toNat len (fun rows =>
          (s.holdFull (s.partOf s.cur) r s.here = true → ∃ t, exec (.send rs ra ch) s = .next t ∧ Waits s t (.inTransit r)) ∧
          (s.holdFull (s.partOf s.cur) r s.here = false → s.overlapBusy s.cur a len = false → s.vectorMemoryBusy s.cur = false →
            ∃ t, exec (.send rs ra ch) s = .next t ∧ SendsMessage s t c r ch.toNat len a true false ∧
              (t.coreAt s.here).rows = rows))))) ∧
  (∀ (s : State) (rd ra : Reg) (ch : BitVec 5) (off a : Nat) (q : Channel), classify (s.x ra) = .spad off → off + 64 ≤ 0xF8000 →
    (s.x ra).toNat % 8 = 0 → a = spadKey s.here off → q = s.channel s.here ch.toNat →
    (s.overlapBusy s.cur a 64 = true → q.queue ≠ [] ∨ (∃ e ∈ q.claimed, e.1 = s.cur) →
      ∀ i ∈ ([.recv rd ra ch, .rpoll rd ra ch] : List Instr), ∃ t, exec i s = .next t ∧ Waits s t (.overlap a 64)) ∧
    (∀ (m : Message) (q' : Channel), s.overlapBusy s.cur a 64 = false → m.payload.length = 56 →
      ((∀ e ∈ q.claimed, e.1 ≠ s.cur) ∧ ∃ r, q.queue = m :: r ∧
          q' = { q with queue := r, waiting := q.waiting.filter (· != s.cur) }) ∨
        (q.claimed.find? (fun e => e.1 == s.cur) = some (s.cur, m) ∧
          q' = { q with claimed := q.claimed.filter (fun e => e.1 != s.cur) }) →
      ∀ i ∈ ([.recv rd ra ch, .rpoll rd ra ch] : List Instr),
        ∃ t, exec i s = .next t ∧ SameBytesBut s t a 64 ∧
          Memory.readBytes t.mem a 64 = leBytes m.header.toNat 8 ++ m.payload ∧
          RegsSet s.me.regs t.me.regs rd m.header ∧ t.me = { s.me with regs := t.me.regs } ∧
          t.channel s.here ch.toNat = q' ∧ (∀ j, j ≠ ch.toNat → t.channel s.here j = s.channel s.here j) ∧
          (∀ d, d ≠ s.here → t.coreAt d = s.coreAt d) ∧ (∀ u, u ≠ s.cur → t.thread u = s.thread u)) ∧
    (q.queue = [] → (∀ e ∈ q.claimed, e.1 ≠ s.cur) →
      (∃ t, exec (.rpoll rd ra ch) s = .next t ∧ WritesReg s t rd 0) ∧
      (∃ t, exec (.recv rd ra ch) s = .next t ∧ SameBytes s t ∧
        t.me = { s.me with status := .blocked (.recv ch.toNat) s.now, flow := .waits } ∧
        t.channel s.here ch.toNat = { q with
          waiting := if s.cur ∈ q.waiting then q.waiting else q.waiting ++ [s.cur] } ∧
        (∀ j, j ≠ ch.toNat → t.channel s.here j = s.channel s.here j) ∧
        (∀ u, u ≠ s.cur → t.thread u = s.thread u)))) ∧
  (∀ (s : State) (id : Nat) (k : Packet), s.packetOf id = some k → k.id = id →
    (k.ejected = true ∨ k.held = true ∨ s.asks k = true ∨ s.packetSent k = false ∨ s.behindEarlier k = true ∨ s.behindRing k = true →
      ∃ t, exec (.packetEjection id) s = .next t ∧ Nothing s t) ∧
    (k.ejected = false → k.held = false → s.asks k = false → s.packetSent k = true → s.behindEarlier k = false →
      s.behindRing k = false →
      (s.savedFor k.tag k.dest = none → s.tagOf k.dest = k.tag → ∃ t, exec (.packetEjection id) s = .next t ∧ SameBytes s t ∧
        t.threads = s.threads ∧ t.cores = s.cores ∧ t.packetOf id = some { k with ejected := true }) ∧
      (∀ v, s.savedFor k.tag k.dest = some v →
        (v.ring.length < 1024 → ∃ t, exec (.packetEjection id) s = .next t ∧ SameBytes s t ∧ t.threads = s.threads ∧
          t.packetOf id = none ∧ t.savedFor k.tag k.dest = some { v with ring := v.ring ++ [k] }) ∧
        (1024 ≤ v.ring.length → ∃ t, exec (.packetEjection id) s = .next t ∧ Nothing s t)) ∧
      (s.savedFor k.tag k.dest = none → s.tagOf k.dest ≠ k.tag →
        (match k.cargo with
          | .message _ _ | .wake _ => s.sentHere k = true ∧ s.away k.tag (coreOf k.source) = false
          | .request r => (Sparse.find? s.requests r).isSome = true
          | .put w => (s.putOf w).isSome = true) →
        ∃ t, exec (.packetEjection id) s = .next t ∧ SameBytes s t ∧ t.packetOf id = none ∧ t.cores = s.cores ∧
          t.dropLog = (s.tagKey k.dest, k.tag, s.tagOf k.dest, k.cargo.kind) :: s.dropLog ∧
          ⟨.tag, s.cargoAddress k.cargo, BitVec.ofNat 64 k.rank, .none⟩ ∈ (t.thread k.source).pending))) ∧
  (∀ (s : State) (id : Nat) (k : Packet), s.packetOf id = some k → k.id = id → s.reaches k = true → s.heldForCut k = false →
    ((s.part k.tag).spore.state ≠ .capture ∨ k.uncut (s.part k.tag).spore = false) →
    (∀ ch m, k.cargo = .message ch m → s.behindEarlier k = false → ∀ q, q = (if k.credit
        then { s.channel k.dest ch with promised := (s.channel k.dest ch).promised - 1 } else s.channel k.dest ch) →
      ∃ t, exec (.messageArrival id) s = .next t ∧ SameBytes s t ∧ t.threads = s.threads ∧ t.packetOf id = none ∧
        (∀ d, d ≠ k.dest → t.coreAt d = s.coreAt d) ∧ (∀ j, j ≠ ch → t.channel k.dest j = s.channel k.dest j) ∧
        (q.waiting = [] → t.channel k.dest ch = { q with queue := q.queue ++ [m] }) ∧
        ∀ w r, q.waiting = w :: r → t.channel k.dest ch = { q with waiting := r, claimed := q.claimed ++ [(w, m)] }) ∧
    (∀ h u, k.cargo = .wake h → u = 4 * k.dest + h → ∃ t, exec (.wakeDelivery id) s = .next t ∧ SameBytes s t ∧
      t.packetOf id = none ∧ t.cores = s.cores ∧ (∀ v, v ≠ u → t.thread v = s.thread v) ∧
      t.thread u = if (s.thread u).status = .free ∨ (s.thread u).status = .halted then s.thread u
        else { s.thread u with wake := true })) ∧
  (∀ (s : State) (c ch : Nat) (q : Channel), (∀ v ∈ s.saved, v.snapshot.core ≠ c) → q = s.channel c ch →
    (q.free = 0 ∨ q.asking = [] → ∃ t, exec (.creditGrant c ch) s = .next t ∧ Nothing s t) ∧
    (∀ x r, q.asking = x :: r → 0 < q.free →
      (∀ w c' ch' rk len row since, x = .thread w → (s.thread w).status = .blocked (.credit c' ch' rk len row) since →
        CountsIn (s.coreAt (coreOf w)) row w rk ch' len (fun rows =>
          ∃ t, exec (.creditGrant c ch) s = .next t ∧ SameBytes s t ∧ t.threads = s.threads ∧
            t.channel c ch = { q with asking := r, granted := q.granted ++ [w], promised := q.promised + 1 } ∧
            (t.coreAt (coreOf w)).rows = rows) ∧
        ((s.coreAt (coreOf w)).comm = true → (s.coreAt (coreOf w)).counted w = false →
          (s.coreAt (coreOf w)).rowOf row rk ch' len = none →
          ∃ t, exec (.creditGrant c ch) s = .next t ∧ SameBytes s t ∧ t.channel c ch = { q with asking := r } ∧
            t.thread w = { s.thread w with status := .ready, woke := some (.credit c' ch' rk len row) })) ∧
      (∀ n k, x = .packet n → s.packetOf n = some k → k.id = n → k.tag = s.tagOf c → k.dest = c →
        ∃ t, exec (.creditGrant c ch) s = .next t ∧ SameBytes s t ∧ t.threads = s.threads ∧
          t.channel c ch = { q with asking := r, promised := q.promised + 1 } ∧
          t.packetOf n = some { k with credit := true })))

/-! The ends of waits, the watchdog and HALT. -/

/-- R19, R39, R145, R152, R272, R274, R277, R328: each of these events, when what its thread waits for has come, makes the
thread READY at its word. No byte of memory and no register changes; a store that missed finds its page copied, which changes
nothing where no spore captures anything there (R374). A permit of the monitor is for one 64 KiB page (DESIGN CHOICE, log entry
19); a plain RSV that finds no headroom left when its turn comes is answered 0, and a reservation that waits for the monitor is
granted by it (DEDUCED, log entry 41). R39: a SEND whose slot window closes before it has its credit no longer asks. R135,
R137: ASYNC_TRAP_DELIVERY to a READY thread that runs no handler, with one cause pending that its own handler takes, takes it:
TEPC names the thread's next word and the cause is no longer pending. Registers, loop CSRs, other threads and memory are as
before. -/
def Obligations.WaitsEnd : Prop :=
  (∀ (s : State) (u since : Nat),
    (∀ n, (s.thread u).status = .blocked (.sleep (some n)) since → n ≤ (s.coreAt (coreOf u)).cycle →
      ∃ t, exec (.tsleepTimeout u) s = .next t ∧ Resumes s t u (.sleep (some n))) ∧
    ((s.thread u).status = .blocked .fetch since →
      ∃ t, exec (.instructionFetchReturn u) s = .next t ∧ Resumes s t u .fetch) ∧
    (∀ a, (s.thread u).status = .blocked (.storeMiss a) since →
      (∃ t, exec (.storeMissReturn u) s = .next t ∧ (t.thread u).status = .ready) ∧
      ((∀ g ∈ (s.part (s.partOf u)).spore.pages, s.standsAt (s.partOf u) a g = false) →
        ∃ t, exec (.storeMissReturn u) s = .next t ∧ Resumes s t u (.storeMiss a))) ∧
    (∀ va, (s.thread u).status = .blocked (.walk va) since →
      ∃ t, exec (.hostWalkReply u) s = .next t ∧ OnlyThread s t u ∧ (t.thread u).status = .ready ∧
        (va &&& 0xFFFFFFFFFFFF0000) ∈ (t.thread u).permits ∧ (t.thread u).regs = (s.thread u).regs) ∧
    (∀ n, (s.thread u).status = .blocked (.fill n) since → s.fillOf (s.partOf u) ≤ n →
      ∃ t, exec (.rwaitRelease u) s = .next t ∧ Resumes s t u (.fill n)) ∧
    (∀ w, s.sluice.find? (fun x => x.thread == u) = some w → s.grantFor w ≠ 0 →
      ∀ p ∈ ([(.reservationGrant u, false), (.monitorSluiceGrant u, true)] : List (Instr × Bool)),
        s.monitorGrants u = p.2 →
        ∃ t, exec p.1 s = .next t ∧ SameBytes s t ∧ (t.thread u).status = .ready ∧
          (t.thread u).reply = some (.value (BitVec.ofNat 64 (s.grantFor w))) ∧
          (t.thread u).regs = (s.thread u).regs ∧ ∀ x ∈ t.sluice, x.thread ≠ u) ∧
    (∀ w, s.sluice.find? (fun x => x.thread == u) = some w → s.grantFor w = 0 →
      ∀ p ∈ ([(.reservationGrant u, false), (.monitorSluiceGrant u, true)] : List (Instr × Bool)),
        s.monitorGrants u = p.2 →
        (w.waits = true → ∃ t, exec p.1 s = .next t ∧ Nothing s t) ∧
        (w.waits = false → ∃ t, exec p.1 s = .next t ∧ SameBytes s t ∧ (t.thread u).status = .ready ∧
          (t.thread u).reply = some (.value 0) ∧ (t.thread u).regs = (s.thread u).regs ∧ ∀ x ∈ t.sluice, x.thread ≠ u)) ∧
    (∀ c ch r len i q, (s.thread u).status = .blocked (.credit c ch r len (some i)) since → (s.coreAt (coreOf u)).comm = true →
      (s.coreAt (coreOf u)).counted u = false → s.channelFor (s.partOf u) c ch = some q → .thread u ∈ q.asking →
      (∀ w, (s.coreAt (coreOf u)).rows[i]? = some w → w.inWindow r ch (s.coreAt (coreOf u)).phaseCyc = false) →
      ∃ t, exec (.slotWindowClose u) s = .next t ∧ SameBytes s t ∧ (t.thread u).status = .ready ∧
        (t.thread u).regs = (s.thread u).regs ∧
        t.channelFor (s.partOf u) c ch = some { q with asking := q.asking.filter (· != .thread u) })) ∧
  (∀ (s : State) (u : Nat) (a : Async), (s.thread u).status = .ready → (s.thread u).woke = none →
    (s.thread u).inh = false → (s.thread u).pending = [a] → a.cause.handled = true →
    ∃ t, exec (.asyncTrapDelivery u) s = .next t ∧ OnlyThread s t u ∧
      (t.thread u).pending = [] ∧ (t.thread u).tcause = a.cause.code ∧ (t.thread u).tval = a.tval ∧
      (t.thread u).tval2 = a.tval2 ∧ (t.thread u).tepc = (s.thread u).pc &&& 0xFFFFFFFFFFFFFFFC ∧
      (t.thread u).pc = (s.thread u).tvec &&& 0xFFFFFFFFFFFFFFF8 ∧ (t.thread u).supervisor = true ∧
      (t.thread u).inh = true ∧ (t.thread u).lh = true ∧
      (t.thread u).tstat.getLsbD 9 = (s.thread u).supervisor ∧ (t.thread u).regs = (s.thread u).regs ∧
      (t.thread u).fcsr = (s.thread u).fcsr ∧ (t.thread u).lpcount = (s.thread u).lpcount ∧
      (t.thread u).lpstart = (s.thread u).lpstart ∧ (t.thread u).lpend = (s.thread u).lpend)

/-- R142: HALT_COMPLETE does nothing while one of the thread's copy commands, MXU commands, stores, puts, sends or vector
entries is under way; then a pending cause that the thread can take is taken at its word, and with none the thread leaves its
HALT: without a launch it is FREE. R43, R45: with one whose election has closed it starts again with the launch's next index,
at the entry address with bits 1:0 zero (DEDUCED, log entry 23), or is FREE when none remains; before that it waits HALTED.
R47: with the last index halted the launch completes. R188, R223, R263: WATCHDOG_EXPIRY makes WATCHDOG pending in a thread
whose vector entry at the head of its core's queue has waited for a stream or the SFU longer than the interval, or whose MXU
command has, while the thread's own wait has not; without any of these it does nothing (which waits count is DEDUCED, log entry
48). LINK_RETRY_FAIL (R346) leaves UE for the address pending in a thread that cannot take it yet (FREE, or between the end of
a wait and its word). No byte of memory changes, but those of a completion record. -/
def Obligations.HaltCompletes : Prop :=
  (∀ (s : State) (u since : Nat), (s.thread u).status = .blocked .halt since →
    (¬ HaltOver s u → ∃ t, exec (.haltComplete u) s = .next t ∧ Nothing s t) ∧
    (HaltOver s u → ∀ a, (s.thread u).pending = [a] → (s.thread u).inh = false → a.cause.handled = true →
      ∃ t, exec (.haltComplete u) s = .next t ∧ SameBytes s t ∧ (t.thread u).status = .ready ∧ (t.thread u).pending = [] ∧
        (t.thread u).tcause = a.cause.code ∧ (t.thread u).tepc = (s.thread u).pc &&& 0xFFFFFFFFFFFFFFFC ∧
        ∀ v, v ≠ u → t.thread v = s.thread v) ∧
    (HaltOver s u → (s.thread u).pending = [] →
      ((s.thread u).launch = none → ∃ t, exec (.haltComplete u) s = .next t ∧ SameBytes s t ∧
        (t.thread u).status = .free ∧ ∀ v, v ≠ u → t.thread v = s.thread v) ∧
      (∀ id l, (s.thread u).launch = some id → Sparse.find? s.launches id = some l → l.id = id → l.ending = none →
        s.away l.part (coreOf u) = false →
        (l.halted + 1 + l.abandoned.length ≠ l.count →
          (∀ i l', l.closed = true → l.leader.isSome = true → l.takeIndex = some (i, l') →
            ∃ t, exec (.haltComplete u) s = .next t ∧ SameBytes s t ∧ (t.thread u).status = .ready ∧
              (t.thread u).pc = BitVec.ofNat 64 (l.word 1) &&& 0xFFFFFFFFFFFFFFFC ∧ (t.thread u).index = i ∧
              (t.thread u).launch = some id ∧ (t.thread u).regs.get (10 : Fin 64) = BitVec.ofNat 64 i ∧
              Sparse.find? t.launches id = some { l' with halted := l.halted + 1 } ∧
              ∀ v, v ≠ u → t.thread v = s.thread v) ∧
          (l.closed = true → l.leader.isSome = true → l.takeIndex = none →
            ∃ t, exec (.haltComplete u) s = .next t ∧ SameBytes s t ∧ (t.thread u).status = .free ∧
              Sparse.find? t.launches id = some { l with halted := l.halted + 1 } ∧ ∀ v, v ≠ u → t.thread v = s.thread v) ∧
          (l.closed = false ∨ l.leader = none → ∃ t, exec (.haltComplete u) s = .next t ∧ SameBytes s t ∧
            (t.thread u).status = .halted ∧ ∀ v, v ≠ u → t.thread v = s.thread v)) ∧
        (l.halted + 1 + l.abandoned.length = l.count → l.closed = true → l.leader.isSome = true → l.takeIndex = none →
          s.captureHolds l = false → s.storesOut l = false →
          ∃ t, exec (.haltComplete u) s = .next t ∧ (t.thread u).status = .free ∧ Sparse.find? t.launches id = none)))) ∧
  (∀ (s : State) (u : Nat),
    (∀ q r, (s.coreAt (coreOf u)).vqueue = q :: r → q.thread = u → q.done = false → s.streamOrSfuWait (coreOf u) q = true →
      q.since + (2 * (s.part (s.partOf u)).slice + 10000) * 1000 < s.now → s.waitExpired u = false →
      ∃ t, exec (.watchdogExpiry u) s = .next t ∧ SameBytes s t ∧ ⟨.watchdog, 0, 0, .none⟩ ∈ (t.thread u).pending ∧
        (t.thread u).regs = (s.thread u).regs) ∧
    (∀ q ∈ (s.coreAt (coreOf u)).mxqueue, q.thread = u → q.finished = false →
      q.since + (2 * (s.part (s.partOf u)).slice + 10000) * 1000 < s.now → s.waitExpired u = false → s.entryExpired u = false →
      ∃ t, exec (.watchdogExpiry u) s = .next t ∧ SameBytes s t ∧ ⟨.watchdog, 0, 0, .none⟩ ∈ (t.thread u).pending ∧
        (t.thread u).regs = (s.thread u).regs) ∧
    (s.expires u = false → ∃ t, exec (.watchdogExpiry u) s = .next t ∧ Nothing s t) ∧
    (∀ a : Word, (s.thread u).status = .free ∨ ((s.thread u).status = .ready ∧ (s.thread u).woke ≠ none) →
      ∃ t, exec (.linkRetryFail u a) s = .next t ∧ OnlyThread s t u ∧ ⟨.ue, a, 0, .link⟩ ∈ (t.thread u).pending))

/-! Barriers, the Weir and flumes. -/

/-- R31, R32, R35, R174: a member's BAR, or STEP at its launch's step domain, that has not arrived in the open generation and
whose earlier accesses are performed joins the arrivals, at the Weir barrier too for a package-level domain, and blocks the
thread until the generation completes; the word then leaves the generation and goes on. A thread that is no member takes
BARMEMB, one that has arrived BARTWICE, and one too many at the Weir barrier BARCOUNT. R30, R35: an arrival of a package-level
generation after the open one, which has not completed yet, waits for its own. R28, R31, R32: GENERATION_COMPLETE does nothing
until the open generation can complete; then every domain that completes with it counts one generation more and has only the
arrivals that came early for that one, and each core of a step domain flips its phase once, whatever launches name it. -/
def Obligations.Barriers : Prop :=
  (∀ (s : State) (dom : BitVec 4) (k : Nat) (d : Domain), k = 16 * dieOf s.here + dom.toNat → s.domain k = d →
    ∀ i ∈ ([.bar dom, .step dom] : List Instr), (i = .step dom → s.stepDomain s.cur = some dom.toNat) →
    (d.member s.cur = true → s.me.woke = none → d.hasArrived s.cur = false → s.released s.cur d.scope true = true →
      (d.level = 3 → d.nextOf s.cur = d.gen ∧ (s.weirBar (s.weirOf d)).arrived < (s.weirBar (s.weirOf d)).count) →
      ∃ t, exec i s = .next t ∧ SameBytes s t ∧ (∀ u, u ≠ s.cur → t.thread u = s.thread u) ∧
        t.me = { s.me with status := .blocked (.barrier k d.gen) s.now, flow := .waits } ∧
        t.domain k = { d with arrived := d.arrived ++ [s.cur] } ∧ (∀ j, j ≠ k → t.domain j = s.domain j) ∧
        (d.level ≠ 3 → t.weirBars = s.weirBars) ∧
        (d.level = 3 → t.weirBar (s.weirOf d) =
          { s.weirBar (s.weirOf d) with arrived := (s.weirBar (s.weirOf d)).arrived + 1 })) ∧
    (d.member s.cur = true → s.me.woke = none → d.hasArrived s.cur = false → s.released s.cur .pkg true = true → d.level = 3 →
      d.gen < d.nextOf s.cur → s.earlyArrivals d.part d.weir (d.nextOf s.cur) < (s.weirBar (s.weirOf d)).count →
      ∃ t, exec i s = .next t ∧ SameBytes s t ∧ (∀ u, u ≠ s.cur → t.thread u = s.thread u) ∧
        t.me = { s.me with status := .blocked (.barrier k (d.nextOf s.cur)) s.now, flow := .waits } ∧
        t.domain k = { d with early := d.early ++ [(d.nextOf s.cur, s.cur)] } ∧ (∀ j, j ≠ k → t.domain j = s.domain j) ∧
        t.weirBars = s.weirBars) ∧
    (∀ g, s.me.woke = some (.barrier k g) → g < d.gen →
      ∃ t, exec i s = .next t ∧ SameBytes s t ∧ t.threads = s.threads ∧ t.cores = s.cores ∧
        (t.domain k).nextOf s.cur = Max.max (g + 1) d.base ∧ (t.domain k).arrived = d.arrived ∧ (t.domain k).gen = d.gen) ∧
    (d.member s.cur = true → s.me.woke = none → d.hasArrived s.cur = false → s.released s.cur .pkg true = true → d.level = 3 →
      s.me.inh = false → d.nextOf s.cur < d.gen ∨
        (d.nextOf s.cur = d.gen ∧ (s.weirBar (s.weirOf d)).count ≤ (s.weirBar (s.weirOf d)).arrived) ∨
        (d.gen < d.nextOf s.cur ∧ (s.weirBar (s.weirOf d)).count ≤ s.earlyArrivals d.part d.weir (d.nextOf s.cur)) →
      ∃ t, exec i s = .next t ∧ SameBytes s t ∧ t.me.tcause = Cause.barcount.code ∧ t.me.tval = BitVec.ofNat 64 dom.toNat ∧
        t.me.tval2 = BitVec.ofNat 64 d.weir ∧ t.weirBars = s.weirBars ∧ (t.domain k).arrived = d.arrived ∧
        ∀ u, u ≠ s.cur → t.thread u = s.thread u) ∧
    (d.member s.cur = false → s.wokeFromBarrier k = none → s.me.inh = false →
      ∃ t, exec i s = .next t ∧ TakesTrap s t ⟨.barmemb, BitVec.ofNat 64 dom.toNat, 0, 0, 0xFF⟩) ∧
    (d.member s.cur = true → s.me.woke = none → d.hasArrived s.cur = true → s.me.inh = false →
      ∃ t, exec i s = .next t ∧ TakesTrap s t ⟨.bartwice, BitVec.ofNat 64 dom.toNat, 0, 0, 0xFF⟩)) ∧
  (∀ (s : State) (dom : BitVec 4), s.stepDomain s.cur ≠ some dom.toNat →
    s.wokeFromBarrier (16 * dieOf s.here + dom.toNat) = none → s.me.inh = false →
    ∃ t, exec (.step dom) s = .next t ∧ TakesTrap s t ⟨.barmemb, BitVec.ofNat 64 dom.toNat, 0, 0, 0xFF⟩) ∧
  (∀ (s : State) (d dom k : Nat), k = 16 * d + dom →
    (s.generationReady k = false → ∃ t, exec (.generationComplete d dom) s = .next t ∧ Nothing s t) ∧
    (s.generationReady k = true → (s.domain k).level ≠ 3 →
      ∃ t, exec (.generationComplete d dom) s = .next t ∧
        OpensNext s t k ∧ (∀ j, j ≠ k → t.domain j = s.domain j) ∧ t.threads = s.threads ∧ SameBytes s t ∧
        (∀ l ∈ s.stepLaunches [k], ∀ c ∈ s.stepCores [k] l, s.tagOf c = l.part → s.away l.part c = false →
          (t.coreAt c).comm = !(s.coreAt c).comm ∧ (t.coreAt c).phaseStart = (s.coreAt c).cycle)) ∧
    (s.generationReady k = true → (s.domain k).level = 3 → (s.completing k).Nodup →
      ∃ t, exec (.generationComplete d dom) s = .next t ∧ t.threads = s.threads ∧
        (∀ j ∈ s.completing k, OpensNext s t j) ∧ (∀ j, j ∉ s.completing k → t.domain j = s.domain j) ∧
        ((∀ j ∈ s.completing k, (s.domain j).early = []) → (t.weirBar (s.weirOf (s.domain k))).arrived = 0) ∧
        (t.weirBar (s.weirOf (s.domain k))).gen = (s.weirBar (s.weirOf (s.domain k))).gen + 1 ∧
        (∀ l ∈ s.stepLaunches (s.completing k), ∀ c ∈ s.stepCores (s.completing k) l, s.tagOf c = l.part → s.away l.part c = false →
          (t.coreAt c).comm = !(s.coreAt c).comm ∧ (t.coreAt c).phaseStart = (s.coreAt c).cycle)))

/-- R176: BDOM with x[ra] = 0 reads the domain's level, generation and arrivals; at supervisor privilege it installs a
well-formed image of 64 bytes (log entry 69) on a domain where no member waits. At app privilege a write raises ACCESS. R162,
R177 to R180: each Weir operation on an index of the partition's allotment, once the thread's earlier accesses are performed at
PKG, draws the thread's next number and acts on that counter or semaphore alone: no other counter or semaphore, no other thread
and no byte of memory changes. CADD, CREAD and CSWAP give x[rd] the old value; SWAIT and STRY take a unit where there is one;
SPOST grants it to the longest waiter or counts it. An index outside the allotment raises ACCESS. R355: a number that a rollback
repeats and the Weir's window holds is answered from it and not applied again. -/
def Obligations.WeirAndDomainWords : Prop :=
  (∀ (s : State) (rd ra : Reg) (dom : BitVec 4) (k off a : Nat), k = 16 * dieOf s.here + dom.toNat →
    (s.x ra = 0 → ∃ t, exec (.bdom rd ra dom) s = .next t ∧ WritesReg s t rd (s.bdomWord k 0)) ∧
    (s.x ra ≠ 0 → s.me.supervisor = false → s.me.inh = false →
      ∃ t, exec (.bdom rd ra dom) s = .next t ∧ TakesTrap s t ⟨.access, s.x ra, 0, 0, 0xFF⟩) ∧
    (s.x ra ≠ 0 → s.me.supervisor = true → classify (s.x ra) = .spad off → off + 64 ≤ 0xF8000 → (s.x ra).toNat % 8 = 0 →
      a = spadKey s.here off → s.poisonedFor s.cur a 64 = false → s.overlapBusy s.cur a 64 = false →
      (s.memberWaits k = true → ∃ t, exec (.bdom rd ra dom) s = .next t ∧ WritesReg s t rd (s.bdomWord k 1)) ∧
      (s.memberWaits k = false → imageOk (s.part (s.partOf s.cur)).barriers.2 (Memory.readBytes s.mem a 64) = false →
        ∃ t, exec (.bdom rd ra dom) s = .next t ∧ WritesReg s t rd (s.bdomWord k 2)) ∧
      (s.memberWaits k = false → imageOk (s.part (s.partOf s.cur)).barriers.2 (Memory.readBytes s.mem a 64) = true →
      ∃ t, exec (.bdom rd ra dom) s = .next t ∧ SameBytes s t ∧ t.me = { s.me with regs := t.me.regs } ∧
        (∀ u, u ≠ s.cur → t.thread u = s.thread u) ∧ (∀ j, j ≠ k → t.domain j = s.domain j) ∧
        (t.domain k).level = bytesAt s a 1 % 4 ∧ (t.domain k).gen = (s.domain k).gen ∧
        (t.domain k).arrived = [] ∧ (t.domain k).part = some (s.partOf s.cur) ∧ (t.domain k).launch = none))) ∧
  (∀ (s : State) (rd ra rb : Reg) (n i : Nat), (s.x ra).toNat = n →
    s.lookup .weir s.cur s.me.reqno false s.me.again s.now = .fresh → s.released s.cur .pkg true = true →
    (n < 2^12 → n < (s.part (s.partOf s.cur)).counters.2 → i = (s.part (s.partOf s.cur)).counters.1 + n →
      ∀ p ∈ ([(.weirCadd rd ra rb, s.counter i + s.x rb), (.weirCread rd ra, s.counter i),
        (.weirCswap rd ra rb, if s.counter i = s.x rd then s.x rb else s.counter i)] : List (Instr × Word)),
        ∃ t, exec p.1 s = .next t ∧ SameBytes s t ∧ t.counter i = p.2 ∧ (∀ j, j ≠ i → t.counter j = s.counter j) ∧
          t.sems = s.sems ∧ RegsSet s.me.regs t.me.regs rd (s.counter i) ∧
          t.me = { s.me with regs := t.me.regs, reqno := s.me.reqno + 1, again := s.me.again - 1 } ∧
          (∀ u, u ≠ s.cur → t.thread u = s.thread u)) ∧
    (n < 2^10 → n < (s.part (s.partOf s.cur)).semaphores.2 → i = (s.part (s.partOf s.cur)).semaphores.1 + n →
      (∃ t, exec (.weirSpost ra) s = .next t ∧ OnlySem s t i ∧
        t.me = { s.me with reqno := s.me.reqno + 1, again := s.me.again - 1 } ∧
        (∀ w r, (s.sem i).waiting = w :: r → t.sem i = { s.sem i with waiting := r, granted := (s.sem i).granted ++ [w] }) ∧
        ((s.sem i).waiting = [] → (s.sem i).value < 2^32 - 1 → t.sem i = { s.sem i with value := (s.sem i).value + 1 }) ∧
        ((s.sem i).waiting = [] → (s.sem i).value = 2^32 - 1 → t.sem i = s.sem i)) ∧
      (0 < (s.sem i).value → s.cur ∉ (s.sem i).granted → ∃ t, exec (.weirSwait ra) s = .next t ∧ OnlySem s t i ∧
        t.me = { s.me with reqno := s.me.reqno + 1, again := s.me.again - 1 } ∧ t.sem i = { s.sem i with value := (s.sem i).value - 1 }) ∧
      (s.cur ∈ (s.sem i).granted → ∃ t, exec (.weirSwait ra) s = .next t ∧ OnlySem s t i ∧
        t.me = { s.me with reqno := s.me.reqno + 1, again := s.me.again - 1 } ∧
        t.sem i = { s.sem i with granted := (s.sem i).granted.erase s.cur }) ∧
      ((s.sem i).value = 0 → s.cur ∉ (s.sem i).granted → s.cur ∉ (s.sem i).waiting → ∃ t, exec (.weirSwait ra) s = .next t ∧
        OnlySem s t i ∧ t.me = { s.me with status := .blocked (.semaphore i) s.now, flow := .waits } ∧
        t.sem i = { s.sem i with waiting := (s.sem i).waiting ++ [s.cur] }) ∧
      (∃ t, exec (.weirStry rd ra) s = .next t ∧ OnlySem s t i ∧
        RegsSet s.me.regs t.me.regs rd (if 0 < (s.sem i).value then 1 else 0) ∧
        t.sem i = { s.sem i with value := (s.sem i).value - 1 } ∧
        t.me = { s.me with regs := t.me.regs, reqno := s.me.reqno + 1, again := s.me.again - 1 }))) ∧
  (∀ (s : State) (rd ra rb : Reg) (n : Nat), (s.x ra).toNat = n → s.me.inh = false →
    (2^12 ≤ n ∨ (s.part (s.partOf s.cur)).counters.2 ≤ n →
      ∀ i ∈ ([.weirCadd rd ra rb, .weirCread rd ra, .weirCswap rd ra rb] : List Instr),
        ∃ t, exec i s = .next t ∧ TakesTrap s t ⟨.access, s.x ra, 0, 0, 0xFF⟩) ∧
    (2^10 ≤ n ∨ (s.part (s.partOf s.cur)).semaphores.2 ≤ n →
      ∀ i ∈ ([.weirSpost ra, .weirSwait ra, .weirStry rd ra] : List Instr),
        ∃ t, exec i s = .next t ∧ TakesTrap s t ⟨.access, s.x ra, 0, 0, 0xFF⟩)) ∧
  (∀ (s : State) (rd ra rb : Reg) (n : Nat) (v : Word), (s.x ra).toNat = n → s.released s.cur .pkg true = true →
    s.lookup .weir s.cur s.me.reqno false s.me.again s.now = .stored v →
    (n < 2^12 → n < (s.part (s.partOf s.cur)).counters.2 →
      ∀ i ∈ ([.weirCadd rd ra rb, .weirCread rd ra, .weirCswap rd ra rb] : List Instr),
        ∃ t, exec i s = .next t ∧ OnlyThread s t s.cur ∧ RegsSet s.me.regs t.me.regs rd v ∧
          t.me = { s.me with regs := t.me.regs, reqno := s.me.reqno + 1, again := s.me.again - 1 }) ∧
    (n < 2^10 → n < (s.part (s.partOf s.cur)).semaphores.2 →
      (∃ t, exec (.weirStry rd ra) s = .next t ∧ OnlyThread s t s.cur ∧ RegsSet s.me.regs t.me.regs rd v ∧
        t.me = { s.me with regs := t.me.regs, reqno := s.me.reqno + 1, again := s.me.again - 1 }) ∧
      ∀ i ∈ ([.weirSpost ra, .weirSwait ra] : List Instr), ∃ t, exec i s = .next t ∧ OnlyThread s t s.cur ∧
        t.me = { s.me with reqno := s.me.reqno + 1, again := s.me.again - 1 }))

/-- R181 to R186: FCFG with a good record configures the flume and empties it; FWAITF and FWAITE go on when n slots are filled
or free and block else, and one whose condition has held since it blocked goes on whatever the flume holds now; FPROD and FCONS
move the tail or the head by n and the filled count with it; FRD reads the flume. No byte of memory changes, and no other
flume. R205: FPROD waits first for every earlier access of the thread, R238: FCONS for its vector memory entries. A flume that
a stream is bound to or an MXU command uses is not configured (FLUME). An unconfigured flume raises FLUME, and so does an n
above the slots there are, with n in TVAL2; a refused update changes nothing. -/
def Obligations.Flumes : Prop :=
  ∀ (s : State) (rd ra : Reg) (fl : BitVec 4) (f : Flume) (n : Nat), s.flume fl = f → n = (s.x ra).toNat →
    (∃ t, exec (.frd rd fl) s = .next t ∧ WritesReg s t rd
      (if f.configured then BitVec.ofNat 64 (2^63 + f.k * 2^48 + f.filled * 2^32 + f.tail * 2^16 + f.head) else 0)) ∧
    (s.me.woke = some (.filled fl.toNat n) → ∃ t, exec (.fwaitf ra fl) s = .next t ∧ Nothing s t) ∧
    (s.me.woke = some (.free fl.toNat n) → ∃ t, exec (.fwaite ra fl) s = .next t ∧ Nothing s t) ∧
    (f.configured = true →
      (n ≤ 2^f.k → n ≤ f.filled → ∃ t, exec (.fwaitf ra fl) s = .next t ∧ Nothing s t) ∧
      (n ≤ 2^f.k → f.filled < n → s.me.woke = none → ∃ t, exec (.fwaitf ra fl) s = .next t ∧ Waits s t (.filled fl.toNat n)) ∧
      (n ≤ 2^f.k → n ≤ 2^f.k - f.filled → ∃ t, exec (.fwaite ra fl) s = .next t ∧ Nothing s t) ∧
      (n ≤ 2^f.k → 2^f.k - f.filled < n → s.me.woke = none → ∃ t, exec (.fwaite ra fl) s = .next t ∧ Waits s t (.free fl.toNat n)) ∧
      (s.released s.cur .core true = true → n ≤ 2^f.k - f.filled → ∃ t, exec (.fprod ra fl) s = .next t ∧ OnlyCore s t s.here ∧
        t.flume fl = { f with tail := (f.tail + n) % 2^f.k, filled := f.filled + n } ∧
        (∀ g, g ≠ fl → t.flume g = s.flume g) ∧ (t.coreAt s.here).vregs = (s.coreAt s.here).vregs) ∧
      (s.vectorMemoryBusy s.cur = false → n ≤ f.filled → ∃ t, exec (.fcons ra fl) s = .next t ∧ OnlyCore s t s.here ∧
        t.flume fl = { f with head := (f.head + n) % 2^f.k, filled := f.filled - n } ∧
        (∀ g, g ≠ fl → t.flume g = s.flume g) ∧ (t.coreAt s.here).vregs = (s.coreAt s.here).vregs)) ∧
    (f.configured = true → s.released s.cur .core true = false →
      ∃ t, exec (.fprod ra fl) s = .next t ∧ Waits s t (.performed .core true)) ∧
    (f.configured = true → s.vectorMemoryBusy s.cur = true →
      ∃ t, exec (.fcons ra fl) s = .next t ∧ Waits s t (.performed .core true)) ∧
    (s.me.inh = false → s.me.woke = none →
      (f.configured = false → ∀ i ∈ ([.fwaitf ra fl, .fwaite ra fl, .fprod ra fl, .fcons ra fl] : List Instr),
        ∃ t, exec i s = .next t ∧ TakesTrap s t ⟨.flume, fl.setWidth 64, 0, 0, 0xFF⟩) ∧
      (f.configured = true → 2^f.k < n → ∀ i ∈ ([.fwaitf ra fl, .fwaite ra fl] : List Instr),
        ∃ t, exec i s = .next t ∧ TakesTrap s t ⟨.flume, fl.setWidth 64, BitVec.ofNat 64 n, 0, 0xFF⟩) ∧
      (f.configured = true → s.released s.cur .core true = true → 2^f.k - f.filled < n →
        ∃ t, exec (.fprod ra fl) s = .next t ∧ TakesTrap s t ⟨.flume, fl.setWidth 64, BitVec.ofNat 64 n, 0, 0xFF⟩) ∧
      (f.configured = true → s.vectorMemoryBusy s.cur = false → f.filled < n →
        ∃ t, exec (.fcons ra fl) s = .next t ∧ TakesTrap s t ⟨.flume, fl.setWidth 64, BitVec.ofNat 64 n, 0, 0xFF⟩)) ∧
    (∀ off a, classify (s.x ra) = .spad off → off + 16 ≤ 0xF8000 → (s.x ra).toNat % 8 = 0 → a = spadKey s.here off →
      s.poisonedFor s.cur a 16 = false →
      ((s.coreAt s.here).bound fl.toNat = true ∨ (∃ q ∈ (s.coreAt s.here).mxqueue, q.uses fl.toNat = true) → s.me.inh = false →
        ∃ t, exec (.fcfg ra fl) s = .next t ∧ TakesTrap s t ⟨.flume, fl.setWidth 64, s.x ra, 0, 0xFF⟩) ∧
      ((s.coreAt s.here).bound fl.toNat = false → (∀ q ∈ (s.coreAt s.here).mxqueue, q.uses fl.toNat = false) →
      (s.overlapBusy s.cur a 16 = true → ∃ t, exec (.fcfg ra fl) s = .next t ∧ Waits s t (.overlap a 16)) ∧
      (s.overlapBusy s.cur a 16 = false → ∀ base k size, base = bytesAt s a 4 → k = bytesAt s (a + 4) 1 →
      size = bytesAt s (a + 6) 2 → base % 64 = 0 → k ≤ 12 → size % 8 = 0 → 0 < size → bytesAt s (a + 8) 8 = 0 →
      base + 2^k * size ≤ 0xF8000 →
      ∃ t, exec (.fcfg ra fl) s = .next t ∧ OnlyCore s t s.here ∧
        t.flume fl = ⟨base, k, size, 0, 0, 0, true, s.me.launch⟩ ∧ ∀ g, g ≠ fl → t.flume g = s.flume g)))

/-! The reservoir. -/

/-- R272 to R278: RSV and its forms give x[rd] what is granted, all or nothing or as much as there is, and add it to the
thread's reservation; a waiting form without a grant joins the sluice queue. SPND of at most the reservation moves n units from
it into the fill; in metered mode it does nothing. RREL with no residue gives x[rd] the reservation and clears it. RFILL reads
the partition's fill, RWAIT blocks while it is above its bound, and SPRINT asks for a level. No byte changes. R266, R268, R278,
R281, R285, R292, R401, R403, R404: DRAIN_STEP lowers every PF by its RATE and F by the package drain, to 0 at least;
DRAIN_MEASURE sets the drain and each RATE; METER_TICK of a nominal core charges nothing and of a sprinting one below a whole
unit keeps a residue; the sluice closes at 15/16 of the fill and reopens below 7/8; LEVEL_SWITCH brings the clock to the level
once the regulator gives the level's set point, and before that, or after it, moves the regulator (R402); the residue keeps 16
fraction bits (DEDUCED, log entry 50), and a cut core lowers the projected power by its last meter rate (DEDUCED, log entry
30); the telemetry frame of a die is written whole with its sequence even; the voltage, current and time-base events set and
clear their marks. None but the telemetry frame changes a byte. -/
def Obligations.ReservoirAndPower : Prop :=
  (∀ (s : State) (rd ra : Reg) (n p : Nat), n = (s.x ra).toNat → p = s.partOf s.cur → s.me.reply = none → s.partExists p = true →
    (∀ i ∈ ([(.rsv rd ra, false, false), (.rsvW rd ra, true, false), (.rsvP rd ra, false, true),
        (.rsvWP rd ra, true, true)] : List (Instr × Bool × Bool)),
      s.sluiceAssisted = false → s.sluice = [] → 0 < n → n ≤ (s.part p).pcap →
      ∀ g, g = (if i.2.2 then Min.min n (s.available p) else if n ≤ s.available p then n else 0) →
      (0 < g → ∃ t, exec i.1 s = .next t ∧ SameBytes s t ∧ t.me.resv = s.me.resv + g ∧
        RegsSet s.me.regs t.me.regs rd (BitVec.ofNat 64 g) ∧ t.me.fcsr = s.me.fcsr ∧ t.me.status = s.me.status ∧
        (t.part p).po = (s.part p).po + g ∧ (∀ u, u ≠ s.cur → t.thread u = s.thread u)) ∧
      (g = 0 → i.2.1 = false → ∃ t, exec i.1 s = .next t ∧ WritesReg s t rd 0) ∧
      (g = 0 → i.2.1 = true → ∃ t w, exec i.1 s = .next t ∧ SameBytes s t ∧ t.sluice = [w] ∧ w.thread = s.cur ∧ w.n = n ∧
        w.partial? = i.2.2 ∧ t.me = { s.me with status := .blocked .reservation s.now, flow := .waits })) ∧
    (s.me.met = false → n ≤ s.me.resv → ∃ t, exec (.spnd ra) s = .next t ∧ SameBytes s t ∧
      t.me = { s.me with resv := s.me.resv - n, dc := s.me.dc + n } ∧ (t.part p).po = (s.part p).po - n ∧
      (t.part p).pf = (s.part p).pf + n * 2^16 ∧ t.fill = s.fill + n * 2^(16 - (s.part p).k)) ∧
    (s.me.met = true → ∃ t, exec (.spnd ra) s = .next t ∧ Nothing s t) ∧
    (s.me.met = false → s.me.resv < n → s.me.inh = false → ∃ t, exec (.spnd ra) s = .next t ∧
      TakesTrap s t ⟨.spill, BitVec.ofNat 64 n, BitVec.ofNat 64 s.me.resv, 0, 0xFF⟩) ∧
    ((s.coreAt s.here).residue < 2^16 → ∃ t, exec (.rrel rd) s = .next t ∧ SameBytes s t ∧
      RegsSet s.me.regs t.me.regs rd (BitVec.ofNat 64 s.me.resv) ∧ t.me.resv = 0 ∧ t.me.req = 0 ∧ t.me.dc = 0 ∧
      t.me.mc = 0 ∧ (t.part p).po = (s.part p).po - s.me.resv) ∧
    (∃ t, exec (.rfill rd) s = .next t ∧ WritesReg s t rd (BitVec.ofNat 64 ((s.part p).pf / 2^16))) ∧
    ((s.part p).pf / 2^16 ≤ n → ∃ t, exec (.rwait ra) s = .next t ∧ Nothing s t) ∧
    (n < (s.part p).pf / 2^16 → ∃ t, exec (.rwait ra) s = .next t ∧ Waits s t (.fill n)) ∧
    (∀ lv : BitVec 2, (lv = 0 ∨ (s.me.resv ≠ 0 ∧ (s.part p).pf < (s.part p).pcap * 2^16)) →
      ∃ t, exec (.sprint lv) s = .next t ∧ SameBytes s t ∧ t.me = { s.me with req := lv } ∧
        (∀ u, u ≠ s.cur → t.thread u = s.thread u)) ∧
    (∀ lv : BitVec 2, lv ≠ 0 → s.me.resv = 0 → s.me.inh = false →
      ∃ t, exec (.sprint lv) s = .next t ∧ TakesTrap s t ⟨.nores, lv.setWidth 64, 0, 0, 0xFF⟩)) ∧
  (∀ (s : State) (c n d : Nat) (records : List Word),
    (∃ t, exec .drainStep s = .next t ∧ SameBytes s t ∧ t.fill = s.fill - s.drain ∧ t.threads = s.threads ∧
      ∀ p, s.partExists p = true → t.part p = { s.part p with pf := (s.part p).pf - (s.part p).rate }) ∧
    (∃ t, exec (.drainMeasure n) s = .next t ∧ SameBytes s t ∧ t.drain = n ∧ t.threads = s.threads ∧
      ∀ p, s.partExists p = true → (t.part p).rate = if (s.part p).fixed ∨ s.shareSum ≤ n * 2^15 then (s.part p).share
        else (s.part p).share * (n * 2^15) / s.shareSum) ∧
    ((s.coreAt c).level = 0 → ∃ t, exec (.meterTick c n) s = .next t ∧ OnlyCore s t c ∧
      t.coreAt c = { s.coreAt c with meterRate := 0 }) ∧
    ((s.coreAt c).level ≠ 0 → ∀ r, r = (s.coreAt c).residue + (n - (s.part (s.tagOf c)).allowance) *
        2^(s.part (s.tagOf c)).k * 2^16 / 2000 → r < 2^16 →
      ∃ t, exec (.meterTick c n) s = .next t ∧ OnlyCore s t c ∧ (t.coreAt c).residue = r) ∧
    (∃ t, exec .sluiceEvaluation s = .next t ∧ SameBytes s t ∧ (15 * 2^36 ≤ s.fill → t.sluiceClosed = true) ∧
      (s.fill < 7 * 2^37 → t = { s with sluiceClosed := false })) ∧
    (n ≤ 3200000 → ∃ t, exec (.powerLimitCut n) s = .next t ∧ Nothing s t) ∧
    (3200000 < n → s.sprintSum < ((n - 3200000) * 2^16 + 1999999) / 2000000 - s.cutNow →
      ∃ t, exec (.powerLimitCut n) s = .next t ∧ SameBytes s t ∧ ∀ k ∈ s.sprinting, (t.coreAt k).level = 0) ∧
    ((s.coreAt c).clock = (s.coreAt c).level ∨ s.voltage (s.domainOf c) < 700 + 60 * (s.coreAt c).level.toNat →
      ∃ t, exec (.levelSwitch c) s = .next t ∧ SameBytes s t ∧ t = { s with voltages := t.voltages } ∧
        t.voltage (s.domainOf c) = Max.max (s.setPoint (s.domainOf c) (·.level)) (s.setPoint (s.domainOf c) (·.clock)) ∧
        ∀ e, e ≠ s.domainOf c → t.voltage e = s.voltage e) ∧
    ((s.coreAt c).clock ≠ (s.coreAt c).level → 700 + 60 * (s.coreAt c).level.toNat ≤ s.voltage (s.domainOf c) →
      ∃ t, exec (.levelSwitch c) s = .next t ∧ OnlyCore s t c ∧
        t.coreAt c = { s.coreAt c with clock := (s.coreAt c).level }) ∧
    (∀ a q, Sparse.find? s.telemetry d = some (a, q) → (∀ p, s.Unheld p) → ∃ t, exec (.telemetryFrameWrite d n records) s = .next t ∧
      SameBytesBut s t a 4096 ∧ bytesAt t a 8 = (q + 2) % 2^64 ∧ bytesAt t (a + 8) 8 = s.now % 2^64 ∧
      bytesAt t (a + 16) 8 = s.fill % 2^64 ∧ t.threads = s.threads) ∧
    (coreArray n = true → ∃ t, exec (.voltageDroop n) s = .next t ∧ t = { s with droop := t.droop } ∧ n ∈ t.droop) ∧
    (∃ t, exec (.voltageRecovery n) s = .next t ∧ t = { s with droop := t.droop } ∧ n ∉ t.droop) ∧
    (n < 47 → ∃ t, exec (.currentLimit n) s = .next t ∧ t = { s with limited := t.limited } ∧ n ∈ t.limited) ∧
    (∃ t, exec (.currentLimitRelease n) s = .next t ∧ t = { s with limited := t.limited } ∧ n ∉ t.limited) ∧
    (∃ t, exec .ptpInputLock s = .next t ∧ t = { s with ptpLocked := true }) ∧
    (s.ptpLocked = true → ∃ t, exec .ptpInputLoss s = .next t ∧ SameBytes s t ∧ t.ptpLocked = false ∧
      t.errorCount = s.errorCount + 1 ∧ t.threads = s.threads))

/-! The vector unit. -/

/-- R219 to R221: every V-format word becomes a queue entry; with 16 entries queued its thread waits for a slot. Its length is
VL when it names no bound stream, else the smallest bound. No register, flag or byte changes. -/
def Obligations.VectorWordsQueue : Prop :=
  ∀ (s : State) (i : Instr) (h : VShape), i.vshape = some h → i.vectorMemory = none →
    (∀ vd ra rb, i ≠ .vmovxVx vd ra rb) →
    ((s.coreAt s.here).vqueue.length < 16 → ∃ t, exec i s = .next t ∧ Enqueues s t i 0 0 []) ∧
    (16 ≤ (s.coreAt s.here).vqueue.length → ∃ t, exec i s = .next t ∧ Waits s t (.queueRoom 1)) ∧
    ((∀ v ∈ i.vregs, bindOf s.bindsNow.toList v = none) → lengthInForce s.vlNow s.bindsNow.toList i.vregs = s.vlNow) ∧
    (∀ v ∈ i.vregs, ∀ b, bindOf s.bindsNow.toList v = some b →
      lengthInForce s.vlNow s.bindsNow.toList i.vregs ≤ b.bound ∧
      ∃ w ∈ i.vregs, ∃ d, bindOf s.bindsNow.toList w = some d ∧
        lengthInForce s.vlNow s.bindsNow.toList i.vregs = d.bound)

/-- R235: a vector load or store whose elements all lie aligned in the own open scratchpad is queued with the addresses: x[ra]
+ x[rb] + i * e contiguous, x[ra] + i * x[rb] strided, base + slot * size + x[rb] + i * e in a flume's head or tail slot. The
first lane that fails raises ACCESS, MISALIGN or FARORD with its address and LANE. -/
def Obligations.VectorMemoryWords : Prop :=
  ∀ (s : State) (v : VReg) (ra rb : Reg) (el : Elem) (n e : Nat) (a b : Word), s.x ra = a → s.x rb = b → e = el.bytes →
    n = lengthInForce s.vlNow s.bindsNow.toList [v] * (4 / e) → (s.coreAt s.here).vqueue.length < 16 →
    (∀ p ∈ ([(.vld v ra rb el, false, fun i => a + b + BitVec.ofNat 64 (i * e)),
        (.vst v ra rb el, true, fun i => a + b + BitVec.ofNat 64 (i * e)),
        (.vlds v ra rb el, false, fun i => a + BitVec.ofNat 64 i * b),
        (.vsts v ra rb el, true, fun i => a + BitVec.ofNat 64 i * b)] : List (Instr × Bool × (Nat → Word))),
      (GoodLanes s p.2.1 e ((List.range n).map p.2.2) →
        ∃ t, exec p.1 s = .next t ∧
          Enqueues s t p.1 a b ((List.range n).map (fun i => spadKey s.here ((p.2.2 i).toNat % 2^51)))) ∧
      (∀ i < n, (∀ j < i, GoodLanes s p.2.1 e [p.2.2 j]) → s.me.inh = false →
        ((classify (p.2.2 i) = .refused ∧ isRankForm (p.2.2 i) = false ∨ (∃ o, classify (p.2.2 i) = .slot o) ∨
            ∃ o, classify (p.2.2 i) = .spad o ∧ 0xF8000 < o + e) →
          ∃ t, exec p.1 s = .next t ∧ TakesTrap s t ⟨.access, p.2.2 i, 0, 0, BitVec.ofNat 8 i⟩) ∧
        (∀ o, classify (p.2.2 i) = .spad o → o + e ≤ 0xF8000 → (p.2.2 i).toNat % e ≠ 0 →
          ∃ t, exec p.1 s = .next t ∧ TakesTrap s t ⟨.misalign, p.2.2 i, 0, 0, BitVec.ofNat 8 i⟩) ∧
        ((isRankForm (p.2.2 i) = true ∨ ∃ d, classify (p.2.2 i) = .home d) → (p.2.2 i).toNat % e ≠ 0 →
          ∃ t, exec p.1 s = .next t ∧ TakesTrap s t ⟨.misalign, p.2.2 i, 0, 0, BitVec.ofNat 8 i⟩) ∧
        ((isRankForm (p.2.2 i) = true ∨ ∃ d, classify (p.2.2 i) = .home d) → (p.2.2 i).toNat % e = 0 →
          ∃ t, exec p.1 s = .next t ∧ TakesTrap s t ⟨.farord, p.2.2 i, 0, 0, BitVec.ofNat 8 i⟩))) ∧
    (∀ p ∈ ([(.vldf v ra rb el, false), (.vstf v ra rb el, true)] : List (Instr × Bool)),
      (a.toNat ≤ 15 → ∀ f, f = s.flume (BitVec.ofNat 4 a.toNat) →
        (f.configured = true → b.toNat + n * e ≤ f.size → ∀ g : Nat → Word,
          (∀ i, g i = BitVec.ofNat 64 (15 * 2^51 + f.base + (if p.2 then f.tail else f.head) * f.size + b.toNat + i * e)) →
          GoodLanes s p.2 e ((List.range n).map g) →
          ∃ t, exec p.1 s = .next t ∧
            Enqueues s t p.1 a b ((List.range n).map (fun i => spadKey s.here ((g i).toNat % 2^51)))) ∧
        (f.configured = false → s.me.inh = false →
          ∃ t, exec p.1 s = .next t ∧ TakesTrap s t ⟨.flume, a, 0, 0, 0xFF⟩) ∧
        (f.configured = true → f.size < b.toNat + n * e → s.me.inh = false →
          ∃ t, exec p.1 s = .next t ∧ TakesTrap s t ⟨.flume, a, b, 0, 0xFF⟩)) ∧
      (15 < a.toNat → s.me.inh = false → ∃ t, exec p.1 s = .next t ∧ TakesTrap s t ⟨.flume, a, a, 0, 0xFF⟩))

/-- R227 to R230: VSETL gives VL and x[rd] the smaller of x[ra] and 32. VLOOP with a count that is not 0 queues the thread's
last k entries as one loop entry of that many passes, and with 0 does nothing. VMOVX.XV reads a lane once no earlier entry
that writes the register is queued; VMOVX.VX queues an entry with the value and the lane. A bound stream register raises
FLUME. R232, R233: SBIND of a free stream register that no entry names, to a configured flume whose slots are whole multiples
of 4b and that no stream is bound to, binds it with both offsets 0. SUNBIND of a bound one closes its stream, popping the
partly read slot and producing the partly written one, and unbinds it; of an unbound one it does nothing. -/
def Obligations.VectorControl : Prop :=
  (∀ (s : State) (rd ra rb : Reg) (v : VReg) (k : BitVec 6),
    (∀ n, n = min (s.x ra).toNat 32 → ∃ t, exec (.vsetl rd ra) s = .next t ∧ OnlyThread s t s.cur ∧
      t.me = { s.me with vl := n, regs := t.me.regs } ∧ RegsSet s.me.regs t.me.regs rd (BitVec.ofNat 64 n)) ∧
    (∀ n, n = (s.x ra).toNat % 2^32 →
      (n = 0 → ∃ t, exec (.vloop ra k) s = .next t ∧ Nothing s t) ∧
      (n ≠ 0 → 16 ≤ (s.coreAt s.here).vqueue.length → ∃ t, exec (.vloop ra k) s = .next t ∧ Waits s t (.queueRoom 1)) ∧
      (n ≠ 0 → (s.coreAt s.here).vqueue.length < 16 → ∃ t q, exec (.vloop ra k) s = .next t ∧
        t = { s with cores := t.cores, nextId := s.nextId + 1 } ∧ SameBytes s t ∧
        (∀ c, c ≠ s.here → t.coreAt c = s.coreAt c) ∧
        t.coreAt s.here = { s.coreAt s.here with vqueue := (s.coreAt s.here).vqueue ++ [q] } ∧
        q.isLoop = true ∧ q.passes = n ∧ q.pos = 0 ∧ q.done = false ∧ q.thread = s.cur ∧
        (∃ l, s.me.replay = l ++ q.body ∧ (q.body.length = k.toNat ∨ (l = [] ∧ q.body.length ≤ k.toNat))))) ∧
    (bindOf (s.coreAt s.here).binds.toList v = none →
      (s.writerBefore s.here v.toNat s.nextId = false →
        ∃ t, exec (.vmovxXv rd ra v) s = .next t ∧
          WritesReg s t rd (BitVec.ofNat 64 (s.vreg s.here v / 2^(32 * ((s.x ra).toNat % 32)) % 2^32))) ∧
      (s.writerBefore s.here v.toNat s.nextId = true → s.me.woke = none →
        ∃ t, exec (.vmovxXv rd ra v) s = .next t ∧ SameBytes s t ∧
          t.me = { s.me with status := .blocked (.vwriter v.toNat s.nextId) s.now, flow := .waits })) ∧
    (bindOf s.bindsNow.toList v = none → (s.coreAt s.here).vqueue.length < 16 →
      ∃ t, exec (.vmovxVx v ra rb) s = .next t ∧
        Enqueues s t (.vmovxVx v ra rb) (BitVec.ofNat 64 ((s.x ra).toNat % 2^32)) (BitVec.ofNat 64 ((s.x rb).toNat % 32)) []) ∧
    (∀ b, s.me.inh = false →
      (bindOf (s.coreAt s.here).binds.toList v = some b → ∃ t, exec (.vmovxXv rd ra v) s = .next t ∧
        TakesTrap s t ⟨.flume, b.fl.setWidth 64, v.setWidth 64, 0, 0xFF⟩) ∧
      (bindOf s.bindsNow.toList v = some b → ∃ t, exec (.vmovxVx v ra rb) s = .next t ∧
        TakesTrap s t ⟨.flume, b.fl.setWidth 64, v.setWidth 64, 0, 0xFF⟩))) ∧
  (∀ (s : State) (w : BitVec 2) (v : VReg) (ra : Reg) (fl : BitVec 4) (f : Flume) (b : Nat), v.toNat = 28 + w.toNat →
    f = s.flume fl → b = (s.x ra).toNat % 2^32 →
    (f.configured = true → 0 < b → b ≤ 32 → f.size % (4 * b) = 0 → bindOf (s.coreAt s.here).binds.toList v = none →
      (∀ x d, bindOf (s.coreAt s.here).binds.toList x = some d → d.fl ≠ fl) → s.namedInQueue s.here v.toNat = false →
      ∃ t, exec (.sbind w ra fl) s = .next t ∧ OnlyCore s t s.here ∧
        bindOf (t.coreAt s.here).binds.toList v = some ⟨fl, b, 0, 0, s.me.launch⟩ ∧
        (∀ x, x ≠ v → bindOf (t.coreAt s.here).binds.toList x = bindOf (s.coreAt s.here).binds.toList x) ∧
        (t.coreAt s.here).vregs = (s.coreAt s.here).vregs ∧ (t.coreAt s.here).flumes = (s.coreAt s.here).flumes) ∧
    (f.configured = false → s.me.inh = false → ∃ t, exec (.sbind w ra fl) s = .next t ∧
      TakesTrap s t ⟨.flume, fl.setWidth 64, 0, 0, 0xFF⟩) ∧
    (f.configured = true → (b = 0 ∨ 32 < b) → s.me.inh = false → ∃ t, exec (.sbind w ra fl) s = .next t ∧
      TakesTrap s t ⟨.flume, fl.setWidth 64, BitVec.ofNat 64 b, 0, 0xFF⟩) ∧
    (bindOf (s.coreAt s.here).binds.toList v = none → ∃ t, exec (.sunbind w) s = .next t ∧ Nothing s t) ∧
    (∀ d, bindOf (s.coreAt s.here).binds.toList v = some d → s.namedInQueue s.here v.toNat = false →
      ∃ t, exec (.sunbind w) s = .next t ∧ OnlyCore s t s.here ∧
        bindOf (t.coreAt s.here).binds.toList v = none ∧
        (∀ x, x ≠ v → bindOf (t.coreAt s.here).binds.toList x = bindOf (s.coreAt s.here).binds.toList x) ∧
        (t.coreAt s.here).vregs = (s.coreAt s.here).vregs ∧ (∀ g, g ≠ d.fl → t.flume g = s.flume g) ∧
        (d.ro = 0 → d.wo = 0 → t.flume d.fl = s.flume d.fl) ∧
        (d.ro ≠ 0 → d.wo = 0 → 0 < (s.flume d.fl).filled → t.flume d.fl = { s.flume d.fl with
          head := ((s.flume d.fl).head + 1) % 2^(s.flume d.fl).k, filled := (s.flume d.fl).filled - 1 }) ∧
        (d.ro = 0 → d.wo ≠ 0 → (s.flume d.fl).filled < 2^(s.flume d.fl).k → t.flume d.fl = { s.flume d.fl with
          tail := ((s.flume d.fl).tail + 1) % 2^(s.flume d.fl).k, filled := (s.flume d.fl).filled + 1 })))

/-- R219, R221, R223, R228, R236, R237, R240 to R250: the entry under way at the head of a queue, its registers ordinary and
unheld, writes the lanes of its function to vd and leaves the other lanes, or loads or stores its elements; a byte that several
elements store to holds that of the last lane. Then the item goes on to its next entry, a loop's last entry to the next pass, and
the last entry of the last pass ends it. R231: a source bound to a stream takes the element at the head slot and moves the
binding's offset, and the flume's head past a slot that is read whole; a destination bound to one stores its bytes in the tail
slot in the same way. With no filled, or no free, slot the entry stays and writes nothing. VECTOR_ENTRY_RETIRE ORs a done item's
flags into its thread's FCSR. An SFU entry first goes to the cluster's queue, in order. -/
def Obligations.VectorEntries : Prop :=
  ∀ (s : State) (c : Nat) (q : VItem) (r : List VItem), (s.coreAt c).vqueue = q :: r →
    (∀ (e : VEntry) (h : VShape), q.body[q.pos]? = some e → q.done = false → e.word.vshape = some h →
      e.old = none → e.got = [] → e.part = [] → (∀ x ∈ (s.coreAt c).holds, x.v ∉ e.word.vregs) →
      (∀ y ∈ r.head?, ∀ d ∈ y.body, d.old = none ∨ ∀ v, bindOf d.binds v = none) →
      ((∀ v, bindOf e.binds v = none) →
      (∀ o v, e.word.vcompute (s.plainInput c e h) = some o → h.dest = some v →
        (e.word.isSfu = false ∨ (q.sent = true ∧ s.sfu.find? (fun x => x.1 == c / 4) = some (c / 4, c))) →
        ∃ t p, exec (.vectorEntryExecute c) s = .next t ∧ SameBytes s t ∧ (t.coreAt c).vqueue.head? = some p ∧
          Advances q p o.flags ∧
          (t.coreAt c).vregs = (s.coreAt c).vregs.set v.toNat
            (BitVec.ofNat 1024 (writeLanes o.width (s.vreg c v) o.lanes)) v.isLt ∧
          (t.thread e.thread).lfsr = (if e.seed = none then o.lfsr else (s.thread e.thread).lfsr) ∧ (∀ u, u ≠ e.thread → t.thread u = s.thread u)) ∧
      (∀ v ra rb, e.word = .vmovxVx v ra rb → ∃ t p, exec (.vectorEntryExecute c) s = .next t ∧ SameBytes s t ∧
        (t.coreAt c).vqueue.head? = some p ∧ Advances q p 0 ∧ t.threads = s.threads ∧ ∀ l < 32,
          laneAt 32 (t.vreg c v) l = if l = e.xb.toNat then e.xa.toNat % 2^32 else laneAt 32 (s.vreg c v) l) ∧
      (∀ b, e.word.vectorMemory = some (b, false) → s.accessWaits e q.age = false → s.watchers = [] →
        (∀ a ∈ e.addrs, s.poisoned a b = false) → ∀ v, h.dest = some v →
        ∃ t p, exec (.vectorEntryExecute c) s = .next t ∧ SameBytes s t ∧ (t.coreAt c).vqueue.head? = some p ∧
          Advances q p 0 ∧ t.threads = s.threads ∧
          (t.coreAt c).vregs = (s.coreAt c).vregs.set v.toNat
            (BitVec.ofNat 1024 (writeLanes (8 * b) (s.vreg c v) (e.addrs.map (fun a => bytesAt s a b)))) v.isLt) ∧
      (∀ b v, e.word.vectorMemory = some (b, true) → s.accessWaits e q.age = false → s.watchers = [] → h.srcD = some v →
        ∃ t p, exec (.vectorEntryExecute c) s = .next t ∧ (t.coreAt c).vqueue.head? = some p ∧ Advances q p 0 ∧
          t.threads = s.threads ∧ (t.coreAt c).vregs = (s.coreAt c).vregs ∧
          (∀ i a k, e.addrs[i]? = some a → k < b → (∀ j x, i < j → e.addrs[j]? = some x → a + k < x ∨ x + b ≤ a + k) →
            (Memory.read t.mem (a + k)).toNat = laneAt (8 * b) (s.vreg c v) i / 256^k % 256) ∧
          ∀ k, (∀ a ∈ e.addrs, k < a ∨ a + b ≤ k) → Memory.read t.mem k = Memory.read s.mem k) ∧
      (e.word.isSfu = true → q.sent = false → ∃ t p, exec (.sfuRequest c) s = .next t ∧ SameBytes s t ∧
        t.threads = s.threads ∧ t.sfu = s.sfu ++ [(c / 4, c)] ∧ (t.coreAt c).vregs = (s.coreAt c).vregs ∧
        (t.coreAt c).vqueue.head? = some p ∧ p.sent = true ∧ p.done = false)) ∧
      (∀ (v d : VReg) (hold : Bool) (b : Bind) (f : Flume) (n : Nat), e.word.isSfu = false → e.word.vectorMemory = none → s.watchers = [] →
        h.dest = some d → h.srcD = none → h.srcB = none → h.srcA = some (v, hold) → f = flumeOf (s.coreAt c).flumes b.fl.toNat →
        (∀ x, bindOf e.binds x = bindOf (s.coreAt c).binds.toList x) → b.bound ≤ 32 →
        (bindOf e.binds v = some b → bindOf e.binds d = none → n = b.ro + 4 * b.bound →
          (f.filled = 0 → ∃ t, exec (.vectorEntryExecute c) s = .next t ∧ StaysAt s t c q) ∧
          (∀ a o, 0 < f.filled → a = spadKey c (f.base + f.head * f.size + b.ro) →
            (∀ k < b.bound, s.poisoned (a + 4 * k) 4 = false) →
            e.word.vcompute ⟨e.len, ofLanes 32 ((List.range b.bound).map (fun k => bytesAt s (a + 4 * k) 4)), 0, 0,
              e.seed.getD (s.thread e.thread).lfsr⟩ = some o →
            ∃ t p, exec (.vectorEntryExecute c) s = .next t ∧ SameBytes s t ∧ (t.coreAt c).vqueue.head? = some p ∧
              Advances q p o.flags ∧ (t.coreAt c).vregs = (s.coreAt c).vregs.set d.toNat
                (BitVec.ofNat 1024 (writeLanes o.width (s.vreg c d) o.lanes)) d.isLt ∧
              bindOf (t.coreAt c).binds.toList v = some { b with ro := if f.size ≤ n then 0 else n } ∧
              flumeOf (t.coreAt c).flumes b.fl.toNat
                = if f.size ≤ n then { f with head := (f.head + 1) % 2^f.k, filled := f.filled - 1 } else f)) ∧
        (bindOf e.binds d = some b → bindOf e.binds v = none → n = b.wo + 4 * b.bound →
          ∀ o, e.word.vcompute (s.plainInput c e h) = some o →
          (2^f.k ≤ f.filled → ∃ t, exec (.vectorEntryExecute c) s = .next t ∧ StaysAt s t c q) ∧
          (∀ a, f.filled < 2^f.k → a = spadKey c (f.base + f.tail * f.size + b.wo) →
            ∃ t p, exec (.vectorEntryExecute c) s = .next t ∧ SameBytesBut s t a (4 * b.bound) ∧
              Memory.readBytes t.mem a (4 * b.bound) = leBytes (ofLanes o.width o.lanes) (4 * b.bound) ∧
              (t.coreAt c).vqueue.head? = some p ∧ Advances q p o.flags ∧ (t.coreAt c).vregs = (s.coreAt c).vregs ∧
              bindOf (t.coreAt c).binds.toList d = some { b with wo := if f.size ≤ n then 0 else n } ∧
              flumeOf (t.coreAt c).flumes b.fl.toNat
                = if f.size ≤ n then { f with tail := (f.tail + 1) % 2^f.k, filled := f.filled + 1 } else f)))) ∧
    (q.done = true → ∃ t, exec (.vectorEntryRetire c) s = .next t ∧ SameBytes s t ∧
      (t.coreAt c).vqueue.length = r.length ∧ (t.coreAt c).vregs = (s.coreAt c).vregs ∧
      t.thread q.thread = { s.thread q.thread with fcsr := (s.thread q.thread).fcsr ||| q.flags.setWidth 11 } ∧
      ∀ u, u ≠ q.thread → t.thread u = s.thread u) ∧
    (q.done = false → ∃ t, exec (.vectorEntryRetire c) s = .next t ∧ Nothing s t)

/-- R221, R241, R248: lane by lane, the integer functions and the permutations of the vector unit, with w the lane width and
each lane read as the rule says. -/
def Obligations.VectorLanes : Prop :=
  ∀ (x : VIn) (vd va vb : VReg) (ha hb : Bool),
    (∀ (ty : IntTy) (w : Nat), w = ty.width →
      ∀ p ∈ ([(.vintVadd vd va vb ha hb ty, fun a b => (a + b) % 2^w), (.vintVsub vd va vb ha hb ty, fun a b => (2^w + a - b) % 2^w),
        (.vintVmul vd va vb ha hb ty, fun a b => a * b % 2^w),
        (.vintVminu vd va vb ha hb ty, fun a b => min a b), (.vintVmaxu vd va vb ha hb ty, fun a b => max a b),
        (.vintVand vd va vb ha hb ty, fun a b => a &&& b), (.vintVor vd va vb ha hb ty, fun a b => a ||| b),
        (.vintVxor vd va vb ha hb ty, fun a b => a ^^^ b),
        (.vintVsll vd va vb ha hb ty, fun a b => a * 2^(b % w) % 2^w), (.vintVsrl vd va vb ha hb ty, fun a b => a / 2^(b % w)),
        (.vintVmin vd va vb ha hb ty, fun a b => if (BitVec.ofNat w b).slt (BitVec.ofNat w a) then b else a),
        (.vintVmax vd va vb ha hb ty, fun a b => if (BitVec.ofNat w a).slt (BitVec.ofNat w b) then b else a),
        (.vintVsra vd va vb ha hb ty, fun a b => ((BitVec.ofNat w a).sshiftRight (b % w)).toNat),
        (.vintVadds vd va vb ha hb ty, fun a b => (BitVec.ofInt w (max (-2^(w - 1)) (min (2^(w - 1) - 1)
          ((BitVec.ofNat w a).toInt + (BitVec.ofNat w b).toInt)))).toNat),
        (.vintVsubs vd va vb ha hb ty, fun a b => (BitVec.ofInt w (max (-2^(w - 1)) (min (2^(w - 1) - 1)
          ((BitVec.ofNat w a).toInt - (BitVec.ofNat w b).toInt)))).toNat)] : List (Instr × (Nat → Nat → Nat))),
        ∃ o, p.1.vcompute x = some o ∧ o.width = w ∧ o.flags = 0 ∧ o.lfsr = x.lfsr ∧ o.lanes.length = x.len * (32 / w) ∧
          ∀ j v, o.lanes[j]? = some v → v = p.2 (x.a / 2^(w * j) % 2^w) (x.b / 2^(w * j) % 2^w)) ∧
    (∀ (ty : MoveTy) (w : Nat), w = ty.width →
      ∀ p ∈ ([(.vsel vd va vb ha hb ty, fun j => if (x.d / 2^(w * j)) % 2^w < 2^(w - 1) then x.b / 2^(w * j) % 2^w else x.a / 2^(w * j) % 2^w),
        (.vshuf vd va vb ha hb ty, fun j => x.a / 2^(w * (x.b / 2^(w * j) % 2^w % (1024 / w))) % 2^w),
        (.vbcast vd va ha ty, fun _ => x.a % 2^w)] : List (Instr × (Nat → Nat))),
        ∃ o, p.1.vcompute x = some o ∧ o.width = w ∧ o.flags = 0 ∧ o.lanes.length = x.len * (32 / w) ∧
          ∀ j v, o.lanes[j]? = some v → v = p.2 j)

/-! The MXU. -/

/-- R253: an enqueuing store, a double at 0x38 of the command slot, of a record whose fields pass their checks, with the
thread's stores and vector accesses done, room in the queue and, without NC, in the FIFO, appends the command with the CSRs as
they are and draws a ticket and a completion entry unless NC is set; no byte of memory changes. A malformed field raises MXQ
with its offset, and nothing is queued. -/
def Obligations.EnqueuingStores : Prop :=
  ∀ (s : State) (rs ra : Reg) (imm : BitVec 9) (nt g : Bool) (va : Word) (r : MxRecord),
    va = BitVec.ofInt 64 ((s.x ra).toInt + imm.toInt * 8) → classify va = .slot 0x38 → va.toNat % 8 = 0 → s.me.buffer = [] →
    s.vectorMemoryBusy s.cur = false → r = parseMx (s.me.stagingImage (s.x rs)) →
    (r.firstBad s.mxView = none → (s.coreAt s.here).mxqueue.length < 8 → (r.nc = true ∨ s.me.fifo.length + s.me.reserved < 64) →
      Unwatched s (s.asWatched .store) va 8 →
      ∃ t q, exec (.store rs ra imm .d nt g) s = .next t ∧ t = { s with threads := t.threads, cores := t.cores } ∧ SameBytes s t ∧
        (∀ u, u ≠ s.cur → t.thread u = s.thread u) ∧ (∀ c, c ≠ s.here → t.coreAt c = s.coreAt c) ∧
        t.coreAt s.here = { s.coreAt s.here with mxqueue := (s.coreAt s.here).mxqueue ++ [q] } ∧
        t.me = { s.me with staging := s.me.staging.set 7 (s.x rs),
                           ticket := if r.nc then s.me.ticket else s.me.ticket + 1,
                           reserved := if r.nc then s.me.reserved else s.me.reserved + 1 } ∧
        q.code = r.code ∧ q.nc = r.nc ∧ q.tag = r.tag ∧ q.acc = r.acc ∧ q.fa = r.fa ∧ q.fb = r.fb ∧ q.ks = r.ks ∧
        q.row0 = r.row0 ∧ q.rows = r.rows ∧ q.off = r.off ∧ q.thread = s.cur ∧ q.ticket = s.me.ticket ∧
        q.fmtA = s.me.mxfmta.toNat ∧ q.fmtB = s.me.mxfmtb.toNat ∧ q.out = s.me.mxout.toNat ∧ q.begun = false ∧ q.step = 0) ∧
    (∀ off, r.firstBad s.mxView = some off → s.me.inh = false →
      ∃ t, exec (.store rs ra imm .d nt g) s = .next t ∧ TakesTrap s t ⟨.mxq, va, BitVec.ofNat 64 off, 0, 0xFF⟩)

/-- R259 to R265: MX_ZERO, MX_LOAD, MX_STORE, MX_FENCE and MX_SCALEBAND act on the command of their code at the head of the
core's queue. ZERO: every element 0. LOAD and STORE, of the scratchpad at OFF or of a flume's slot, which a begun one keeps:
rows ROW0 on from the scratchpad up to a row that holds an error (UE), or to it in the format of MXOUT: FP32, BF16, dense FP8
or records; the slot is popped or produced, and without one to begin with the command waits. FENCE: the thread's suppressed
commands counted. SCALEBAND: every element scaled by its bands, none where a band holds an error, which counts 0 (DESIGN
CHOICE, log entry 82). The command retires with its completion. Other accumulators, rows and bytes are as before. -/
def Obligations.MatrixCommands : Prop :=
  ∀ (s : State) (c : Nat) (q : MxCmd) (rest : List MxCmd) (f : Flume) (a : Nat), (s.coreAt c).mxqueue = q :: rest →
    f = flumeOf (s.coreAt c).flumes q.fa → (q.fl = false → a = spadKey c q.off) →
    (q.fl = true → q.fa < 16 ∧ a = spadKey c (f.base + (if q.begun then q.headA else if q.code = 4 then f.head else f.tail) * f.size)) →
    (q.code = 3 → ∃ t, exec (.mxZero c) s = .next t ∧ SameBytes s t ∧ MxDone s t c q rest 0 1 0 0 ∧
      (∀ i < 128, ∀ j < 128, (t.coreAt c).acc q.acc i j = 0) ∧
      (∀ n, n ≠ q.acc → ∀ i < 128, ∀ j < 128, (t.coreAt c).acc n i j = (s.coreAt c).acc n i j) ∧
      (t.coreAt c).flumes = (s.coreAt c).flumes ∧ (∀ u, u ≠ q.thread → t.thread u = s.thread u)) ∧
    (q.code = 4 → q.row0 + q.rows ≤ 128 → q.step ≤ q.rows → s.watchers = [] →
      (q.fl = true → q.begun = false → f.filled = 0 → ∃ t, exec (.mxLoad c) s = .next t ∧ Nothing s t) ∧
      ((q.fl = true → q.begun = false → 0 < f.filled) → ∀ n, q.step ≤ n → n ≤ q.rows →
        (∀ r, q.step ≤ r → r < n → s.poisoned (a + 512 * r) 512 = false) →
        (n < q.rows → s.poisoned (a + 512 * n) 512 = true) →
        ∃ t, exec (.mxLoad c) s = .next t ∧ SameBytes s t ∧
          MxDone s t c q rest (if n < q.rows then 6 else 0) n (if q.fl ∧ f.filled = 0 then 1 else 0) 0 ∧
          (∀ r, q.step ≤ r → r < n → ∀ j < 128, (t.coreAt c).acc q.acc (q.row0 + r) j = bytesAt s (a + 512 * r + 4 * j) 4) ∧
          (∀ i < 128, (i < q.row0 + q.step ∨ q.row0 + n ≤ i) → ∀ j < 128,
            (t.coreAt c).acc q.acc i j = (s.coreAt c).acc q.acc i j) ∧
          (∀ m, m ≠ q.acc → ∀ i < 128, ∀ j < 128, (t.coreAt c).acc m i j = (s.coreAt c).acc m i j) ∧
          (n < q.rows → ⟨.ue, spadVa ((a + 512 * n) % 2^20), 0, .spad (a + 512 * n)⟩ ∈ (t.thread q.thread).pending) ∧
          (q.fl = false → (t.coreAt c).flumes = (s.coreAt c).flumes) ∧
          (q.fl = true → 0 < f.filled → flumeOf (t.coreAt c).flumes q.fa
            = { f with head := (f.head + 1) % 2^f.k, filled := f.filled - 1 }) ∧
          (∀ u, u ≠ q.thread → t.thread u = s.thread u))) ∧
    (q.code = 5 → q.out ∈ [0, 1, 2, 3, 4, 8, 9, 10, 12] → s.watchers = [] →
      (q.fl = true → q.begun = false → 2^f.k ≤ f.filled → ∃ t, exec (.mxStore c) s = .next t ∧ Nothing s t) ∧
      ((q.fl = true → q.begun = false → f.filled < 2^f.k) → 8 * q.step ≤ q.rows * storeRowBytes q.out →
        ∃ t, exec (.mxStore c) s = .next t ∧ SameBytesBut s t a (q.rows * storeRowBytes q.out) ∧
          MxDone s t c q rest 0 q.rows (if q.fl ∧ 2^f.k ≤ f.filled then 1 else 0) (storeImage (s.coreAt c) q q.rows).2 ∧
          (q.out = 12 → (storeImage (s.coreAt c) q q.rows).2 = 0) ∧ (t.coreAt c).accs = (s.coreAt c).accs ∧
          Memory.readBytes t.mem (a + 8 * q.step) (q.rows * storeRowBytes q.out - 8 * q.step)
            = (storeImage (s.coreAt c) q q.rows).1.drop (8 * q.step) ∧
          (q.step = 0 → ∀ r < q.rows,
            (q.out = 12 → ∀ j < 128, bytesAt t (a + 512 * r + 4 * j) 4 = (s.coreAt c).acc q.acc (q.row0 + r) j) ∧
            (q.out = 8 → ∀ j < 128, bytesAt t (a + 256 * r + 2 * j) 2
              = (Fmt.f32.convert .bf16 .rne ((s.coreAt c).acc q.acc (q.row0 + r) j)).1 % 2^16) ∧
            (q.out = 9 ∨ q.out = 10 → ∀ j < 128, bytesAt t (a + 128 * r + j) 1
              = ((mxFmt q.out).toElement ((s.coreAt c).acc q.acc (q.row0 + r) j)).1 % 2^8) ∧
            (q.out ≤ 4 → ∀ n < 4, ∀ z, z = (mxFmt q.out).recordSize →
              bytesAt t (a + storeRowBytes q.out * r + n * z) z = ((mxFmt q.out).packRecord false 1
                ((List.range 32).map (fun j => (s.coreAt c).acc q.acc (q.row0 + r) (32 * n + j)))).1 % 2^(8 * z))) ∧
          (q.fl = false → (t.coreAt c).flumes = (s.coreAt c).flumes) ∧
          (q.fl = true → f.filled < 2^f.k → flumeOf (t.coreAt c).flumes q.fa
            = { f with tail := (f.tail + 1) % 2^f.k, filled := f.filled + 1 }) ∧
          (∀ u, u ≠ q.thread → t.thread u = s.thread u))) ∧
    (q.code = 6 → q.nc = false → ∃ t, exec (.mxFence c) s = .next t ∧ SameBytes s t ∧ (t.coreAt c).accs = (s.coreAt c).accs ∧
      (t.coreAt c).mxqueue = (match rest with | [] => [] | n :: r => { n with since := s.now } :: r) ∧
      (t.thread q.thread).tally = ⟨0, 0, 0⟩ ∧ (∀ u, u ≠ q.thread → t.thread u = s.thread u) ∧
      ∃ e, (t.thread q.thread).fifo = (s.thread q.thread).fifo ++ [e] ∧
        e.lo.toNat = (q.ticket.toNat + 2 * 2^16 + (s.thread q.thread).tally.status * 2^24
          + (s.thread q.thread).tally.flags.toNat * 2^32 + 6 * 2^40 + q.tag * 2^48) % 2^64 ∧
        e.hi.toNat = (s.thread q.thread).tally.count % 2^64) ∧
    (q.code = 7 → ∀ sc : Word → Nat → FVal × Bool, (∀ w h, sc w h = s.bandScale c w q.qbase h) →
      ((∀ h < 2, (sc q.bandA h).2 = false ∧ (sc q.bandB h).2 = false) →
        ∃ t fl, exec (.mxScaleband c) s = .next t ∧ SameBytes s t ∧ MxDone s t c q rest 0 1 0 fl ∧
          (∀ n, n ≠ q.acc → ∀ i < 128, ∀ j < 128, (t.coreAt c).acc n i j = (s.coreAt c).acc n i j) ∧
          (∀ i < 128, ∀ j < 128, (t.coreAt c).acc q.acc i j
            = (scaledElement (sc q.bandA (i / 64)).1 (sc q.bandB (j / 64)).1 ((s.coreAt c).acc q.acc i j)).1 % 2^32) ∧
          (∀ k < 5, fl.getLsbD k = true ↔ ∃ i < 128, ∃ j < 128,
            (scaledElement (sc q.bandA (i / 64)).1 (sc q.bandB (j / 64)).1 ((s.coreAt c).acc q.acc i j)).2.getLsbD k = true) ∧
          (q.bandA.getLsbD 63 = false → q.bandB.getLsbD 63 = false → ∀ i < 128, ∀ j < 128,
            (Fmt.f32.decode ((s.coreAt c).acc q.acc i j)).isNan = false →
            (t.coreAt c).acc q.acc i j = (s.coreAt c).acc q.acc i j)) ∧
      ((∃ h < 2, (sc q.bandA h).2 = true ∨ (sc q.bandB h).2 = true) →
        ∃ t, exec (.mxScaleband c) s = .next t ∧ SameBytes s t ∧ MxDone s t c q rest 6 0 0 0 ∧
          (t.coreAt c).accs = (s.coreAt c).accs ∧ ∃ x ∈ (t.thread q.thread).pending, x.cause = .ue))

/-- R107, R259, R263: MX_MMA or MX_MMAD begins its command at the heads of its flumes; each MX_KSTEP, once both flumes hold the
slot, makes one K-step on every element of the accumulator from the tiles of that slot (the sign of a zero sum under a band is
DEDUCED, log entry 60, the flags of a NaN beside infinities a DESIGN CHOICE, log entry 59); after KS K-steps the command
retires and pops KS slots of each flume. No byte of memory changes. -/
def Obligations.MatrixMultiplies : Prop :=
  ∀ (s : State) (c : Nat) (q : MxCmd) (rest : List MxCmd) (fa fb : Flume), (s.coreAt c).mxqueue = q :: rest →
    fa = flumeOf (s.coreAt c).flumes q.fa → fb = flumeOf (s.coreAt c).flumes q.fb →
    (∀ p ∈ ([(.mxMma c, 1), (.mxMmad c, 2)] : List (Instr × Nat)), q.code = p.2 →
      (q.begun = false → ∃ t, exec p.1 s = .next t ∧ OnlyCore s t c ∧
        t.coreAt c = { s.coreAt c with mxqueue := { q with begun := true, headA := fa.head, headB := fb.head } :: rest }) ∧
      (q.begun = true → q.ue = false → q.step = q.ks → q.ks ≤ fa.filled → q.ks ≤ fb.filled → q.fa ≠ q.fb → q.fa < 16 → q.fb < 16 →
        ∃ t, exec p.1 s = .next t ∧ SameBytes s t ∧ MxDone s t c q rest 0 q.ks 0 q.flags ∧
          (t.coreAt c).accs = (s.coreAt c).accs ∧
          flumeOf (t.coreAt c).flumes q.fa = { fa with head := (fa.head + q.ks) % 2^fa.k, filled := fa.filled - q.ks } ∧
          flumeOf (t.coreAt c).flumes q.fb = { fb with head := (fb.head + q.ks) % 2^fb.k, filled := fb.filled - q.ks }) ∧
      (q.begun = true → q.ue = false → q.step < q.ks → fa.filled ≤ q.step →
        ∃ t, exec (.mxKstep c) s = .next t ∧ Nothing s t) ∧
      (q.begun = true → q.ue = false → q.step < q.ks → q.step < fa.filled → q.step < fb.filled → s.watchers = [] →
        ∀ a b, a = spadKey c (fa.base + (q.headA + q.step) % 2^fa.k * fa.size) →
          b = spadKey c (fb.base + (q.headB + q.step) % 2^fb.k * fb.size) → s.stepError c q a b = none →
        ∃ t f, exec (.mxKstep c) s = .next t ∧ SameBytes s t ∧ t.threads = s.threads ∧
          (t.coreAt c).mxqueue = { q with step := q.step + 1, flags := q.flags ||| f, since := s.now } :: rest ∧
          (∀ n, n ≠ q.acc → ∀ i < 128, ∀ j < 128, (t.coreAt c).acc n i j = (s.coreAt c).acc n i j) ∧
          ∀ i < 128, ∀ j < 128, (t.coreAt c).acc q.acc i j =
            (kstepElement (decide (q.code = 2)) ⟨mxFmt q.fmtA, bytesAt s a (tileBytes q.fmtA)⟩
              ⟨mxFmt q.fmtB, bytesAt s b (tileBytes q.fmtB)⟩
              (fun r => (s.bandScale c q.bandA (q.qbase + q.step) r).1)
              (fun r => (s.bandScale c q.bandB (q.qbase + q.step) r).1) ((s.coreAt c).acc q.acc i j) i j).1 % 2^32))

/-! Launches. -/

/-- R295 to R298: LARM of a valid record that is not armed and passes its checks arms it, queues a launch made of the record
and gives x[rd] 0; a refused one gives the status and changes nothing else: 1 for a number above 255 or a record that is not
valid, 2 for one that is armed. Its tables are read once none of the thread's stores and PUTRs is under way (DEDUCED, log entry
74), and what a GETR of them would wait for blocks it. Each LPATCH form writes its field of a valid record that is not armed
and gives 0, or 3 when the value is out of range. -/
def Obligations.LaunchWords : Prop :=
  ∀ (s : State) (rd ra rb : Reg) (p n : Nat) (v : Word), p = s.partOf s.cur → n = (s.x ra).toNat → s.x rb = v →
    s.partExists p = true →
    (s.recordStatus p n ≠ 0 → ∃ t, exec (.larm rd ra) s = .next t ∧ WritesReg s t rd (BitVec.ofNat 64 (s.recordStatus p n))) ∧
    (255 < n ∨ recordValid (s.record p n) = false → s.recordStatus p n = 1) ∧
    (n ≤ 255 → recordValid (s.record p n) = true → recordArmed (s.record p n) = true → s.recordStatus p n = 2) ∧
    (s.recordStatus p n = 0 → s.writesBusy s.cur = true → ∃ t, exec (.larm rd ra) s = .next t ∧ Waits s t .writesDone) ∧
    (s.recordStatus p n = 0 → s.writesBusy s.cur = false → 
      (∀ w, (s.armCheck (some (dieOf s.here)) p n).2 = .error w → ∃ t, exec (.larm rd ra) s = .next t ∧
        t.me.status = .blocked w s.now ∧ t.me.regs = s.me.regs ∧ t.launches = s.launches ∧ t.parts = s.parts) ∧
      ∀ st, (s.armCheck (some (dieOf s.here)) p n).2 = .ok st →
      (st ≠ 0 → ∃ t, exec (.larm rd ra) s = .next t ∧ SameBytes s t ∧ RegsSet s.me.regs t.me.regs rd (BitVec.ofNat 64 st) ∧
        t.me = { s.me with regs := t.me.regs } ∧ (∀ u, u ≠ s.cur → t.thread u = s.thread u) ∧ t.cores = s.cores ∧
        t.launches = s.launches ∧ t.parts = s.parts) ∧
      (st = 0 → s.released s.cur .pkg false = true → ∃ t, exec (.larm rd ra) s = .next t ∧ SameBytes s t ∧
        Sparse.find? t.launches s.nextId = some (launchOf s.nextId p n (s.record p n)) ∧
        recordArmed (t.record p n) = true ∧ (∀ k, k ≠ 32 * n → Sparse.get (t.part p).pool k 0 = Sparse.get (s.part p).pool k 0) ∧
        RegsSet s.me.regs t.me.regs rd 0 ∧ t.me = { s.me with regs := t.me.regs } ∧
        (∀ u, u ≠ s.cur → t.thread u = s.thread u) ∧ t.cores = s.cores)) ∧
    (∀ i ∈ ([(.lpatchPrio rd ra rb, 0, v.toNat ≤ 7, fun w : Nat => w / 4 % 8 = v.toNat ∧ w % 4 = (Sparse.get (s.part p).pool (32 * n) 0).toNat % 4 ∧
          w / 32 = (Sparse.get (s.part p).pool (32 * n) 0).toNat / 32),
        (.lpatchArg rd ra rb, 3, True, fun w => w = v.toNat),
        (.lpatchCount rd ra rb, 4, 1 ≤ v.toNat ∧ v.toNat ≤ 2^32, fun w => w = v.toNat),
        (.lpatchDone rd ra rb, 7, v.toNat % 64 = 0 ∧ ∃ d ≤ 7, classify v = .home d, fun w => w = v.toNat)] :
          List (Instr × Nat × Prop × (Nat → Prop))),
      (n ≤ 255 → recordValid (s.record p n) = true → recordArmed (s.record p n) = false →
        (i.2.2.1 → ∃ t, exec i.1 s = .next t ∧ SameBytes s t ∧ t = { s with threads := t.threads, parts := t.parts } ∧
          i.2.2.2 (Sparse.get (t.part p).pool (32 * n + i.2.1) 0).toNat ∧
          (∀ k, k ≠ 32 * n + i.2.1 → Sparse.get (t.part p).pool k 0 = Sparse.get (s.part p).pool k 0) ∧
          RegsSet s.me.regs t.me.regs rd 0 ∧ t.me = { s.me with regs := t.me.regs } ∧
          (∀ u, u ≠ s.cur → t.thread u = s.thread u)) ∧
        (¬ i.2.2.1 → ∃ t, exec i.1 s = .next t ∧ WritesReg s t rd 3)) ∧
      (255 < n ∨ recordValid (s.record p n) = false → ∃ t, exec i.1 s = .next t ∧ WritesReg s t rd 1) ∧
      (n ≤ 255 → recordValid (s.record p n) = true → recordArmed (s.record p n) = true →
        ∃ t, exec i.1 s = .next t ∧ WritesReg s t rd 2))

/-- R44, R46, R298, R299, R328: LAUNCH_START of the head of a die's queue installs it there: the die posts, and its threads
wait HALTED for indices while another die of the gang has not posted; a launch that cannot start yet changes nothing. 10 µs
after the first ballot the lowest healthy die leads, or, with a die missing and no degrade bit, the launch ends and its
threads are FREE. In host-assisted mode the monitor names the leader. R46, R358, R359: a leader posts; one that has not posted
for 20 µs fails: its die's threads become FREE and the lowest surviving die leads, or with none left the launch ends. A
quarantined die's cores take tag 63 and its threads become FREE. The monitor's spare takes the place of its cluster with the
same tags once the cluster's healthy cores have drained (R217, R321). -/
def Obligations.LaunchesStart : Prop :=
  (∀ (s : State) (p d id : Nat) (l : Launch),
    (s.headLaunch p d = some l → s.launchReady l d = false → ∃ t, exec (.launchStart p d) s = .next t ∧ Nothing s t) ∧
    (s.headLaunch p d = some l → s.launchReady l d = true → l.closed = false →
      (if l.firstBallot.isSome then l.assisted else s.electionAssisted l) = false →
      (∃ e ∈ (if l.installed = [] then l.maskDies else l.dies), e ≠ d ∧ ∀ h, (e, h) ∉ l.ballots) →
      ∃ t m, exec (.launchStart p d) s = .next t ∧ SameBytes s t ∧ Sparse.find? t.launches l.id = some m ∧
        m.installed = l.installed ++ [d] ∧ m.members = l.members ++ l.threadsOn d ∧
        m.waiting = l.waiting ++ l.threadsOn d ∧ (d, true) ∈ m.ballots ∧ m.closed = false ∧
        (∀ u ∈ l.threadsOn d, (t.thread u).status = .halted ∧ (t.thread u).launch = some l.id) ∧
        ∀ u, u ∉ l.threadsOn d → t.thread u = s.thread u) ∧
    (∀ b, Sparse.find? s.launches id = some l → l.id = id → l.closed = false → l.firstBallot = some b → b + 10000 ≤ s.now →
      l.assisted = false → l.ending = none →
      (∀ e, (e, true) ∈ l.ballots → (∀ x, (x, true) ∈ l.ballots → e ≤ x) → l.waiting = [] →
        l.halted + l.abandoned.length ≠ l.count →
        ((∀ x ∈ l.dies, (x, true) ∈ l.ballots) ∨ (l.word 0) / 2^10 % 2 = 1) →
        ∃ t m, exec (.electionTimeout id) s = .next t ∧ SameBytes s t ∧ t.threads = s.threads ∧
          Sparse.find? t.launches id = some m ∧ m.leader = some e ∧ m.closed = true ∧ m.postedAt = s.now) ∧
      ((∃ x ∈ l.dies, (x, true) ∉ l.ballots) → (l.word 0) / 2^10 % 2 = 0 → l.counter = 0 → l.leader = none →
        ∃ t, exec (.electionTimeout id) s = .next t ∧ Sparse.find? t.launches id = none ∧
          ∀ u ∈ l.members, (s.thread u).launch = some id → s.away l.part (coreOf u) = false → (t.thread u).status = .free)) ∧
    (Sparse.find? s.launches id = some l → l.id = id → l.assisted = true → l.leader = none → (d, true) ∈ l.ballots →
      (l.allPosted = true ∨ (l.word 0) / 2^10 % 2 = 1) → l.waiting = [] → l.ending = none →
      l.halted + l.abandoned.length ≠ l.count →
      ∃ t m, exec (.monitorNamesLeader id d) s = .next t ∧ SameBytes s t ∧ t.threads = s.threads ∧
        Sparse.find? t.launches id = some m ∧ m.leader = some d ∧ m.closed = true ∧ m.postedAt = s.now)) ∧
  (∀ (s : State) (id d : Nat) (l : Launch),
    (Sparse.find? s.launches id = some l → l.id = id → l.leader = some d →
      (∃ t, exec (.leaderPost id) s = .next t ∧ t = { s with launches := t.launches } ∧ SameBytes s t ∧
        Sparse.find? t.launches id = some { l with postedAt := s.now }) ∧
      (s.now < l.postedAt + 20000 → ∃ t, exec (.leaderFail id) s = .next t ∧ Nothing s t) ∧
      (l.postedAt + 20000 ≤ s.now → s.electionAssisted l = false → ∃ t, exec (.leaderFail id) s = .next t ∧
        (∀ u ∈ l.members, u ∈ l.threadsOn d → (s.thread u).launch = some id → s.away l.part (coreOf u) = false →
          (t.thread u).status = .free) ∧
        ((∀ x ∈ l.dies, x = d) → s.captureHolds l = false → s.storesOut l = false → Sparse.find? t.launches id = none) ∧
        (∀ e m, e ∈ l.dies → e ≠ d → (∀ x ∈ l.dies, x ≠ d → e ≤ x) → Sparse.find? t.launches id = some m →
          m.leader = some e ∧ d ∉ m.dies))) ∧
    (d < 8 → s.launches = [] → (∀ c, s.physicalOf c < 136) → (∀ c, s.capturing c = false) → ∃ t, exec (.dieQuarantine d) s = .next t ∧
      (∀ u, u / 512 = d → (t.thread u).status = .free) ∧ (∀ u, u / 512 ≠ d → t.thread u = s.thread u) ∧
      (∀ c, c / 128 = d → t.tagOf c = 63) ∧ ∀ c, c / 128 ≠ d → t.tagOf c = s.tagOf c) ∧
    (∀ h, ∃ t, exec (.monitorNamesSpare d h) s = .next t ∧
      ((∀ e ∈ s.pendingSpare, e.key = 2 * d + h → e.named = true) → Nothing s t) ∧
      (∀ e c, s.pendingSpare.find? (fun e => e.key == 2 * d + h && !e.named) = some e → e.core = c →
        2 * d + h ∉ s.usedSpares → (∀ x ∈ s.pendingSpare, x.key = 2 * d + h → x.named = false) →
        (∀ k, k / 4 = c / 4 → s.physicalOf k = k % 128) →
        (e.healthy.all s.drained = false →
          t = { s with pendingSpare := { e with named := true } :: s.pendingSpare.erase e } ∧ SameBytes s t) ∧
        (e.healthy.all s.drained = true →
          t.pendingSpare = s.pendingSpare.erase e ∧ 2 * d + h ∈ t.usedSpares ∧
          ∀ k, k / 4 = c / 4 → t.tagOf k = s.tagOf k ∧ t.physicalOf k = 128 + k % 8))))

/-! Spore checkpoints. -/

/-- R365 to R367: SPORE of a descriptor that passes the checks gives x[rd] the next epoch, whose fields the partition's job
then holds; a refused one gives 2^63 plus the code, 1 while a spore is under way and 2 for a malformed descriptor, and nothing
else changes. In a job of several packages the word waits for the coordinating Weir's answer, unless package 0 refuses at once
(log entry 27), and x[rd] takes it. A descriptor that holds an error raises nothing: it is read as free bytes (log entry 83).
R369, R377, R381, R385, R386: the start makes the package ARMED for its epoch, or fails with ENDED when the launch is gone; a
marker is noted once, behind what its sender sent before its cut; a ready package seals, or fails with code 2 when its manifest
does not fit; a sealed one commits and its epoch is the job's last, or fails with code 2 where its header cannot be written;
PEER fails a spore under way. An event that finds nothing to do changes nothing. -/
def Obligations.SporeWordAndSteps : Prop :=
  (∀ (s : State) (rd ra : Reg) (v : Word), s.me.reply = some (.value v) → ∃ t, exec (.spore rd ra) s = .next t ∧
    OnlyThread s t s.cur ∧ RegsSet s.me.regs t.me.regs rd v ∧ t.me = { s.me with regs := t.me.regs, reply := none }) ∧
  (∀ (s : State) (rd ra : Reg) (off a p : Nat) (e : Descriptor), classify (s.x ra) = .spad off → off + 64 ≤ 0xF8000 →
    (s.x ra).toNat % 8 = 0 → a = spadKey s.here off → s.poisonedFor s.cur a 64 = false → s.me.reply = none →
    s.released s.cur .pkg false = true → p = s.partOf s.cur → s.partExists p = true →
    e = parseDescriptor (Memory.readBytes s.mem a 64) →
    (∀ code, code = s.sporeRefusal p s.me.launch e →
    ((s.part p).spore.pkg = 0 → code ≠ 0 → code < 4 ∨ (s.part p).spore.packages = 1 → ∃ t, exec (.spore rd ra) s = .next t ∧
      WritesReg s t rd (BitVec.ofNat 64 (2^63 + code))) ∧
    ((s.part p).spore.busy = true → code = 1) ∧
    ((s.part p).spore.started = false → e.ok = false → code = 2) ∧
    ((s.part p).spore.packages ≠ 1 → ((s.part p).spore.pkg ≠ 0 ∨ code = 0 ∨ 4 ≤ code) →
      ∃ t, exec (.spore rd ra) s = .next t ∧ Waits s t (.spore (Memory.readBytes s.mem a 64))) ∧
    ((s.part p).spore.packages = 1 → (s.part p).spore.pkg = 0 → code = 0 →
      ∃ t, exec (.spore rd ra) s = .next t ∧ SameBytes s t ∧
      t = { s with threads := t.threads, parts := t.parts } ∧ (∀ u, u ≠ s.cur → t.thread u = s.thread u) ∧
      t.me = { s.me with regs := t.me.regs } ∧
      RegsSet s.me.regs t.me.regs rd (BitVec.ofNat 64 ((s.part p).spore.issued + 1)) ∧
      (∀ q, q ≠ p → t.part q = s.part q) ∧
      t.part p = { s.part p with spore := { (s.part p).spore with
        issued := (s.part p).spore.issued + 1, epoch := (s.part p).spore.issued + 1, parent := e.parent, domain := e.domain
        manifest := e.manifest, manifestLen := e.manifestLen, image := e.image, imageLen := e.imageLen
        statusAddr := e.status, markers := [], launch := (s.jobLaunch p s.me.launch).map (·.id)
        record := ((s.jobLaunch p s.me.launch).map (·.record)).getD 0
        cutGen := 0, cutTime := 0, nextIndex := 0, halted := 0, used := 0, pages := [], snaps := [], capturing := []
        blocks := [], log := [], weirRecords := [], ready := false } }))) ∧
  (∀ (s : State) (rd ra : Reg) (off : Nat), classify (s.x ra) = .spad off → off + 64 ≤ 0xF8000 → (s.x ra).toNat % 8 = 0 →
    s.poisonedFor s.cur (spadKey s.here off) 64 = true → s.me.reply = none → s.released s.cur .pkg false = true →
    ∃ t, exec (.spore rd ra) s = .next t ∧ SameBytes s t ∧ t.freeCount = s.freeCount + 8 ∧ t.me.tcause = s.me.tcause ∧
      t.me.pc = s.me.pc ∧ t.me.supervisor = s.me.supervisor ∧ t.me.inh = s.me.inh) ∧
  (∀ (s : State) (p cause pkg sender c : Nat) (x : Spore), s.partExists p = true → x = (s.part p).spore →
    (x.busy = true ∨ x.cur = x.epoch → ∃ t, exec (.sporeArm p) s = .next t ∧ Nothing s t) ∧
    (x.busy = false → x.cur ≠ x.epoch →
      (∀ l k, x.launch = some k → Sparse.find? s.launches k = some l → ∃ t, exec (.sporeArm p) s = .next t ∧ SameBytes s t ∧
        t = { s with parts := t.parts } ∧
        t.part p = { s.part p with spore := { x with state := .armed, cur := x.epoch, fail := 0 } }) ∧
      ((∀ k, x.launch = some k → Sparse.find? s.launches k = none) → ∃ t, exec (.sporeArm p) s = .next t ∧ SporeFailed t p 7)) ∧
    (s.tagOf c = p → (∀ v ∈ s.saved, v.snapshot.core ≠ c) →
      (x.started = false ∨ x.state = .sealing ∨ (pkg, sender, c) ∈ x.markers ∨
          (pkg = x.pkg ∧ (x.state ≠ .capture ∨ s.uncutTo p (some (pkg, sender)) c = true)) ∨
          (pkg ≠ x.pkg ∧ s.underWay p pkg sender c = true) →
        ∃ t, exec (.markerArrival pkg sender c) s = .next t ∧ Nothing s t) ∧
      (x.started = true → x.state ≠ .sealing → (pkg, sender, c) ∉ x.markers →
        (pkg = x.pkg ∧ x.state = .capture ∧ s.uncutTo p (some (pkg, sender)) c = false) ∨
          (pkg ≠ x.pkg ∧ s.underWay p pkg sender c = false) →
        ∃ t, exec (.markerArrival pkg sender c) s = .next t ∧ SameBytes s t ∧ t = { s with parts := t.parts } ∧
          t.part p = { s.part p with spore := { x with markers := x.markers ++ [(pkg, sender, c)] } })) ∧
    (s.sealReady p = false → ∃ t, exec (.sporeSeal p) s = .next t ∧ Nothing s t) ∧
    (s.sealReady p = true → s.modes.getLsbD 5 = true → ∃ t, exec (.sporeSeal p) s = .next t ∧
      (t.part p).spore = { x with state := .sealing, ready := true, byHost := true }) ∧
    (s.sealReady p = true → s.modes.getLsbD 5 = false →
      x.manifestLen.toNat < (x.manifestBytes p x.record 0).length →
      ∃ t, exec (.sporeSeal p) s = .next t ∧ SporeFailed t p 2) ∧
    (∀ r, s.sealReady p = true → s.modes.getLsbD 5 = false →
      (x.manifestBytes p x.record 0).length ≤ x.manifestLen.toNat →
      (s.modSpore p (fun y => { y with state := .sealing, ready := true, byHost := false })).areaPut p x.manifest
        (x.manifestBytes p x.record 0) = some r →
      exec (.sporeSeal p) s = .next r ∧ (r.part p).spore = { x with state := .sealing, ready := true, byHost := false }) ∧
    (x.state ≠ .sealing ∨ x.ready = false → ∃ t, exec (.sporeCommit p) s = .next t ∧ Nothing s t) ∧
    (x.state = .sealing → x.ready = true → s.finishManifest p 1 = none →
      ∃ t, exec (.sporeCommit p) s = .next t ∧ SporeFailed t p 2) ∧
    (x.state = .sealing → x.ready = true → (s.finishManifest p 1).isSome = true → ∃ t, exec (.sporeCommit p) s = .next t ∧
      (t.part p).spore.state = .committed ∧ (t.part p).spore.last = x.epoch ∧ (t.part p).spore.ready = false ∧
      (t.part p).spore.pages = [] ∧ t.threads = s.threads ∧ t.cores = s.cores) ∧
    (x.busy = true → cause = 6 → ∃ t, exec (.sporeFail p cause) s = .next t ∧ SporeFailed t p cause ∧
      t.threads = s.threads ∧ t.cores = s.cores) ∧
    (x.busy = false ∨ cause ≠ 6 → ∃ t, exec (.sporeFail p cause) s = .next t ∧ Nothing s t))

/-- R371 to R374, R382, R384, R385: a core whose members have left the cut has its context block written at the next free
256-byte boundary of the image area (log entry 15) and is captured; a scratchpad that is poisoned at the cut, or in a log block
that nothing has written since, fails the spore with code 3 and a full image area with 2. A background copy of a page that is
all zero marks it copied without a place; a poisoned page fails the spore. -/
def Obligations.SporeCaptures : Prop :=
  ∀ (s : State) (c p : Nat) (va : Word) (x : Spore), p = s.tagOf c → s.partExists p = true → x = (s.part p).spore →
    ((∀ v ∈ s.saved, v.snapshot.core ≠ c) →
      (x.state ≠ .capture ∨ c ∉ x.capturing → ∃ t, exec (.coreCaptureDone c) s = .next t ∧ Nothing s t) ∧
      (∀ g, x.state = .capture → c ∈ x.capturing → x.snaps.find? (fun y => y.core == c) = some g → g.core = c →
        (g.leavesAt x.domain = true → ∃ t, exec (.coreCaptureDone c) s = .next t ∧ Nothing s t) ∧
        (g.leavesAt x.domain = false →
        (g.poison ≠ [] ∨ (∃ a ∈ s.poison, isSpad a = true ∧ spadCore a = c ∧ a / 256 ∉ s.blocks) →
          ∃ t, exec (.coreCaptureDone c) s = .next t ∧ SporeFailed t p 3) ∧
        (g.poison = [] → (∀ a ∈ s.poison, isSpad a = true → spadCore a = c → a / 256 ∈ s.blocks) →
          ∀ bs o, bs = contextBlock g (s.part p).priority → o = (x.used + 255) / 256 * 256 →
          (x.imageLen.toNat < o + bs.length → ∃ t, exec (.coreCaptureDone c) s = .next t ∧ SporeFailed t p 2) ∧
          (∀ z, o + bs.length ≤ x.imageLen.toNat →
            z = (s.modSpore p (fun y => { y with
              used := o + bs.length
              blocks := x.blocks ++ [(g.state.rank, x.image.toNat + o, Sha.sha256 bs, g.captured)]
              capturing := x.capturing.filter (· != c) })).areaPut p (BitVec.ofNat 64 (x.image.toNat + o)) bs →
            ∃ t, exec (.coreCaptureDone c) s = .next t ∧ (z = none → SporeFailed t p 2) ∧
              (∀ r, z = some r → c ∉ (r.part p).spore.capturing ∧ r.threads = s.threads ∧ r.cores = s.cores ∧
                (x.launch = none → t = r) ∧ ∀ l, x.launch = some l → t = r.settleLaunch l)))))) ∧
    (x.state ≠ .capture ∨ (∀ g ∈ x.pages, g.va ≠ va.toNat / 65536 * 65536 ∨ g.copied = true) →
      ∃ t, exec (.backgroundPageCopy p va) s = .next t ∧ Nothing s t) ∧
    (∀ g e2 a, x.state = .capture → x.pages.find? (fun h => h.va == va.toNat / 65536 * 65536) = some g → g.copied = false →
      g.sub = false → e2 = (Sparse.get (s.part p).s2 (g.entry.toNat / 2^16 % 2^24 * 2^16 / 2^21) 0).toNat → e2 % 4 = 3 →
      a = s2address e2 (g.entry.toNat / 2^16 % 2^24 * 2^16) → s.frameAt a = .assigned p →
      (s.poisoned a 65536 = true → ∃ t, exec (.backgroundPageCopy p va) s = .next t ∧ SporeFailed t p 3) ∧
      (s.poisoned a 65536 = false → (∀ b ∈ Memory.readBytes s.mem a 65536, b = 0) → g.refused = false →
        (∀ h ∈ x.pages, h.leaf = g.leaf → h.va = g.va) →
        ∃ t, exec (.backgroundPageCopy p va) s = .next t ∧ SameBytesBut s t g.leaf 8 ∧ t.threads = s.threads ∧
          bytesAt t g.leaf 8 / 2^7 % 4 = 2 ∧ (t.part p).spore.used = x.used ∧
          ∀ h ∈ (t.part p).spore.pages, h.va = g.va → h.copied = true ∧ h.zero = true))

/-! Scheduling and partitions. -/

/-- R310, R313 to R315: a slice whose time is over ends when another partition of the ring can run, and else begins anew. At
the superstep boundary every core of the set is saved and handed to the next partition of the ring, whose slice begins and
lasts SLICE - DEBT µs; so is one core by a forced pre-emption, and a core of a set whose switch is under way goes where that
switch goes. Until then nothing changes, and while the set is still being handed to a partition that partition gives none of it
back. -/
def Obligations.Slices : Prop :=
  ∀ (s : State) (p q c : Nat) (r : List Nat), s.partExists p = true → (∀ a b, s.tagKey a = s.tagKey b → a = b) →
    ((s.part p).next ≠ none → s.running p = true → s.takingOver p = false → (s.part p).sliceEnded = none →
      (s.part p).sliceUntil ≤ s.now →
      ((∃ y ∈ s.ring p, s.eligible y = true) → ∃ t, exec (.sliceEnd p) s = .next t ∧ SameBytes s t ∧
        t = { s with parts := t.parts } ∧
        t.part p = { s.part p with sliceEnded := some s.now, regionWait := !(s.part p).regions.isEmpty }) ∧
      ((∀ y ∈ s.ring p, s.eligible y = false) → ∃ t, exec (.sliceEnd p) s = .next t ∧ SameBytes s t ∧
        t = { s with parts := t.parts } ∧
        (t.part p).sliceUntil = s.now + ((s.part p).slice - (s.part p).debt) * 1000 ∧ (t.part p).sliceEnded = none ∧
        (t.part p).debt = (s.part p).debt - (s.part p).slice)) ∧
    (s.now < (s.part p).sliceUntil ∨ s.takingOver p = true → ∃ t, exec (.sliceEnd p) s = .next t ∧ Nothing s t) ∧
    ((s.part p).sliceEnded = none ∨ s.boundaryReady p = false →
      ∃ t, exec (.superstepSwitch p) s = .next t ∧ Nothing s t) ∧
    ((∀ y ∈ s.ring p, s.eligible y = false) → (s.part p).debt < (s.part p).slice → (s.part p).sliceEnded ≠ none →
      s.running p = true → s.boundaryReady p = true → ∃ t, exec (.superstepSwitch p) s = .next t ∧ SameBytes s t ∧
        t = { s with parts := t.parts, launches := t.launches } ∧
        (t.part p).sliceUntil = s.now + ((s.part p).slice - (s.part p).debt) * 1000 ∧ (t.part p).sliceEnded = none) ∧
    (s.ring p = q :: r → s.partExists q = true → s.eligible q = true → (s.part q).debt < (s.part q).slice →
      ((s.part p).sliceEnded ≠ none → s.running p = true → s.boundaryReady p = true →
        ∃ t, exec (.superstepSwitch p) s = .next t ∧ (∀ k ∈ (s.part p).cores, s.tagOf k = p → HandsCore t p q k) ∧
          (t.part q).sliceUntil = s.now + ((s.part q).slice - (s.part q).debt) * 1000 ∧ (t.part q).sliceEnded = none ∧
          (t.part q).debt = 0 ∧ (t.part p).sliceEnded = none) ∧
      (∀ e, s.tagOf c = p → Sparse.find? (s.part p).regions c = none → s.saveReady c = true → s.switchingTo p = none →
        s.takingOver p = false → s.urgentPart p = none → (s.part p).sliceEnded = some e → e + (s.part p).slice * 1000 ≤ s.now →
        ∃ t, exec (.forcedPreemption c) s = .next t ∧ HandsCore t p q c)) ∧
    (s.tagOf c = p → Sparse.find? (s.part p).regions c = none → s.saveReady c = true → q ∈ s.ring p →
      (s.part p).handsTo = some q → ∃ t, exec (.forcedPreemption c) s = .next t ∧ HandsCore t p q c) ∧
    (s.tagOf c = p → s.switchingTo p = none →
      (s.takingOver p = true ∨ ((s.part p).sliceEnded = none ∧ s.urgentPart p = none)) →
      ∃ t, exec (.forcedPreemption c) s = .next t ∧ Nothing s t)

/-- R312, R316, R319, R320: CORE_RESUME puts the context that is saved for the core's tag back: its registers, its queues, its
threads and its scratchpad; with none saved it does nothing. A region open for the watchdog interval is closed. A resize that
is ready takes effect whole when its added cores are free, and is answered OK: they take the partition's tag and the removed
ones, of which none holds a context here, tag 63; else it is answered NOSPACE and the core set stays, as it does where no free
core stands for a removed one that holds a context. A quarantined core is not free, and the dead cores of a set hold no resize
back (log entry 51, DEDUCED). The event slot does not meet the command ring. -/
def Obligations.CoresMove : Prop :=
  ∀ (s : State) (c p : Nat), (∀ a b, s.tagKey a = s.tagKey b → a = b) →
    (s.savedFor (s.tagOf c) c = none → ∃ t, exec (.coreResume c) s = .next t ∧ Nothing s t) ∧
    (∀ (v : Saved) (f : Nat → Thread), s.savedFor (s.tagOf c) c = some v → v.snapshot.threads = (threadsOfCore c).map (fun u => (u, f u)) →
      (∀ x ∈ v.snapshot.cells, ∃ k < 2^20, x.1 = spadKey c k) → Memory.wf v.snapshot.cells = true →
      ∃ t, exec (.coreResume c) s = .next t ∧
        (∀ u, u / 4 = c → (t.thread u).regs = (f u).regs ∧ (t.thread u).pc = (f u).pc ∧ (t.thread u).fcsr = (f u).fcsr ∧
          (t.thread u).tstat = (f u).tstat ∧ (t.thread u).resv = (f u).resv) ∧
        (∀ u, u / 4 ≠ c → t.thread u = s.thread u) ∧
        (t.coreAt c).vregs = v.snapshot.state.vregs ∧ (t.coreAt c).accs = v.snapshot.state.accs ∧
        (t.coreAt c).flumes = v.snapshot.state.flumes ∧ (t.coreAt c).vqueue = v.snapshot.state.vqueue ∧
        (t.coreAt c).mxqueue = v.snapshot.state.mxqueue ∧ (t.coreAt c).cycle = (s.coreAt c).cycle ∧
        (∀ k < 2^20, Memory.read t.mem (spadKey c k) = Memory.read v.snapshot.cells (spadKey c k)) ∧
        (∀ a, (a < spadKey c 0 ∨ spadKey c 0 + 2^20 ≤ a) → Memory.read t.mem a = Memory.read s.mem a) ∧
        t.savedFor (s.tagOf c) c = none) ∧
    (s.partExists p = true → s.tagOf c = p → s.away p c = false → (∀ q, q ≠ p → Sparse.find? (s.part q).regions c = none) →
      (∀ b, Sparse.find? (s.part p).regions c = some b →
        (b + s.watchdogTime p ≤ s.now → (∀ u, u / 4 = c → (s.thread u).status = .free ∨
            ((s.thread u).status = .ready ∧ (s.thread u).woke ≠ none)) →
          ∃ t, exec (.regionWatchdog c) s = .next t ∧ SameBytes s t ∧ t = { s with parts := t.parts, threads := t.threads } ∧
            Sparse.find? (t.part p).regions c = none ∧ (∀ u, u / 4 = c → (s.thread u).status = .free → t.thread u = s.thread u) ∧
            ∀ u, u / 4 = c → (s.thread u).status = .ready → ⟨.watchdog, 0, 0, .none⟩ ∈ (t.thread u).pending) ∧
        (s.now < b + s.watchdogTime p → ∃ t, exec (.regionWatchdog c) s = .next t ∧ Nothing s t))) ∧
    (∀ new h, s.partExists p = true → (s.part p).resize = some (new, h) → (s.fn 0).cqhead = (s.fn 0).cqtail →
      (s.resizeReady p new = false → ∃ t, exec (.resizeApply p) s = .next t ∧ Nothing s t) ∧
      (s.resizeReady p new = true →
        ((∃ k ∈ new, k ∉ (s.part p).cores ∧ (s.tagOf k ≠ 63 ∨ s.tagKey k ∈ s.quarantined ∨ ∃ e ∈ s.parts, k ∈ e.2.cores)) ∨
          ∃ k ∈ (s.part p).cores, k ∉ new ∧ s.occupied k = true ∧
            ∀ b, dieOf b = dieOf k → s.coreFree b = false) →
        ∃ t, exec (.resizeApply p) s = .next t ∧ Answered t 0 p h 4 ∧ (t.part p).cores = (s.part p).cores ∧
          (t.part p).resize = none ∧ t.threads = s.threads ∧ t.cores = s.cores ∧ t.tags = s.tags) ∧
      (s.resizeReady p new = true → p ≠ 63 →
        (∀ k ∈ new, k ∉ (s.part p).cores → s.tagOf k = 63 ∧ s.tagKey k ∉ s.quarantined ∧ ∀ e ∈ s.parts, k ∉ e.2.cores) →
        (∀ k ∈ (s.part p).cores, k ∉ new → s.occupied k = false) →
        ∃ t, exec (.resizeApply p) s = .next t ∧ Answered t 0 p h 0 ∧ (∀ k, k ∈ (t.part p).cores ↔ k ∈ new) ∧
          (t.part p).resize = none ∧ (∀ k ∈ new, s.tagOf k = p ∨ k ∉ (s.part p).cores → t.tagOf k = p) ∧
          ∀ k ∈ (s.part p).cores, k ∉ new → t.tagOf k = 63))

/-! The monitor's commands. -/

/-- R392, R393: a command about a partition answers BADARG for a tag above 47 and STATE for a partition that does not exist,
and has no effect then. The command ring holds no other entry here. R158, R177, R267, R270, R281, R309, R313, R325, R331,
R335, R364, R393, R394: each setting command on an existing partition whose pages no spore holds writes its fields, and BADARG or
STATE where its operands or the partition's state forbid it. STATE for a partition that does not exist, tag 63 in the event of a
tag above 47, and a partition being busy while one of its threads holds a context are DEDUCED (log entry 36); that PWEIR zeroes
the semaphores that enter the allotment is DEDUCED (log entry 53). -/
def Obligations.CommandsCheckPartitions : Prop :=
  (∀ (s : State) (c : Cmd), (s.fn 0).cqhead = (s.fn 0).cqtail →
    ∀ i ∈ ([.pdestroy c, .pflr c, .pres c, .pscope c, .pweir c, .pplace c, .s1root c, .s2write c, .pstart c, .resume2 c,
        .launch 0 c, .wake 0 c, .rollback c, .pslice c, .pjob c] : List Instr),
      (47 < c.op0.toNat → ∃ t, exec i s = .next t ∧ NoEffect s t ∧ Answered t 0 63 c.htag 2) ∧
      (c.op0.toNat ≤ 47 → s.partExists c.op0.toNat = false →
        ∃ t, exec i s = .next t ∧ NoEffect s t ∧ Answered t 0 c.op0.toNat c.htag 3)) ∧
  (∀ (s : State) (c : Cmd) (p : Nat) (x : Partition), (s.fn 0).cqhead = (s.fn 0).cqtail → p = c.op0.toNat → p ≤ 47 →
    s.partExists p = true → x = s.part p → s.Unheld p →
    (c.op1.toNat < 2^40 → c.op3.toNat ≤ 15 → s.capOfOthers p + c.op1.toNat * 2^(15 - c.op3.toNat) ≤ 2^39 →
      (c.op3.toNat = x.k ∨ (x.po = 0 ∧ x.pf = 0)) → ∃ t, exec (.pres c) s = .next t ∧ Answered t 0 p c.htag 0 ∧
        t.part p = { x with pcap := c.op1.toNat, share := c.op2.toNat / 2^28 % 2^28, fixed := c.op2.getLsbD 63,
                            k := c.op3.toNat, allowance := c.op4.toNat } ∧ t.threads = s.threads) ∧
    (2^40 ≤ c.op1.toNat ∨ 15 < c.op3.toNat → ∃ t, exec (.pres c) s = .next t ∧ NoEffect s t ∧ Answered t 0 p c.htag 2) ∧
    (c.op1.toNat < 2^40 → c.op3.toNat ≤ 15 → 2^39 < s.capOfOthers p + c.op1.toNat * 2^(15 - c.op3.toNat) →
      ∃ t, exec (.pres c) s = .next t ∧ NoEffect s t ∧ Answered t 0 p c.htag 3) ∧
    (∀ e ∈ ([(2, .pkg), (3, .sys)] : List (Word × Scope)), c.op1 = e.1 → ∃ t, exec (.pscope c) s = .next t ∧
      Answered t 0 p c.htag 0 ∧ t.part p = { x with ceiling := e.2 } ∧ t.threads = s.threads) ∧
    (c.op1 ≠ 2 → c.op1 ≠ 3 → ∃ t, exec (.pscope c) s = .next t ∧ NoEffect s t ∧ Answered t 0 p c.htag 2) ∧
    (∀ a b d : Nat × Nat, a = (c.op1.toNat % 2^16, c.op1.toNat / 2^16 % 2^16) →
      b = (c.op2.toNat % 2^16, c.op2.toNat / 2^16 % 2^16) → d = (c.op3.toNat % 2^16, c.op3.toNat / 2^16 % 2^16) →
      (a.1 + a.2 ≤ 4096 → b.1 + b.2 ≤ 1024 → d.1 + d.2 ≤ 64 → s.partBusy p = false → s.allotTaken p a b d = false →
        ∃ t, exec (.pweir c) s = .next t ∧ Answered t 0 p c.htag 0 ∧
          t.part p = { x with counters := a, semaphores := b, barriers := d } ∧ t.threads = s.threads ∧
          (∀ k, b.1 ≤ k → k < b.1 + b.2 → ¬ (x.semaphores.1 ≤ k ∧ k < x.semaphores.1 + x.semaphores.2) → (t.sem k).value = 0)) ∧
      (a.1 + a.2 ≤ 4096 → b.1 + b.2 ≤ 1024 → d.1 + d.2 ≤ 64 → s.partBusy p = true →
        ∃ t, exec (.pweir c) s = .next t ∧ NoEffect s t ∧ Answered t 0 p c.htag 3)) ∧
    ((∃ k ∈ x.cores, k / 128 = c.op1.toNat) → (∀ g ∈ [c.op2, c.op3, c.op4, c.op5], g.toNat < 2^40 ∧ g.toNat % 4096 = 0) →
      ∃ t, exec (.pplace c) s = .next t ∧ Answered t 0 p c.htag 0 ∧
      t.part p = { x with
        pages := Sparse.set x.pages c.op1.toNat (DiePages.mk c.op2.toNat c.op3.toNat c.op4.toNat c.op5.toNat c.op6) } ∧
      t.threads = s.threads) ∧
    ((∀ k ∈ x.cores, k / 128 ≠ c.op1.toNat) ∨ (∃ g ∈ [c.op2, c.op3, c.op4, c.op5], 2^40 ≤ g.toNat ∨ g.toNat % 4096 ≠ 0) →
      ∃ t, exec (.pplace c) s = .next t ∧ NoEffect s t ∧ Answered t 0 p c.htag 2) ∧
    (c.op1.toNat < 2^40 → c.op1.toNat % 2^16 = 0 → ∃ t, exec (.s1root c) s = .next t ∧ Answered t 0 p c.htag 0 ∧
      t.part p = { x with s1root := some c.op1.toNat } ∧ t.threads = s.threads) ∧
    (2^40 ≤ c.op1.toNat ∨ c.op1.toNat % 2^16 ≠ 0 →
      ∃ t, exec (.s1root c) s = .next t ∧ NoEffect s t ∧ Answered t 0 p c.htag 2) ∧
    (c.op1.toNat < 2^19 → c.op2.toNat / 2^52 = 0 → c.op2.toNat / 2^4 % 2^17 = 0 →
      ∃ t, exec (.s2write c) s = .next t ∧ Answered t 0 p c.htag 0 ∧
        t.part p = { x with s2 := Sparse.set x.s2 c.op1.toNat c.op2 } ∧ t.threads = s.threads) ∧
    (2^19 ≤ c.op1.toNat → ∃ t, exec (.s2write c) s = .next t ∧ NoEffect s t ∧ Answered t 0 p c.htag 2) ∧
    (1000 ≤ c.op1.toNat → c.op1.toNat ≤ 1000000 → c.op2.toNat < 2^32 →
      (c.op3 = 63 → ∃ t, exec (.pslice c) s = .next t ∧ Answered t 0 p c.htag 0 ∧ t.threads = s.threads ∧
        t.part p = { x with
          slice := c.op1.toNat, refill := c.op2.toNat, next := none, debt := 0, sliceEnded := none, handsTo := none
          budget := (t.part p).budget, refilled := (t.part p).refilled } ∧
        ∀ d < 8, Sparse.get (t.part p).budget d 0 =
          (if s.refillPeriods p d = 0 then Sparse.get x.budget d 0
           else min (Sparse.get x.budget d 0 + s.refillPeriods p d * x.refill) (4 * x.refill))) ∧
      (c.op3.toNat ≤ 47 → x.next ≠ none → ∃ t, exec (.pslice c) s = .next t ∧ Answered t 0 p c.htag 0 ∧
        t.threads = s.threads ∧
        t.part p = { x with
          slice := c.op1.toNat, refill := c.op2.toNat, next := some c.op3.toNat
          budget := (t.part p).budget, refilled := (t.part p).refilled })) ∧
    (c.op1.toNat < 1000 ∨ 1000000 < c.op1.toNat →
      ∃ t, exec (.pslice c) s = .next t ∧ NoEffect s t ∧ Answered t 0 p c.htag 2) ∧
    (∀ job pkg count, job = c.op1.toNat % 2^16 → pkg = c.op2.toNat % 2^8 → count = c.op2.toNat / 2^8 % 2^8 →
      (pkg < count → x.spore.busy = false → count ≤ 1 ∨ c.op3.toNat + 2 * count ≤ 2^48 → ∃ t, exec (.pjob c) s = .next t ∧ Answered t 0 p c.htag 0 ∧
        (t.part p).spore.job = job ∧ (t.part p).spore.pkg = pkg ∧ (t.part p).spore.packages = count ∧
        (job ≠ x.spore.job → (t.part p).spore.last = 0 ∧ (t.part p).spore.issued = 0 ∧ (t.part p).spore.cuts = 0) ∧
        (job = x.spore.job → (t.part p).spore.last = x.spore.last) ∧ t.threads = s.threads) ∧
      (count ≤ pkg → ∃ t, exec (.pjob c) s = .next t ∧ NoEffect s t ∧ Answered t 0 p c.htag 2) ∧
      (pkg < count → x.spore.busy = false → 1 < count → 2^48 < c.op3.toNat + 2 * count →
        ∃ t, exec (.pjob c) s = .next t ∧ NoEffect s t ∧ Answered t 0 p c.htag 2) ∧
      (pkg < count → x.spore.busy = true → ∃ t, exec (.pjob c) s = .next t ∧ NoEffect s t ∧ Answered t 0 p c.htag 3)))

/-- R306, R320, R322, R393, R398, R399: PCREATE of a mask that no partition holds makes the partition and gives it the cores,
fresh; PDESTROY ends it and its cores take tag 63; PRESIZE asks for the change; PFLR ends all that the partition has under way
and repeats its PSTART; PSTART starts thread 0 of the lowest-ranked core, at the entry address with bits 1:0 zero (DEDUCED, log
entry 23). A mask image that does not lie within 48 bits of address is BADARG (DEDUCED, log entry 36). -/
def Obligations.PartitionLifecycle : Prop :=
  ∀ (s : State) (c : Cmd) (p : Nat) (cores : List Nat), (s.fn 0).cqhead = (s.fn 0).cqtail → p = c.op0.toNat → p ≤ 47 →
    (cores = s.maskCores c.op2.toNat → c.op2.toNat + 128 ≤ 2^48 → c.op1.toNat ≤ 7 → cores ≠ [] → s.partExists p = false →
      (∀ e ∈ s.parts, ∀ k ∈ e.2.cores, k ∉ cores) → ∃ t, exec (.pcreate c) s = .next t ∧ Answered t 0 p c.htag 0 ∧
        t.part p = { Partition.reset with priority := c.op1.toNat, cores := cores, ranks := cores.map (fun k => (k, .valid k)) } ∧
        (∀ k ∈ cores, FreshCore t p k) ∧ ∀ q, q ≠ p → t.part q = s.part q) ∧
    ((7 < c.op1.toNat ∨ 2^48 < c.op2.toNat + 128 ∨ s.maskCores c.op2.toNat = []) →
      ∃ t, exec (.pcreate c) s = .next t ∧ NoEffect s t ∧ Answered t 0 p c.htag 2) ∧
    (c.op1.toNat ≤ 7 → c.op2.toNat + 128 ≤ 2^48 → s.maskCores c.op2.toNat ≠ [] → s.partExists p = true →
      ∃ t, exec (.pcreate c) s = .next t ∧ NoEffect s t ∧ Answered t 0 p c.htag 3) ∧
    (s.partExists p = true → ∃ t, exec (.pdestroy c) s = .next t ∧ Answered t 0 p c.htag 0 ∧ t.partExists p = false ∧
      (∀ k ∈ (s.part p).cores, s.tagOf k = p → FreshCore t 63 k) ∧ (∀ v ∈ t.saved, v.tag ≠ p) ∧
      (∀ l ∈ t.launches, l.2.part ≠ p) ∧ t.fill = s.fill) ∧
    (cores = s.maskCores c.op1.toNat → c.op1.toNat + 128 ≤ 2^48 → cores ≠ [] → s.partExists p = true →
      ∀ z : State, z = s.modPart p (fun q => { q with resize := some (cores, c.htag) }) →
      (z.resizeReady p cores = false → exec (.presize c) s = .next z ∧ z = { s with parts := z.parts } ∧
        z.part p = { s.part p with resize := some (cores, c.htag) }) ∧
      exec (.presize c) s = exec (.resizeApply p) z) ∧
    (s.partExists p = true → ∃ t, exec (.pflr c) s = .next t ∧ Answered t 0 p c.htag 0 ∧
      (∀ l ∈ t.launches, l.2.part ≠ p) ∧ (∀ k ∈ t.packets, k.tag ≠ p) ∧ (∀ q ∈ t.copies, q.part ≠ p) ∧
      (t.part p).cores = (s.part p).cores ∧ (t.part p).pf = (s.part p).pf ∧
      (∀ k, (s.part p).counters.1 ≤ k → k < (s.part p).counters.1 + (s.part p).counters.2 → t.counter k = 0) ∧
      (∀ k ∈ (s.part p).cores, s.tagOf k = p → (t.coreAt k).vqueue = [] ∧ (t.coreAt k).mxqueue = [] ∧
        ((s.part p).pstart = none → ∀ u, u / 4 = k → (t.thread u).status = .free)) ∧
      (∀ k entry tvec info, (s.part p).pstart = some (entry, tvec, info) → s.lowestCore p = some k → s.tagOf k = p →
        s.away p k = false → Started t (4 * k) entry info)) ∧
    (∀ k, s.partExists p = true → s.startable p = true → s.lowestCore p = some k → s.tagOf k = p → s.away p k = false →
      ∃ t, exec (.pstart c) s = .next t ∧ Answered t 0 p c.htag 0 ∧ Started t (4 * k) c.op1 c.op3 ∧
        (t.thread (4 * k)).tvec = c.op2 &&& 0xFFFFFFFFFFFFFFF8 ∧ (t.part p).pstart = some (c.op1, c.op2, c.op3) ∧
        ∀ u, u ≠ 4 * k → t.thread u = s.thread u) ∧
    (s.partExists p = true → s.startable p = false →
      ∃ t, exec (.pstart c) s = .next t ∧ NoEffect s t ∧ Answered t 0 p c.htag 3)

/-- R326, R328, R397, R400, R407, R408: a CLEAN frame is assigned; a freed HBM frame is SCRUBBING and a class 8 or 9 one CLEAN;
a scrubbed frame reads zero and is CLEAN, by the hardware or by the monitor where the frame was freed in host-assisted mode;
the boot scrub makes every frame that was SCRUBBING from the cold reset CLEAN. DIERESET empties a die that no partition uses. A
cold reset in which every stage passes leaves the reset state whole, but for host and fabric memory, the firmware and its fused
version, and what the model keeps of its own (the agenda, the test outcomes, the count of free values); one in which a stage
fails leaves the stages before it up and no partition, core or thread. The reset values that the spec does not give are the
model's (DESIGN CHOICE, log entries 4 and 5, the fill among them), HBM that the boot scrub has not reached reads 0 (DESIGN
CHOICE, log entry 6), and which stage fails is an input (log entry 34); whether the firmware may run is what the root of trust
finds (log entry 16). -/
def Obligations.FramesAndResets : Prop :=
  ∀ (s : State) (c : Cmd) (a f p d : Nat), (s.fn 0).cqhead = (s.fn 0).cqtail → a = c.op0.toNat →
    (a % 2^21 = 0 → (a < 2^39 ∨ a / 2^48 = 8 ∨ a / 2^48 = 9) →
      (p = c.op1.toNat → p ≤ 47 → s.partExists p = true → s.frameAt a = .clean →
        ∃ t, exec (.fassign c) s = .next t ∧ Answered t 0 p c.htag 0 ∧ t.frameAt a = .assigned p ∧
          (∀ b, b / 2^21 ≠ a / 2^21 → t.frameAt b = s.frameAt b)) ∧
      (c.op1 = 63 → c.op2.toNat = a / 2^36 % 8 → a < 2^39 → s.frameAt a = .clean →
        ∃ t, exec (.fassign c) s = .next t ∧ Answered t 0 63 c.htag 0 ∧ t.frameAt a = .shared ∧
          Sparse.find? t.telemetry c.op2.toNat = some (a, 0)) ∧
      (c.op1.toNat ≤ 47 → s.frameAt a ≠ .clean →
        ∃ t, exec (.fassign c) s = .next t ∧ NoEffect s t ∧ Answered t 0 c.op1.toNat c.htag 3) ∧
      ((∃ q, s.frameAt a = .assigned q) →
        (a < 2^39 → ∃ t, exec (.ffree c) s = .next t ∧ Answered t 0 63 c.htag 0 ∧ t.frameAt a = .scrubbing ∧
          (a / 2^21 ∈ t.hostScrubs ↔ s.modes.getLsbD 1 = true ∨ a / 2^21 ∈ s.hostScrubs)) ∧
        (2^39 ≤ a → ∃ t, exec (.ffree c) s = .next t ∧ Answered t 0 63 c.htag 0 ∧ t.frameAt a = .clean)) ∧
      (s.frameAt a = .clean → ∃ t, exec (.ffree c) s = .next t ∧ NoEffect s t ∧ Answered t 0 63 c.htag 3)) ∧
    (a % 2^21 ≠ 0 → (∃ t, exec (.ffree c) s = .next t ∧ NoEffect s t ∧ Answered t 0 63 c.htag 2)) ∧
    (Sparse.find? s.frames f = some .scrubbing → f < 2^18 →
      (f ∉ s.hostScrubs → ∃ t, exec (.frameScrubComplete f) s = .next t ∧ t.frameAt (f * 2^21) = .clean ∧
        NewestEvent t 0 ⟨5, 63, 0, BitVec.ofNat 64 (f * 2^21), [BitVec.ofNat 64 (f * 2^21)]⟩ ∧
        ∀ k < 2^21, Memory.read t.mem (f * 2^21 + k) = 0 ∧ t.basinByte (f * 2^21 + k) = 0) ∧
      (f ∈ s.hostScrubs → (∃ t, exec (.frameScrubComplete f) s = .next t ∧ Nothing s t) ∧
        ∃ t, exec (.basinInvalidateRequest f) s = .next t ∧ t.frameAt (f * 2^21) = .clean ∧
          NewestEvent t 0 ⟨5, 63, 0, BitVec.ofNat 64 (f * 2^21), [BitVec.ofNat 64 (f * 2^21)]⟩ ∧
          ∀ k < 2^21, (f * 2^21 + k) / 64 ∉ t.noticed)) ∧
    (s.bootScrubbed = false → 3 ≤ s.stagesUp → ∃ t, exec .bootScrubComplete s = .next t ∧ t.bootScrubbed = true ∧
      ∀ b < 2^39, Sparse.find? s.frames (b / 2^21) = none → t.frameAt b = .clean ∧ Memory.read t.mem b = 0) ∧
    (s.bootScrubbed = true → ∃ t, exec .bootScrubComplete s = .next t ∧ Nothing s t) ∧
    (d = c.op0.toNat →
      (d ≤ 7 → (∀ k, k / 128 = d → 47 < s.tagOf k) → ∃ t, exec (.diereset c) s = .next t ∧ Answered t 0 63 c.htag 0 ∧
        (∀ u, u / 512 = d → t.thread u = Thread.reset) ∧ (∀ k, k / 128 = d → t.coreAt k = { Core.reset with rank := k }) ∧
        (∀ u, u / 512 ≠ d → t.thread u = s.thread u) ∧ (∀ k, k / 128 ≠ d → t.coreAt k = s.coreAt k) ∧ t.copies.all (fun q => q.die != d) = true) ∧
      (d ≤ 7 → (∃ k, k / 128 = d ∧ s.tagOf k ≤ 47) → ∃ t, exec (.diereset c) s = .next t ∧ NoEffect s t ∧ Answered t 0 63 c.htag 3) ∧
      (7 < d → ∃ t, exec (.diereset c) s = .next t ∧ NoEffect s t ∧ Answered t 0 63 c.htag 2)) ∧
    (∃ t, exec (.coldReset f) s = .next t ∧ t.threads = [] ∧ t.cores = [] ∧ t.parts = [] ∧ t.tags = [] ∧ t.frames = [] ∧
      t.launches = [] ∧ t.fill = 0 ∧ t.staged = none ∧ t.firmware = s.staged.getD s.firmware ∧
      t.stagesUp = (if s.imageRuns (s.staged.getD s.firmware) = false then 0 else if 1 ≤ f ∧ f ≤ 6 then f - 1 else 6) ∧
      (∀ b, Memory.read t.mem b = if 2^51 ≤ b ∧ b < 2^52 then Memory.read s.mem b else 0) ∧
      (t.stagesUp = 6 → t = { State.reset with
        mem := t.mem, firmware := t.firmware, version := t.version, agenda := s.agenda, testFails := s.testFails
        freeCount := s.freeCount }) ∧
      t.version = (match s.staged with
        | some b => max s.version (Config.imageVersion b)
        | none => s.version))

/-- R144, R296, R344, R387, R398: RESUME2 makes a parked thread READY, or takes PAGE1 in it; LAUNCH of a partition that has
been started arms the record as LARM does, and answers a refusal's code plus 16 (log entry 37); WAKE sets the wake flag of a
thread that has a context; ROLLBACK starts the captured threads of a chain of manifests that holds, READY at the spore entry
with the epoch and the manifest in a0 and a1, and answers a status without starting any otherwise (BADARG for a chain, a
digest, a block or a page that does not hold, STATE for a pool record that is armed or not valid: DEDUCED, log entry 35). R328,
R363, R401, R407, R408, R410: FMODE sets one mode; TIMESET sets the time once, before the first PSTART; ATTEST writes a report
that begins with the nonce, the firmware version and the time; FWSTAGE stores an image that passes its checks until the next
cold reset, and answers STATE otherwise (DEDUCED, log entry 38); ERRLOG copies records. The event slot does not meet the bytes
that a command writes here. -/
def Obligations.ThreadAndPackageCommands : Prop :=
  (∀ (s : State) (c : Cmd) (fn p : Nat), (s.fn fn).cqhead = (s.fn fn).cqtail → p = (if fn = 0 then c.op0.toNat else fn - 1) → p ≤ 47 →
    s.partExists p = true →
    (fn = 0 → ∀ u, s.namedThread p c.op1 = some u → s.partOf u = p → s.away p (coreOf u) = false →
      ((s.thread u).status = .parked .page2 →
        (c.op2 = 0 → ∃ t, exec (.resume2 c) s = .next t ∧ Answered t 0 p c.htag 0 ∧
          t.thread u = { s.thread u with status := .ready } ∧ ∀ v, v ≠ u → t.thread v = s.thread v) ∧
        (c.op2 = 1 → (s.thread u).inh = false → s.servedByHandler p u = true →
          ∃ t, exec (.resume2 c) s = .next t ∧ Answered t 0 p c.htag 0 ∧ (t.thread u).status = .ready ∧
            (t.thread u).tcause = 3 ∧ (t.thread u).tval = (s.thread u).tval ∧ (t.thread u).tval2 = 0 ∧
            (t.thread u).pc = (s.thread u).tvec &&& 0xFFFFFFFFFFFFFFF8 ∧ (t.thread u).supervisor = true ∧
            (t.thread u).inh = true ∧ (t.thread u).regs = (s.thread u).regs ∧ ∀ v, v ≠ u → t.thread v = s.thread v)) ∧
      ((s.thread u).status ≠ .parked .page2 → c.op2.toNat ≤ 1 →
        ∃ t, exec (.resume2 c) s = .next t ∧ NoEffect s t ∧ Answered t 0 p c.htag 3) ∧
      (1 < c.op2.toNat → ∃ t, exec (.resume2 c) s = .next t ∧ NoEffect s t ∧ Answered t 0 p c.htag 2)) ∧
    ((s.part p).pstart = none → ∃ t, exec (.launch fn c) s = .next t ∧ NoEffect s t ∧ Answered t fn p c.htag 3) ∧
    ((s.part p).pstart ≠ none → s.armStatus p c.op1.toNat ≠ 0 →
      ∃ t, exec (.launch fn c) s = .next t ∧ NoEffect s t ∧ Answered t fn p c.htag (s.armStatus p c.op1.toNat + 16)) ∧
    ((s.part p).pstart ≠ none → s.armStatus p c.op1.toNat = 0 →
      ∃ t, exec (.launch fn c) s = .next t ∧ Answered t fn p c.htag 0 ∧ t.threads = s.threads ∧
        recordArmed (t.record p c.op1.toNat) = true ∧
        Sparse.find? t.launches s.nextId = some (launchOf s.nextId p c.op1.toNat (s.record p c.op1.toNat))) ∧
    (s.namedThread p c.op1 = none → ∃ t, exec (.wake fn c) s = .next t ∧ NoEffect s t ∧ Answered t fn p c.htag 2) ∧
    (∀ u, s.namedThread p c.op1 = some u → s.partOf u = p → s.away p (coreOf u) = false → (s.thread u).status ≠ .free → (s.thread u).status ≠ .halted →
      ∃ t, exec (.wake fn c) s = .next t ∧ Answered t fn p c.htag 0 ∧ t.thread u = { s.thread u with wake := true } ∧
        ∀ v, v ≠ u → t.thread v = s.thread v) ∧
    (fn = 0 → ∀ z : State, z = { s.functionReset p with
        windows := (s.functionReset p).windows.filter
          (fun w => !((s.part p).cores.flatMap threadsOfCore).contains w.thread) } →
      (z.chain p c.op1.toNat = none → ∃ t, exec (.rollback c) s = .next t ∧ Answered t 0 p c.htag 2 ∧
        ∀ u ∈ s.liveThreads p, (t.thread u).status = .free) ∧
      (∀ m ms y bs, z.chain p c.op1.toNat = some (m :: ms) → recordValid (z.record p m.record) = true →
        recordArmed (z.record p m.record) = false →
        z.restorePages p (newestPages [] ((m :: ms).flatMap (·.pages))) = (y, true) → y.coreBlocks p m.cores = some bs →
        ∃ t, exec (.rollback c) s = .next t ∧ Answered t 0 p c.htag 0 ∧ recordArmed (t.record p m.record) = true ∧
          (t.part p).spore.last = m.epoch ∧ (t.part p).spore.restarted = true ∧
          (∃ l, Sparse.find? t.launches y.nextId = some l ∧ l.counter = m.nextIndex ∧ l.halted = m.halted ∧ l.record = m.record) ∧
          ∀ b ∈ bs, ∀ k i, y.rankCore p b.1 = some k → (∀ d ∈ bs, y.rankCore p d.1 = some k → d = b) → y.tagOf k = p →
            y.away p k = false → i < 4 → b.2.1.testBit i = true →
            (t.thread (4 * k + i)).status = .ready ∧ (t.thread (4 * k + i)).launch = some y.nextId ∧
              (t.thread (4 * k + i)).pc = (y.record p m.record).getD 2 0 &&& 0xFFFFFFFFFFFFFFFC ∧
              (t.thread (4 * k + i)).regs.get (10 : Fin 64) = word m.epoch ∧
              (t.thread (4 * k + i)).regs.get (11 : Fin 64) = word m.va) ∧
      (∀ m ms, z.chain p c.op1.toNat = some (m :: ms) →
        recordValid (z.record p m.record) = false ∨ recordArmed (z.record p m.record) = true →
        ∃ t, exec (.rollback c) s = .next t ∧ Answered t 0 p c.htag 3 ∧ ∀ u ∈ s.liveThreads p, (t.thread u).status = .free))) ∧
  (∀ (s : State) (c : Cmd), (s.fn 0).cqhead = (s.fn 0).cqtail → (s.fn 0).eventReady = false →
    (c.op0.toNat ≤ 5 → c.op1.toNat ≤ 1 → ∃ t, exec (.fmode c) s = .next t ∧ Answered t 0 63 c.htag 0 ∧
      (∀ i < 6, t.modes.getLsbD i = if i = c.op0.toNat then decide (c.op1 = 1) else s.modes.getLsbD i) ∧
      t.threads = s.threads ∧ ((∀ p, s.Unheld p) → t.parts = s.parts)) ∧
    (5 < c.op0.toNat ∨ 1 < c.op1.toNat → ∃ t, exec (.fmode c) s = .next t ∧ NoEffect s t ∧ Answered t 0 63 c.htag 2) ∧
    (s.timeSet = false → s.anyStart = false → 6 ≤ s.stagesUp → ∃ t, exec (.timeset c) s = .next t ∧ Answered t 0 63 c.htag 0 ∧
      t.now = c.op0.toNat ∧ t.timeSet = true ∧ t.threads = s.threads) ∧
    (s.timeSet = true ∨ s.anyStart = true ∨ s.stagesUp < 6 → ∃ t, exec (.timeset c) s = .next t ∧ NoEffect s t ∧ Answered t 0 63 c.htag 3) ∧
    (c.op0.toNat + 32 ≤ 2^48 → c.op1.toNat + 1024 ≤ 2^48 →
      ∃ t, exec (.attest c) s = .next t ∧ Answered t 0 63 c.htag 0 ∧ t.threads = s.threads ∧
      SameBytesBut s t (hostKey c.op1.toNat) 1024 ∧
      Memory.readBytes t.mem (hostKey c.op1.toNat) 32 = Memory.readBytes s.mem (hostKey c.op0.toNat) 32 ∧
      bytesAt t (hostKey c.op1.toNat + 32) 8 = s.version % 2^64 ∧ bytesAt t (hostKey c.op1.toNat + 40) 8 = s.now % 2^64) ∧
    (2^48 < c.op0.toNat + 32 ∨ 2^48 < c.op1.toNat + 1024 →
      ∃ t, exec (.attest c) s = .next t ∧ NoEffect s t ∧ Answered t 0 63 c.htag 2) ∧
    (2^48 < c.op0.toNat + c.op1.toNat → ∃ t, exec (.fwstage c) s = .next t ∧ NoEffect s t ∧ Answered t 0 63 c.htag 2) ∧
    (∀ image, c.op0.toNat + c.op1.toNat ≤ 2^48 → image = Memory.readBytes s.mem (hostKey c.op0.toNat) c.op1.toNat →
      ∃ t, exec (.fwstage c) s = .next t ∧ NoEffect s t ∧ t.firmware = s.firmware ∧
        ((∀ n < 8, Config.keyChains Config.rootKeyHash image n = true ∧ Config.signatureHolds image n = true ∧
            s.version ≤ Config.stageVersion image n) → Answered t 0 63 c.htag 0 ∧ t.staged = some image) ∧
        (∀ n < 8, Config.keyChains Config.rootKeyHash image n = false ∨ Config.signatureHolds image n = false ∨
            Config.stageVersion image n < s.version → Answered t 0 63 c.htag 3 ∧ t.staged = s.staged)) ∧
    (1 ≤ c.op1.toNat → c.op1.toNat ≤ 4096 → c.op2.toNat + 32 * c.op1.toNat ≤ 2^48 → (∀ e ∈ s.errors, e.length = 32) →
      ∃ t, exec (.errlog c) s = .next t ∧ Answered t 0 63 c.htag 0 ∧
      SameBytesBut s t (hostKey c.op2.toNat) (32 * c.op1.toNat) ∧
      ∀ i < c.op1.toNat, Memory.readBytes t.mem (hostKey c.op2.toNat + 32 * i) 32 = s.errorRecord (c.op0.toNat + i)) ∧
    (c.op1 = 0 ∨ 4096 < c.op1.toNat ∨ 2^48 < c.op2.toNat + 32 * c.op1.toNat → ∃ t, exec (.errlog c) s = .next t ∧ NoEffect s t ∧ Answered t 0 63 c.htag 2))

/-! The host and the management controller. -/

/-- R201, R204, R335, R390: a host access of a function inside one page whose translation permits it reads the Basin's own
copy, writes its bytes through to the coherence point and the Basin, or performs an integer atomic and answers the old value;
a page that is refused gives an error completion and changes no byte. -/
def Obligations.HostAccesses : Prop :=
  ∀ (s : State) (fn gpa n a : Nat) (data : List Byte), s.fnExists fn = true → 0 < n → gpa % 65536 + n ≤ 65536 →
    (s.hostAddress fn gpa .load = some a → s.lineHeld a n = none →
      ∃ t, exec (.hostRead fn gpa n) s = .next t ∧ t = { s with hostReply := some (s.basinBytes a n) } ∧ SameBytes s t) ∧
    (s.hostAddress fn gpa .load = some a → s.lineHeld a n ≠ none →
      ∃ t, exec (.hostRead fn gpa n) s = .next t ∧ Nothing s t) ∧
    (s.hostAddress fn gpa .load = none →
      ∃ t, exec (.hostRead fn gpa n) s = .next t ∧ t = { s with hostReply := none } ∧ SameBytes s t) ∧
    (s.hostAddress fn gpa .store = none → data.length = n →
      ∃ t, exec (.hostWrite fn gpa data) s = .next t ∧ t = { s with hostReply := none } ∧ SameBytes s t) ∧
    (s.hostAddress fn gpa .store = some a → data.length = n → s.leavesApart fn →
      ∃ t, exec (.hostWrite fn gpa data) s = .next t ∧ SameBytesBut s t a n ∧ Memory.readBytes t.mem a n = data ∧
        t.hostReply = some [] ∧ (∀ k, a ≤ k → k < a + n → t.basinByte k = Memory.read t.mem k) ∧ t.threads = s.threads) ∧
    (∀ (op : AmoOp) (k : Nat) (b cmp : Word), hostOp k = some op → (n = 4 ∨ n = 8) → gpa % n = 0 →
      s.hostHeld fn gpa n 1 = false →
      (s.hostAddress fn gpa .atomic = none →
        ∃ t, exec (.hostAtomic fn gpa k n b cmp) s = .next t ∧ t = { s with hostReply := none } ∧ SameBytes s t) ∧
      (s.hostAddress fn gpa .atomic = some a → s.leavesApart fn →
        ∃ t, exec (.hostAtomic fn gpa k n b cmp) s = .next t ∧ SameBytesBut s t a n ∧
          bytesAt t a n = amoNew op false n (bytesAt s a n) (b.toNat % 256^n) (cmp.toNat % 256^n) % 256^n ∧
          t.hostReply = some (leBytes (bytesAt s a n) n) ∧ t.threads = s.threads))

/-- R389, R392, R395: the doorbell moves the tail, and the device reads the first entry that it performs and holds it until it
is done; an entry it does not perform is answered BADCMD. A base or a log is refused while its ring holds an entry. A write of
the event head lets held events go out. R363, R397, R409 to R411: once the controller is up it takes a dynamic address of 7
bits and answers each request with a message: error records after the type 0x7F, the enterprise number and their own number,
the one SPDM version 1.2, RSA-3072 with SHA-256 alone, the certificate, and the 256 bytes of the firmware's stage digests (how
SPDM lays an answer out is PRESUMED, log entry 16). Nothing else changes. The low 12 bits of a ring base are taken as zero, and
which entries fill a ring is the model's choice (DESIGN CHOICE, log entry 18). -/
def Obligations.RingsAndController : Prop :=
  (∀ (s : State) (fn : Nat) (v : Word) (x : Function), s.fnExists fn = true → x = s.fn fn → x.held = [] →
    (x.commandReady = true → x.reading = none → x.cqhead ≠ v.toNat % 2^x.cqlog → ∀ bs,
      bs = Memory.readBytes s.mem (hostKey (x.cqbase.toNat + 64 * x.cqhead)) 64 → commandOk fn bs = true →
      ∃ t, exec (.cqtailWrite fn v) s = .next t ∧ t = { s with functions := t.functions } ∧ SameBytes s t ∧
        t.fn fn = { x with cqtail := v.toNat % 2^x.cqlog, cqhead := (x.cqhead + 1) % 2^x.cqlog,
                           reading := some (leAt bs 0 2, parseCmd bs) }) ∧
    (x.commandReady = true → x.reading = none → (x.cqhead + 1) % 2^x.cqlog = v.toNat % 2^x.cqlog →
      x.cqhead ≠ v.toNat % 2^x.cqlog → ∀ bs,
      bs = Memory.readBytes s.mem (hostKey (x.cqbase.toNat + 64 * x.cqhead)) 64 → commandOk fn bs = false →
      ∃ t, exec (.cqtailWrite fn v) s = .next t ∧ Answered t fn 63 (BitVec.ofNat 32 (leAt bs 4 4)) 1 ∧
        (t.fn fn).cqhead = (x.cqhead + 1) % 2^x.cqlog ∧ t.threads = s.threads) ∧
    (x.cqhead ≠ x.cqtail → x.commandReady = false → ∀ off ∈ [0x00, 0x08], ∃ t, exec (.ringConfigWrite fn off v) s = .next t ∧
      OnlyFunction s t fn ∧ t.fn fn = x) ∧
    (x.cqhead = x.cqtail → x.reading = none → ∃ t, exec (.ringConfigWrite fn 0x00 v) s = .next t ∧ OnlyFunction s t fn ∧
      t.fn fn = { x with cqbase := v &&& 0xFFFFFFFFFFFFF000, cqhead := 0, cqtail := 0 }) ∧
    (x.cqhead = x.cqtail → x.reading = none → ∃ t, exec (.ringConfigWrite fn 0x08 v) s = .next t ∧ OnlyFunction s t fn ∧
      t.fn fn = { x with cqlog := v.toNat % 16, cqhead := 0, cqtail := 0 }) ∧
    (x.cqhead = x.cqtail → x.eqhead = x.eqtail →
      (∃ t, exec (.ringConfigWrite fn 0x20 v) s = .next t ∧ OnlyFunction s t fn ∧
        t.fn fn = { x with eqbase := v &&& 0xFFFFFFFFFFFFF000, eqhead := 0, eqtail := 0, phase := true }) ∧
      ∃ t, exec (.ringConfigWrite fn 0x28 v) s = .next t ∧ OnlyFunction s t fn ∧
        t.fn fn = { x with eqlog := v.toNat % 16, eqhead := 0, eqtail := 0, phase := true }) ∧
    (x.cqhead = x.cqtail → ∃ t, exec (.eqheadWrite fn v) s = .next t ∧ OnlyFunction s t fn ∧
      t.fn fn = { x with eqhead := v.toNat % 2^x.eqlog }) ∧
    (∀ e (y : State), y = s.setFn fn { x with held := [e] } → x.eventReady = true → x.cqhead = x.cqtail →
      (x.eqtail + 1) % 2^x.eqlog ≠ v.toNat % 2^x.eqlog → ∃ t, exec (.eqheadWrite fn v) y = .next t ∧
        (t.fn fn).held = [] ∧ (t.fn fn).eqtail = (x.eqtail + 1) % 2^x.eqlog ∧
        Memory.readBytes t.mem (hostKey x.eqbase.toNat + 64 * x.eqtail) 64 = eventBytes e x.phase ∧ t.threads = s.threads)) ∧
  (∀ (s : State) (a : Nat), 2 ≤ s.stagesUp →
    (∃ t, exec (.i3cDynamicAddress a) s = .next t ∧ t = { s with i3c := some (a % 128) }) ∧
    (∃ t, exec (.errorRecordRequest a 1) s = .next t ∧ t = { s with mctp := (0x7F :: Config.enterpriseNumber.toList ++ leBytes a 2 ++ s.errorRecord a) :: s.mctp }) ∧
    (∃ t, exec (.errorRecordRequest a 0) s = .next t ∧ Nothing s t) ∧
    (∀ i ∈ ([(.getVersion, spdmVersion), (.getCapabilities, spdm 0x61 (Config.spdmBody 1)),
        (.negotiateAlgorithms, spdmAlgorithms), (.getCertificate, spdm 0x02 (Config.spdmBody 3 ++ Config.certificate))] :
          List (Instr × List Byte)),
      ∃ t, exec i.1 s = .next t ∧ t = { s with mctp := i.2 :: s.mctp }) ∧
    (∃ t d, exec .getMeasurements s = .next t ∧ t = { s with mctp := spdm 0x60 (Config.spdmBody 4 ++ d) :: s.mctp } ∧ d.length = 256 ∧
      ∀ k < 256, d[k]? = some ((Config.stageDigests s.firmware).getD k 0)))

/-! Float lanes, and what reads instructions. -/

/-- R239 to R249, R108: what the remaining functions of the vector unit write, lane by lane, with the flags of all lanes
gathered: float arithmetic, fused multiply-adds, comparisons, conversions, block records, reductions and special functions. -/
def Obligations.VectorFloatLanes : Prop :=
  ∀ (x : VIn) (vd va vb : VReg) (ha hb : Bool), x.len ≤ 32 →
    (∀ (ty : FloatTy) (f : Fmt) (w : Nat), f = (match ty with | .f32 => Fmt.f32 | .bf16 => Fmt.bf16) → w = f.width →
      ∀ p ∈ ([(.varithVadd vd va vb ha hb ty, fun a b _ => f.add .rne a b), (.varithVsub vd va vb ha hb ty, fun a b _ => f.sub .rne a b),
        (.varithVmul vd va vb ha hb ty, fun a b _ => f.mul .rne a b), (.varithVmin vd va vb ha hb ty, fun a b _ => f.minMax false a b),
        (.varithVmax vd va vb ha hb ty, fun a b _ => f.minMax true a b), (.varithVabs vd va ha ty, fun a _ _ => f.abs a),
        (.varithVneg vd va ha ty, fun a _ _ => f.negate a), (.vfma vd va vb ha hb ty, fun a b d => f.fma .rne false false a b d),
        (.vfms vd va vb ha hb ty, fun a b d => f.fma .rne false true a b d),
        (.vfnma vd va vb ha hb ty, fun a b d => f.fma .rne true false a b d)] : List (Instr × (Nat → Nat → Nat → Nat × Flags))),
        ∃ o, p.1.vcompute x = some o ∧ o.lfsr = x.lfsr ∧
          LanesAre o w (x.len * (32 / w)) (fun j => p.2 (x.a / 2^(w * j) % 2^w) (x.b / 2^(w * j) % 2^w) (x.d / 2^(w * j) % 2^w))) ∧
    (∀ (ty : RedTy) (w : Nat), w = (match ty with | .bf16 => 16 | _ => 32) →
      ∀ p ∈ ([(.vcmpeq vd va vb ha hb ty, Fmt.cmpEq, fun a b => decide (a = b)),
        (.vcmplt vd va vb ha hb ty, Fmt.cmpLt, fun a b => a.slt b),
        (.vcmple vd va vb ha hb ty, Fmt.cmpLe, fun a b => a.sle b)] :
          List (Instr × (Fmt → Nat → Nat → Bool × Flags) × (BitVec 32 → BitVec 32 → Bool))),
        ∃ o, p.1.vcompute x = some o ∧ o.lfsr = x.lfsr ∧ LanesAre o w (x.len * (32 / w)) (fun j =>
          let a := x.a / 2^(w * j) % 2^w
          let b := x.b / 2^(w * j) % 2^w
          let r : Bool × Flags := match ty with
            | .f32 => p.2.1 Fmt.f32 a b
            | .bf16 => p.2.1 Fmt.bf16 a b
            | .i32 => (p.2.2 (BitVec.ofNat 32 a) (BitVec.ofNat 32 b), 0)
          (if r.1 then 2^w - 1 else 0, r.2))) ∧
    (∀ src : Nat → Nat, (∀ j, src j = if j < 32 then x.a / 2^(32 * j) % 2^32 else x.b / 2^(32 * (j - 32)) % 2^32) →
      ∀ p ∈ ([(fun sr => .vcvtBf16F32 vd va vb ha hb sr, Fmt.bf16), (fun sr => .vcvtF16F32 vd va vb ha hb sr, Fmt.f16)] :
          List ((Bool → Instr) × Fmt)),
        (∃ o, (p.1 false).vcompute x = some o ∧ o.lfsr = x.lfsr ∧
          LanesAre o 16 (2 * x.len) (fun j => Fmt.f32.convert p.2 .rne (src j))) ∧
        (∀ g : Nat → BitVec 32, g 0 = x.lfsr → (∀ j, g (j + 1) = (lfsrAdvance (g j)).1) →
          ∃ o, (p.1 true).vcompute x = some o ∧ o.lfsr = g (2 * x.len) ∧
            LanesAre o 16 (2 * x.len) (fun j => p.2.stochConvert (lfsrAdvance (g j)).2 (src j)))) ∧
    (∀ p ∈ ([(.vcvtF32Bf16Lo vd va ha, Fmt.bf16, 0), (.vcvtF32Bf16Hi vd va ha, Fmt.bf16, 32), (.vcvtF32F16Lo vd va ha, Fmt.f16, 0),
        (.vcvtF32F16Hi vd va ha, Fmt.f16, 32)] : List (Instr × Fmt × Nat)),
      ∃ o, p.1.vcompute x = some o ∧ o.lfsr = x.lfsr ∧
        LanesAre o 32 x.len (fun j => p.2.1.convert Fmt.f32 .rne (x.a / 2^(16 * (p.2.2 + j)) % 2^16))) ∧
    (∃ o, (Instr.vcvtF32I32 vd va ha).vcompute x = some o ∧ o.lfsr = x.lfsr ∧
      LanesAre o 32 x.len (fun j => Fmt.f32.ofInt .rne (BitVec.ofNat 32 (x.a / 2^(32 * j))).toInt)) ∧
    (∃ o, (Instr.vcvtI32F32 vd va ha).vcompute x = some o ∧ o.lfsr = x.lfsr ∧
      LanesAre o 32 x.len (fun j => Fmt.f32.toInt .rne 32 (x.a / 2^(32 * j) % 2^32))) ∧
    (∀ p ∈ ([(.vunpkE2m1 vd va ha, fun sr => .vpackE2m1 vd va ha sr, Fmt.e2m1), (.vunpkE3m2 vd va ha, fun sr => .vpackE3m2 vd va ha sr, Fmt.e3m2),
        (.vunpkE2m3 vd va ha, fun sr => .vpackE2m3 vd va ha sr, Fmt.e2m3), (.vunpkE4m3 vd va ha, fun sr => .vpackE4m3 vd va ha sr, Fmt.e4m3),
        (.vunpkE5m2 vd va ha, fun sr => .vpackE5m2 vd va ha sr, Fmt.e5m2)] : List (Instr × (Bool → Instr) × Fmt)),
      (∃ o, p.1.vcompute x = some o ∧ o.lfsr = x.lfsr ∧ LanesAre o 32 32 (fun j => p.2.2.unpack x.a j)) ∧
      (∀ sr, ∃ o r, (p.2.1 sr).vcompute x = some o ∧ o.lanes = [r] ∧ o.width = 1024 ∧ (sr = false → o.lfsr = x.lfsr) ∧
        (r, o.flags, o.lfsr) = p.2.2.packRecord sr x.lfsr ((List.range 32).map (fun j => x.a / 2^(32 * j) % 2^32)))) ∧
    (∃ o, (Instr.vrsum vd va ha .i32).vcompute x = some o ∧ o.width = 32 ∧ o.flags = 0 ∧
      o.lanes = [((List.range x.len).map (fun j => x.a / 2^(32 * j) % 2^32)).sum % 2^32]) ∧
    (0 < x.len → ∀ p ∈ ([(.vrmax vd va ha .i32, true), (.vrmin vd va ha .i32, false)] : List (Instr × Bool)),
      ∃ o v, p.1.vcompute x = some o ∧ o.width = 32 ∧ o.flags = 0 ∧ o.lanes = [v] ∧
        (∃ j < x.len, v = x.a / 2^(32 * j) % 2^32) ∧
        ∀ j < x.len, let e := BitVec.ofNat 32 (x.a / 2^(32 * j))
          if p.2 then e.sle (BitVec.ofNat 32 v) = true else (BitVec.ofNat 32 v).sle e = true) ∧
    (∀ p ∈ ([(.f32, Fmt.f32, 5), (.bf16, Fmt.bf16, 6)] : List (RedTy × Fmt × Nat)), ∀ (T : Nat → Nat → Option Nat) (w : Nat),
      w = p.2.1.width →
      (∀ j, T 0 j = if j < x.len * (32 / w) then some (p.2.1.convert Fmt.f32 .rne (x.a / 2^(w * j) % 2^w)).1 else none) →
      (∀ k j, T (k + 1) j = match T k (2 * j), T k (2 * j + 1) with
        | some a, some b => some (Fmt.f32.add .rne a b).1
        | some a, none => some a
        | none, b => b) →
      ∃ o, (Instr.vrsum vd va ha p.1).vcompute x = some o ∧ o.width = w ∧ o.lfsr = x.lfsr ∧
        o.lanes = [match T p.2.2 0 with
          | none => 0
          | some v => if p.2.1 = Fmt.f32 then v else (Fmt.f32.convert Fmt.bf16 .rne v).1]) ∧
    (∀ p ∈ ([(.vrcp vd va ha, sfuRcp, [(0, 0x7F800000, Flags.zd), (0x80000000, 0xFF800000, Flags.zd), (0x7F800000, 0, 0), (0xFF800000, 0x80000000, 0)]),
        (.vrsqrt vd va ha, sfuRsqrt, [(0, 0x7F800000, Flags.zd), (0x80000000, 0xFF800000, Flags.zd), (0x7F800000, 0, 0),
          (0xFF800000, 0x7FC00000, Flags.iv), (0xBF800000, 0x7FC00000, Flags.iv)]),
        (.vsqrt vd va ha, Fmt.f32.sqrt .rne, [(0, 0, 0), (0x80000000, 0x80000000, 0), (0x7F800000, 0x7F800000, 0),
          (0xFF800000, 0x7FC00000, Flags.iv), (0xBF800000, 0x7FC00000, Flags.iv)]),
        (.vexp2 vd va ha, sfuExp2, [(0, 0x3F800000, 0), (0x80000000, 0x3F800000, 0), (0x7F800000, 0x7F800000, 0), (0xFF800000, 0, 0)]),
        (.vlog2 vd va ha, sfuLog2, [(0, 0xFF800000, Flags.zd), (0x80000000, 0xFF800000, Flags.zd), (0x7F800000, 0x7F800000, 0),
          (0xFF800000, 0x7FC00000, Flags.iv), (0xBF800000, 0x7FC00000, Flags.iv), (0x3F800000, 0, 0)])] :
          List (Instr × (Nat → Nat × Flags) × List (Nat × Nat × Flags))),
      (∃ o, p.1.vcompute x = some o ∧ o.lfsr = x.lfsr ∧ LanesAre o 32 x.len (fun j => p.2.1 (x.a / 2^(32 * j) % 2^32))) ∧
      (∀ e ∈ p.2.2, p.2.1 e.1 = (e.2.1, e.2.2)) ∧ p.2.1 0x7F800001 = (0x7FC00000, Flags.iv) ∧ p.2.1 0x7FC00001 = (0x7FC00000, 0))

/-- R50 to R55, R20, R75: when a core issues and the thread it picks has a bundle before it whose words decode, the step is
the exec of the decoded word at that state, with what a completed word leaves (`finish`) around it: the first word of a lone
bundle, its second word, or both words of a pair, the second on what the first left unless the first trapped or waits. Where the
first word of a pair moves a flume's head (FCONS, SUNBIND), the streams that the second word pops are popped before it (log entry
81). -/
def Obligations.StepRunsWords : Prop :=
  ∀ (s r u : State) (c t : Nat) (l : List Turn), s.leaveDue = false → s.firstDue s.threads = none → s.launchDue = none →
    s.agenda = .issue c :: l → c < 1024 →
    r = { s with agenda := l } → r.pickThread c = some t → u = r.begin t →
    (∀ (w1 : BitVec 32) (j : Instr), u.me.second = some w1 → u.at.getLsbD 2 = true →
      decodeSecond w1 = some j →
      step s = (match exec j u with
        | .next v => .next (v.finish u.me [j] v.me.flow)
        | e => e)) ∧
    (u.at.getLsbD 2 = false → u.me.fetched = none → u.walkWaits (bundleOf u.at) = false →
      ∀ (a : Nat) (w0 w1 : BitVec 32) (z : State), u.fetchAddress u.cur (bundleOf u.at) = .ok a →
      z = u.readySource (dieOf u.here) a 8 →
      (w0.toNat, w1.toNat) = (leValue ((z.dieBytes (dieOf u.here) a 8).take 4), leValue ((z.dieBytes (dieOf u.here) a 8).drop 4)) →
      ∀ v, v = z.modMe (fun x => { x with fetched := some (w0, w1), skip := x.skip.filter (fun k => k.1 != bundleOf u.at) }) →
      (∀ i j m, decodeBundle w0 w1 = .lone i j → m = v.modMe (fun x => { x with second := some w1 }) →
        step s = (match exec i m with
          | .next n => .next (n.finish m.me [i] n.me.flow)
          | e => e)) ∧
      (∀ i j m, decodeBundle w0 w1 = .pair i j →
        v.pairSlots i j = 0 ∨ (v.coreAt v.here).vqueue.length + v.pairSlots i j ≤ 16 →
        m = (if movesHead i then ({ v with pair := some (v.pairView i) } : State).popAhead i j
          else { v with pair := some (v.pairView i) }) →
        step s = (match exec i m with
          | .next n =>
            if n.me.flow = .trapped ∨ n.me.flow = .waits then .next (n.finish m.me [i, j] n.me.flow)
            else match exec j (n.modMe (fun x => { x with pc := x.pc + 4, flow := .falls })) with
              | .next k => .next ((k.modMe (fun x => { x with pc := m.me.pc })).finish m.me [i, j] n.me.flow)
              | e => e
          | e => e)))

/-- R50 to R69, R148: words written out from the encoding tables, and the bundles of R55, decode to the instructions they
stand for. R53: the word 0 is NOP, a C-class word that counts as an A-class one in the second slot of a pair. -/
def Obligations.SpecWordsDecode : Prop :=
  (∀ p ∈ ([(0x40A18681, .sub 20 12 13), (0x429A5FFF, .addi 19 18 0x1FFF), (0x4E9140BF, .srai 18 10 63), (0x50900012, .lui 18 18),
    (0x56914585, .fadd 18 10 11 .dyn), (0x56914053, .ftoiW 18 10 .rtz), (0x58914598, .fmaS 18 10 11 12), (0x0C516008, .blt 10 11 8),
    (0x04080040, .jal 1 64), (0x06002000, .jalr 0 1 0), (0x1500000A, .loop 32 10), (0x02900011, .csrrs 18 0 8),
    (0x00009182, .trap 0x123), (0x16985FEE, .load 19 2 0x1FE .d true false), (0x18940030, .store 18 32 3 .b false false),
    (0x1AA1400D, .lda 20 10 0 .d .die), (0x1B09581B, .stl 33 10 true 1 .w .sys), (0x00000012, .fencePkg),
    (0x1C996A4A, .amoCas 19 11 20 .d false), (0x1E016608, .putr 11 12 .w false), (0x20940580, .get 18 32 11),
    (0x23014280, .send 32 10 5), (0x22942281, .recv 18 33 5), (0x24900182, .bdom 18 0 3), (0x26914580, .weirCadd 18 10 11),
    (0x28900185, .frd 18 3), (0x5A308800, .varithVadd 3 1 2 false false .f32), (0x64531D40, .vfma 5 6 7 false true .bf16),
    (0x5C952C4D, .vintVadds 9 10 11 false false .i16), (0x5E442480, .vcvtBf16F32 4 8 9 false false true),
    (0x30182110, .vld 1 32 33 .w), (0x32E18182, .sbind 0 12 3), (0x32214585, .vmovxVx 4 10 11), (0x2A996003, .rsvWP 19 11),
    (0x2E914581, .lpatchPrio 18 10 11), (0x2C914000, .spore 18 10)] : List (Nat × Instr)),
      decodeWord p.1 = .ok p.2 ∧ decodeTableWord 32 p.1 = some p.2) ∧
  decodeBundle 0x18996029 0x40A18681 = .pair (.store 19 11 2 .w false true) (.sub 20 12 13) ∧
  decodeBundle 0x88A01FFC 0 = .lone (.beq 20 0 0x1FFC) .nop ∧
  decodeBundle 0x40A18680 0x18996029 = .illegal 0 0x40A18680 0 ∧
  decodeBundle 0x18996029 0x96916028 = .illegal 1 0x96916028 0 ∧
  decodeWord 0 = .ok .nop ∧ decodeBundle 0 0 = .pair .nop .nop ∧ decodeBundle 0x80000000 0 = .lone .nop .nop ∧
  decodeBundle 0x18996029 0 = .pair (.store 19 11 2 .w false true) .nop ∧ decodeBundle 0 0x40A18681 = .pair .nop (.sub 20 12 13)

/-- R55 to R69: for every well-formed instruction that has a word, decoding that word gives the instruction back, with every
operand at every value that the encoding admits. -/
def Obligations.DecodeOfEncode : Prop :=
  ∀ (i : Instr) (w : Nat), i.wf = true → encodeWord i = some w → w < 2^31 ∧ decodeWord w = .ok i

/-- R55, R147: the other direction: a word that decodes is the word of the instruction it decodes to, so no two words stand
for one instruction and no bit of a word is dropped. -/
def Obligations.EncodeOfDecode : Prop :=
  ∀ (i : Instr) (w : Nat), w < 2^31 → decodeWord w = .ok i → i.wf = true ∧ encodeWord i = some w

/-! The invariant. -/

/-- R306, R326, R397: memory after reset is in its canonical form: addresses rising, no byte listed that reads as unlisted;
every byte of it reads zero, in host and fabric memory by log entry 6. -/
def Obligations.ResetMemoryIsCanonical : Prop :=
  Memory.wf State.reset.mem = true ∧ ∀ a, Memory.read State.reset.mem a = 0

/-- R15, R151, R152: every step, whichever agent takes it, keeps memory in its canonical form, so that equal memories are
equal data. -/
def Obligations.StepKeepsMemoryCanonical : Prop :=
  ∀ s t : State, Memory.wf s.mem = true → step s = .next t → Memory.wf t.mem = true
end

