-- ==== Sys2Proof/Laws/Sparse.lean ====
section
/-!
SUPPORT. Reading a table after a change of it.
-/
namespace Sys2Proof

/-- A table's first entry is listed under its key and hides a later one. -/
theorem Sparse.find_cons {α : Type} (e : Nat × α) (r : Sparse α) (k : Nat) :
    Sparse.find? (e :: r) k = if e.1 = k then some e.2 else Sparse.find? r k := by
  unfold Sparse.find?
  rw [List.find?_cons]
  split <;> rename_i h <;> simp_all

/-- What is listed after an entry has been set. -/
theorem Sparse.find_set {α : Type} (m : Sparse α) (k l : Nat) (v : α) :
    Sparse.find? (Sparse.set m k v) l = if l = k then some v else Sparse.find? m l := by
  fun_induction Sparse.set m k v with
  | case1 => simp [Sparse.find_cons, eq_comm]
  | case2 e r k v h ih =>
    have := Nat.ne_of_lt (Nat.compare_eq_lt.1 h)
    rw [Sparse.find_cons, Sparse.find_cons, ih]
    split <;> split <;> simp_all
  | case3 e r k v h =>
    rw [Sparse.find_cons, Sparse.find_cons, Nat.compare_eq_eq.1 h]
    split <;> split <;> simp_all
  | case4 e r k v h =>
    rw [Sparse.find_cons]
    split <;> split <;> simp_all

/-- The set entry is listed. -/
@[simp] theorem Sparse.find_set_same {α : Type} (m : Sparse α) (k : Nat) (v : α) :
    Sparse.find? (Sparse.set m k v) k = some v := by simp [Sparse.find_set]

/-- Whether another entry is listed does not change. -/
theorem Sparse.find_set_other {α : Type} (m : Sparse α) (k l : Nat) (v : α) (h : l ≠ k) :
    Sparse.find? (Sparse.set m k v) l = Sparse.find? m l := by simp [Sparse.find_set, h]

/-- Reading any entry after one has been set. -/
theorem Sparse.get_set {α : Type} (m : Sparse α) (k l : Nat) (v d : α) :
    Sparse.get (Sparse.set m k v) l d = if l = k then v else Sparse.get m l d := by
  unfold Sparse.get
  rw [Sparse.find_set]
  split <;> rfl

/-- The changed entry reads as its new value. -/
@[simp] theorem Sparse.get_set_same {α : Type} (m : Sparse α) (k : Nat) (v d : α) :
    Sparse.get (Sparse.set m k v) k d = v := by simp [Sparse.get_set]

/-- Another entry keeps its value. -/
theorem Sparse.get_set_other {α : Type} (m : Sparse α) (k l : Nat) (v d : α) (h : l ≠ k) :
    Sparse.get (Sparse.set m k v) l d = Sparse.get m l d := by simp [Sparse.get_set, h]

/-- The later of two settings of one key stands. -/
@[simp] theorem Sparse.set_set {α : Type} (m : Sparse α) (k : Nat) (u v : α) :
    Sparse.set (Sparse.set m k u) k v = Sparse.set m k v := by
  fun_induction Sparse.set m k v <;> simp_all [Sparse.set]

/-- A listed entry is what a read gives. -/
theorem Sparse.get_of_find {α : Type} {m : Sparse α} {k : Nat} {v : α} (h : Sparse.find? m k = some v) (d : α) :
    Sparse.get m k d = v := by simp [Sparse.get, h]

/-- An entry that is not listed reads as the default. -/
theorem Sparse.get_of_not_listed {α : Type} {m : Sparse α} {k : Nat} (h : Sparse.find? m k = none) (d : α) :
    Sparse.get m k d = d := by simp [Sparse.get, h]

/-- What is listed after an entry has been erased. -/
theorem Sparse.find_erase {α : Type} (m : Sparse α) (k l : Nat) :
    Sparse.find? (Sparse.erase m k) l = if l = k then none else Sparse.find? m l := by
  unfold Sparse.find? Sparse.erase
  rw [List.find?_filter]
  split
  · subst_vars; simp
  · congr 2; funext e; by_cases h : e.1 = l <;> simp_all

/-- An erased entry is not listed. -/
@[simp] theorem Sparse.find_erase_same {α : Type} (m : Sparse α) (k : Nat) : Sparse.find? (Sparse.erase m k) k = none := by
  simp [Sparse.find_erase]

/-- Erasing an entry leaves the others. -/
theorem Sparse.find_erase_other {α : Type} (m : Sparse α) (k l : Nat) (h : l ≠ k) :
    Sparse.find? (Sparse.erase m k) l = Sparse.find? m l := by simp [Sparse.find_erase, h]

/-- The entries of a table changed by f. -/
theorem Sparse.find_mapValues {α : Type} (m : Sparse α) (f : Nat → α → α) (k : Nat) :
    Sparse.find? (Sparse.mapValues m f) k = (Sparse.find? m k).map (f k) := by
  unfold Sparse.find? Sparse.mapValues
  rw [List.find?_map, Option.map_map, Option.map_map]
  refine Option.map_congr fun e he => ?_
  have := List.find?_some he
  simp_all

end Sys2Proof
end

