-- ==== Sys2Proof/Laws/Memory.lean ====
section
/-!
SUPPORT. Memory: a read after a write, and that every operation keeps the canonical form.
-/
namespace Sys2Proof.Machine

/-- Every byte after one has been written. -/
theorem Memory.read_write (m : List Host.Cell) (a k : Nat) (b : Byte) :
    Memory.read (Memory.write m a b) k = if k = a then b else Memory.read m k := by
  unfold Memory.write Memory.read
  by_cases h : b = Memory.unlisted
  · rw [if_pos h, Sparse.get, Sparse.find_erase]
    split
    · exact h.symm
    · rfl
  · rw [if_neg h, Sparse.get_set]

/-- A written byte reads as what was written. -/
@[simp] theorem Memory.read_write_same (m : List Host.Cell) (a : Nat) (b : Byte) : Memory.read (Memory.write m a b) a = b := by
  simp [Memory.read_write]

/-- Every other byte reads as before. -/
theorem Memory.read_write_other (m : List Host.Cell) (a k : Nat) (b : Byte) (h : k ≠ a) :
    Memory.read (Memory.write m a b) k = Memory.read m k := by simp [Memory.read_write, h]

/-- Raising the bound of cells that lie higher. -/
theorem Memory.above_mono {lo lo' : Nat} {m : List Host.Cell} (h : Memory.above lo' m = true) (g : lo ≤ lo') :
    Memory.above lo m = true := by
  cases m with
  | nil => rfl
  | cons c r =>
    simp only [Memory.above, Bool.and_eq_true, decide_eq_true_eq] at h ⊢
    exact ⟨⟨by omega, h.1.2⟩, h.2⟩

/-- The canonical form says that every cell's key lies above the one before it. -/
theorem Memory.wf_cons (c : Host.Cell) (r : List Host.Cell) :
    Memory.wf (c :: r) = true ↔ c.2 ≠ Memory.unlisted ∧ Memory.above c.1 r = true := by
  simp [Memory.wf]

/-- Cells above a bound are in canonical form. -/
theorem Memory.wf_of_above {lo : Nat} {m : List Host.Cell} (h : Memory.above lo m = true) : Memory.wf m = true := by
  cases m with
  | nil => rfl
  | cons c r =>
    simp only [Memory.above, Bool.and_eq_true, decide_eq_true_eq] at h
    exact (Memory.wf_cons c r).2 ⟨h.1.2, h.2⟩

/-- Leaving cells out keeps them above a bound. -/
theorem Memory.above_filter {lo : Nat} (m : List Host.Cell) (p : Host.Cell → Bool) (h : Memory.above lo m = true) :
    Memory.above lo (m.filter p) = true := by
  induction m generalizing lo with
  | nil => simp [Memory.above]
  | cons c r ih =>
    simp only [Memory.above, Bool.and_eq_true, decide_eq_true_eq] at h
    by_cases e : p c = true
    · simp only [List.filter_cons, e, if_true, Memory.above, Bool.and_eq_true, decide_eq_true_eq]
      exact ⟨h.1, ih h.2⟩
    · simp only [List.filter_cons, e]
      exact ih (Memory.above_mono h.2 (by omega))

/-- Leaving cells out keeps the canonical form: a cleared range, a scrubbed frame, a cold reset. -/
theorem Memory.wf_filter (m : List Host.Cell) (p : Host.Cell → Bool) (h : Memory.wf m = true) :
    Memory.wf (m.filter p) = true := by
  cases m with
  | nil => rfl
  | cons c r =>
    obtain ⟨h1, h2⟩ := (Memory.wf_cons _ _).1 h
    by_cases e : p c = true
    · simp only [List.filter_cons, e, if_true]
      exact (Memory.wf_cons _ _).2 ⟨h1, Memory.above_filter r p h2⟩
    · simp only [List.filter_cons, e]
      exact Memory.wf_of_above (Memory.above_filter r p h2)

/-- A byte that is set above a bound keeps the cells above it. -/
theorem Memory.above_set {lo : Nat} (m : List Host.Cell) (a : Nat) (b : Byte) (h : Memory.above lo m = true) (g : lo < a)
    (hb : b ≠ Memory.unlisted) : Memory.above lo (Sparse.set m a b) = true := by
  fun_induction Sparse.set m a b generalizing lo with
  | case1 => simp [Memory.above, hb, g]
  | case2 e r k v c ih =>
    simp only [Memory.above, Bool.and_eq_true] at h ⊢
    exact ⟨h.1, ih h.2 (Nat.compare_eq_lt.1 c) hb⟩
  | case3 e r k v c => simp_all [Memory.above, Nat.compare_eq_eq.1 c]
  | case4 e r k v c => simp_all [Memory.above, Nat.compare_eq_gt.1 c]

/-- A write keeps the canonical form. -/
theorem Memory.wf_write (m : List Host.Cell) (a : Nat) (b : Byte) (h : Memory.wf m = true) :
    Memory.wf (Memory.write m a b) = true := by
  by_cases hb : b = Memory.unlisted
  · rw [Memory.write, if_pos hb]
    exact Memory.wf_filter m _ h
  · rw [Memory.write, if_neg hb]
    cases m with
    | nil => simp [Sparse.set, Memory.wf, hb, Memory.above]
    | cons c r =>
      obtain ⟨h1, h2⟩ := (Memory.wf_cons _ _).1 h
      unfold Sparse.set
      split
      · exact (Memory.wf_cons _ _).2 ⟨h1, Memory.above_set r a b h2 (Nat.compare_eq_lt.1 ‹_›) hb⟩
      · exact (Memory.wf_cons _ _).2 ⟨hb, Nat.compare_eq_eq.1 ‹_› ▸ h2⟩
      · simp_all [Memory.wf, Memory.above, Nat.compare_eq_gt.1 ‹_›]

/-- Writing bytes keeps the canonical form. -/
theorem Memory.wf_writeBytes (m : List Host.Cell) (a : Nat) (bs : List Byte) (h : Memory.wf m = true) :
    Memory.wf (Memory.writeBytes m a bs) = true := by
  induction bs generalizing m a with
  | nil => exact h
  | cons b bs ih => exact ih _ _ (Memory.wf_write m a b h)

/-- Putting cells back keeps the canonical form. -/
theorem Memory.wf_restore (m cs : List Host.Cell) (h : Memory.wf m = true) : Memory.wf (Memory.restore m cs) = true := by
  induction cs generalizing m with
  | nil => exact h
  | cons c cs ih => exact ih _ (Memory.wf_write m c.1 c.2 h)

/-- Clearing a range keeps the canonical form. -/
theorem Memory.wf_clear (m : List Host.Cell) (a n : Nat) (h : Memory.wf m = true) : Memory.wf (Memory.clear m a n) = true :=
  Memory.wf_filter m _ h

/-- Writing bytes leaves every byte outside them. -/
theorem Memory.read_writeBytes_outside (m : List Host.Cell) (a k : Nat) (bs : List Byte) (h : k < a ∨ a + bs.length ≤ k) :
    Memory.read (Memory.writeBytes m a bs) k = Memory.read m k := by
  induction bs generalizing m a with
  | nil => rfl
  | cons b bs ih =>
    simp only [List.length_cons] at h
    rw [Memory.writeBytes, ih _ _ (by omega), Memory.read_write_other _ _ _ _ (by omega)]

/-- A written byte reads as the value written there. -/
theorem Memory.read_writeBytes (m : List Host.Cell) (a i : Nat) (bs : List Byte)
    (g : i < bs.length) : Memory.read (Memory.writeBytes m a bs) (a + i) = bs[i] := by
  induction bs generalizing m a i with
  | nil => simp at g
  | cons b bs ih =>
    rw [Memory.writeBytes]
    cases i with
    | zero => simp [Memory.read_writeBytes_outside]
    | succ i =>
      have := ih (Memory.write m a b) (a + 1) i (by simpa using g)
      simpa [Nat.add_assoc, Nat.add_comm 1 i] using this

end Sys2Proof.Machine
end

