-- ==== Sys2Proof/Laws/Spore.lean ====
section
/-!
SUPPORT. The sizes of a core's context block (R384), 0x143200 bytes whatever the core holds, and of a SHA-256 digest, 32 bytes.
-/
namespace Sys2Proof.Machine

theorem leBytes_length (v n : Nat) : (leBytes v n).length = n := by
  induction n generalizing v with
  | zero => rfl
  | succ k ih => simp [leBytes, ih]

theorem fit_length (bs : List Byte) (n : Nat) : (fit bs n).length = n := by
  simp only [fit, zeros, List.length_take, List.length_append, List.length_replicate]; omega

/-- Pieces of one size, joined. -/
theorem flatMap_length {α : Type} (l : List α) (f : α → List Byte) (n : Nat) (h : ∀ x, (f x).length = n) :
    (l.flatMap f).length = l.length * n := by
  induction l with
  | nil => simp
  | cons x r ih => rw [List.flatMap_cons, List.length_append, h, ih, List.length_cons, Nat.succ_mul]; omega

theorem readBytes_length (m : List Host.Cell) (a n : Nat) : (Memory.readBytes m a n).length = n := by
  induction n generalizing a with
  | zero => rfl
  | succ k ih => simp [Memory.readBytes, ih]

theorem bindBytes_length (b : Option Bind) : (bindBytes b).length = 16 := by
  cases b <;> simp [bindBytes, zeros, leBytes_length]

theorem flumeBytes_length (f : Flume) (n : Nat) : (flumeBytes f n).length = 16 := by
  unfold flumeBytes; split <;> simp [zeros, leBytes_length]

theorem threadArea_length (x : Thread) (q : Nat) : (threadArea x q).length = 0x800 := by
  simp [threadArea, fit_length]

theorem contextBlock_length (g : Snapshot) (q : Nat) : (contextBlock g q).length = 0x143200 := by
  simp only [contextBlock, List.length_append, readBytes_length, queueBytes]
  rw [flatMap_length _ _ 1024 (fun _ => fit_length _ _), flatMap_length _ vregBytes 128 (fun _ => leBytes_length _ _),
    flatMap_length _ _ 4 (fun _ => leBytes_length _ _), flatMap_length _ _ 16 (fun _ => flumeBytes_length _ _),
    flatMap_length _ _ 16 (fun _ => bindBytes_length _), fit_length,
    flatMap_length _ _ 0x800 (fun i => by
      split
      · exact threadArea_length _ _
      · exact List.length_replicate)]
  simp only [List.length_range, Vector.length_toList, List.length_cons, List.length_nil]

/-! SHA-256 (FIPS 180-4; log entry 20). -/

/-- A round keeps eight words. -/
theorem mix_length (x : List (BitVec 32)) (k : BitVec 32) (h : x.length = 8) : (Sha.mix x k).length = 8 := by
  unfold Sha.mix
  split
  · rfl
  · exact h

/-- So do any rounds. -/
theorem rounds_length (l : List (BitVec 32)) : ∀ x : List (BitVec 32), x.length = 8 → (l.foldl Sha.mix x).length = 8 := by
  induction l with
  | nil => exact fun x h => h
  | cons k l ih => exact fun x h => ih _ (mix_length x k h)

/-- So does a block. -/
theorem absorb_length (x : List (BitVec 32)) (b : List Byte) (h : x.length = 8) : (Sha.absorb x b).length = 8 := by
  simp [Sha.absorb, rounds_length _ x h, h]

/-- So does a chain of blocks. -/
theorem chain_length (m : List Byte) (l : List Nat) : ∀ x : List (BitVec 32), x.length = 8 →
    (l.foldl (fun x i => Sha.absorb x ((m.drop (64 * i)).take 64)) x).length = 8 := by
  induction l with
  | nil => exact fun x h => h
  | cons k l ih => exact fun x h => ih _ (absorb_length x _ h)

/-- FIPS 180-4: SHA-256 gives 32 bytes. -/
theorem sha256_length (bs : List Byte) : (Sha.sha256 bs).length = 32 := by
  have h8 : Sha.start.length = 8 := by decide +kernel
  have h := chain_length (Sha.padded bs) (List.range ((Sha.padded bs).length / 64)) _ h8
  simp only [Sha.sha256, List.length_flatMap, Sha.highFirst, List.length_reverse]
  have : ∀ l : List (BitVec 32), (l.map (fun w => (leBytes w.toNat 4).length)).sum = 4 * l.length := by
    intro l; induction l with
    | nil => rfl
    | cons a l ih => simp only [List.map_cons, List.sum_cons, ih, List.length_cons]; simp [leBytes]; omega
  rw [this, h]

end Sys2Proof.Machine
end

