-- ==== Sys2Proof/Laws/State.lean ====
section
/-!
SUPPORT. What each named update of the state leaves alone, field by field, and how the accessors read after it.
-/
namespace Sys2Proof.Machine

/-! `State.setThread`. -/

@[simp] theorem State.setThread_cores (s : State) (t : Nat) (v : Thread) : (s.setThread t v).cores = s.cores := rfl
@[simp] theorem State.setThread_mem (s : State) (t : Nat) (v : Thread) : (s.setThread t v).mem = s.mem := rfl
@[simp] theorem State.setThread_stale (s : State) (t : Nat) (v : Thread) : (s.setThread t v).stale = s.stale := rfl
@[simp] theorem State.setThread_noticed (s : State) (t : Nat) (v : Thread) : (s.setThread t v).noticed = s.noticed := rfl
@[simp] theorem State.setThread_basinDirty (s : State) (t : Nat) (v : Thread) : (s.setThread t v).basinDirty = s.basinDirty := rfl
@[simp] theorem State.setThread_notices (s : State) (t : Nat) (v : Thread) : (s.setThread t v).notices = s.notices := rfl
@[simp] theorem State.setThread_heldLines (s : State) (t : Nat) (v : Thread) : (s.setThread t v).heldLines = s.heldLines := rfl
@[simp] theorem State.setThread_forwards (s : State) (t : Nat) (v : Thread) : (s.setThread t v).forwards = s.forwards := rfl
@[simp] theorem State.setThread_requests (s : State) (t : Nat) (v : Thread) : (s.setThread t v).requests = s.requests := rfl
@[simp] theorem State.setThread_windows (s : State) (t : Nat) (v : Thread) : (s.setThread t v).windows = s.windows := rfl
@[simp] theorem State.setThread_packets (s : State) (t : Nat) (v : Thread) : (s.setThread t v).packets = s.packets := rfl
@[simp] theorem State.setThread_poison (s : State) (t : Nat) (v : Thread) : (s.setThread t v).poison = s.poison := rfl
@[simp] theorem State.setThread_blocks (s : State) (t : Nat) (v : Thread) : (s.setThread t v).blocks = s.blocks := rfl
@[simp] theorem State.setThread_counters (s : State) (t : Nat) (v : Thread) : (s.setThread t v).counters = s.counters := rfl
@[simp] theorem State.setThread_sems (s : State) (t : Nat) (v : Thread) : (s.setThread t v).sems = s.sems := rfl
@[simp] theorem State.setThread_weirBars (s : State) (t : Nat) (v : Thread) : (s.setThread t v).weirBars = s.weirBars := rfl
@[simp] theorem State.setThread_domains (s : State) (t : Nat) (v : Thread) : (s.setThread t v).domains = s.domains := rfl
@[simp] theorem State.setThread_tags (s : State) (t : Nat) (v : Thread) : (s.setThread t v).tags = s.tags := rfl
@[simp] theorem State.setThread_physical (s : State) (t : Nat) (v : Thread) : (s.setThread t v).physical = s.physical := rfl
@[simp] theorem State.setThread_quarantined (s : State) (t : Nat) (v : Thread) : (s.setThread t v).quarantined = s.quarantined := rfl
@[simp] theorem State.setThread_usedSpares (s : State) (t : Nat) (v : Thread) : (s.setThread t v).usedSpares = s.usedSpares := rfl
@[simp] theorem State.setThread_retiring (s : State) (t : Nat) (v : Thread) : (s.setThread t v).retiring = s.retiring := rfl
@[simp] theorem State.setThread_recentErrors (s : State) (t : Nat) (v : Thread) : (s.setThread t v).recentErrors = s.recentErrors := rfl
@[simp] theorem State.setThread_testFails (s : State) (t : Nat) (v : Thread) : (s.setThread t v).testFails = s.testFails := rfl
@[simp] theorem State.setThread_pendingSpare (s : State) (t : Nat) (v : Thread) : (s.setThread t v).pendingSpare = s.pendingSpare := rfl
@[simp] theorem State.setThread_parts (s : State) (t : Nat) (v : Thread) : (s.setThread t v).parts = s.parts := rfl
@[simp] theorem State.setThread_launches (s : State) (t : Nat) (v : Thread) : (s.setThread t v).launches = s.launches := rfl
@[simp] theorem State.setThread_copies (s : State) (t : Nat) (v : Thread) : (s.setThread t v).copies = s.copies := rfl
@[simp] theorem State.setThread_sfu (s : State) (t : Nat) (v : Thread) : (s.setThread t v).sfu = s.sfu := rfl
@[simp] theorem State.setThread_frames (s : State) (t : Nat) (v : Thread) : (s.setThread t v).frames = s.frames := rfl
@[simp] theorem State.setThread_hostScrubs (s : State) (t : Nat) (v : Thread) : (s.setThread t v).hostScrubs = s.hostScrubs := rfl
@[simp] theorem State.setThread_bootScrubbed (s : State) (t : Nat) (v : Thread) : (s.setThread t v).bootScrubbed = s.bootScrubbed := rfl
@[simp] theorem State.setThread_telemetry (s : State) (t : Nat) (v : Thread) : (s.setThread t v).telemetry = s.telemetry := rfl
@[simp] theorem State.setThread_fill (s : State) (t : Nat) (v : Thread) : (s.setThread t v).fill = s.fill := rfl
@[simp] theorem State.setThread_drain (s : State) (t : Nat) (v : Thread) : (s.setThread t v).drain = s.drain := rfl
@[simp] theorem State.setThread_sluiceClosed (s : State) (t : Nat) (v : Thread) : (s.setThread t v).sluiceClosed = s.sluiceClosed := rfl
@[simp] theorem State.setThread_cutTest (s : State) (t : Nat) (v : Thread) : (s.setThread t v).cutTest = s.cutTest := rfl
@[simp] theorem State.setThread_voltages (s : State) (t : Nat) (v : Thread) : (s.setThread t v).voltages = s.voltages := rfl
@[simp] theorem State.setThread_sluice (s : State) (t : Nat) (v : Thread) : (s.setThread t v).sluice = s.sluice := rfl
@[simp] theorem State.setThread_modes (s : State) (t : Nat) (v : Thread) : (s.setThread t v).modes = s.modes := rfl
@[simp] theorem State.setThread_functions (s : State) (t : Nat) (v : Thread) : (s.setThread t v).functions = s.functions := rfl
@[simp] theorem State.setThread_hostReply (s : State) (t : Nat) (v : Thread) : (s.setThread t v).hostReply = s.hostReply := rfl
@[simp] theorem State.setThread_now (s : State) (t : Nat) (v : Thread) : (s.setThread t v).now = s.now := rfl
@[simp] theorem State.setThread_ptpLocked (s : State) (t : Nat) (v : Thread) : (s.setThread t v).ptpLocked = s.ptpLocked := rfl
@[simp] theorem State.setThread_timeSet (s : State) (t : Nat) (v : Thread) : (s.setThread t v).timeSet = s.timeSet := rfl
@[simp] theorem State.setThread_anyStart (s : State) (t : Nat) (v : Thread) : (s.setThread t v).anyStart = s.anyStart := rfl
@[simp] theorem State.setThread_errors (s : State) (t : Nat) (v : Thread) : (s.setThread t v).errors = s.errors := rfl
@[simp] theorem State.setThread_errorCount (s : State) (t : Nat) (v : Thread) : (s.setThread t v).errorCount = s.errorCount := rfl
@[simp] theorem State.setThread_dropLog (s : State) (t : Nat) (v : Thread) : (s.setThread t v).dropLog = s.dropLog := rfl
@[simp] theorem State.setThread_mctp (s : State) (t : Nat) (v : Thread) : (s.setThread t v).mctp = s.mctp := rfl
@[simp] theorem State.setThread_i3c (s : State) (t : Nat) (v : Thread) : (s.setThread t v).i3c = s.i3c := rfl
@[simp] theorem State.setThread_version (s : State) (t : Nat) (v : Thread) : (s.setThread t v).version = s.version := rfl
@[simp] theorem State.setThread_firmware (s : State) (t : Nat) (v : Thread) : (s.setThread t v).firmware = s.firmware := rfl
@[simp] theorem State.setThread_staged (s : State) (t : Nat) (v : Thread) : (s.setThread t v).staged = s.staged := rfl
@[simp] theorem State.setThread_stagesUp (s : State) (t : Nat) (v : Thread) : (s.setThread t v).stagesUp = s.stagesUp := rfl
@[simp] theorem State.setThread_droop (s : State) (t : Nat) (v : Thread) : (s.setThread t v).droop = s.droop := rfl
@[simp] theorem State.setThread_limited (s : State) (t : Nat) (v : Thread) : (s.setThread t v).limited = s.limited := rfl
@[simp] theorem State.setThread_routes (s : State) (t : Nat) (v : Thread) : (s.setThread t v).routes = s.routes := rfl
@[simp] theorem State.setThread_failedLanes (s : State) (t : Nat) (v : Thread) : (s.setThread t v).failedLanes = s.failedLanes := rfl
@[simp] theorem State.setThread_saved (s : State) (t : Nat) (v : Thread) : (s.setThread t v).saved = s.saved := rfl
@[simp] theorem State.setThread_pair (s : State) (t : Nat) (v : Thread) : (s.setThread t v).pair = s.pair := rfl
@[simp] theorem State.setThread_cur (s : State) (t : Nat) (v : Thread) : (s.setThread t v).cur = s.cur := rfl
@[simp] theorem State.setThread_turn (s : State) (t : Nat) (v : Thread) : (s.setThread t v).turn = s.turn := rfl
@[simp] theorem State.setThread_nextId (s : State) (t : Nat) (v : Thread) : (s.setThread t v).nextId = s.nextId := rfl
@[simp] theorem State.setThread_freeCount (s : State) (t : Nat) (v : Thread) : (s.setThread t v).freeCount = s.freeCount := rfl
@[simp] theorem State.setThread_agenda (s : State) (t : Nat) (v : Thread) : (s.setThread t v).agenda = s.agenda := rfl

/-! `State.modThread`. -/

@[simp] theorem State.modThread_cores (s : State) (t : Nat) (f : Thread → Thread) : (s.modThread t f).cores = s.cores := rfl
@[simp] theorem State.modThread_mem (s : State) (t : Nat) (f : Thread → Thread) : (s.modThread t f).mem = s.mem := rfl
@[simp] theorem State.modThread_stale (s : State) (t : Nat) (f : Thread → Thread) : (s.modThread t f).stale = s.stale := rfl
@[simp] theorem State.modThread_noticed (s : State) (t : Nat) (f : Thread → Thread) : (s.modThread t f).noticed = s.noticed := rfl
@[simp] theorem State.modThread_basinDirty (s : State) (t : Nat) (f : Thread → Thread) : (s.modThread t f).basinDirty = s.basinDirty := rfl
@[simp] theorem State.modThread_notices (s : State) (t : Nat) (f : Thread → Thread) : (s.modThread t f).notices = s.notices := rfl
@[simp] theorem State.modThread_heldLines (s : State) (t : Nat) (f : Thread → Thread) : (s.modThread t f).heldLines = s.heldLines := rfl
@[simp] theorem State.modThread_forwards (s : State) (t : Nat) (f : Thread → Thread) : (s.modThread t f).forwards = s.forwards := rfl
@[simp] theorem State.modThread_requests (s : State) (t : Nat) (f : Thread → Thread) : (s.modThread t f).requests = s.requests := rfl
@[simp] theorem State.modThread_windows (s : State) (t : Nat) (f : Thread → Thread) : (s.modThread t f).windows = s.windows := rfl
@[simp] theorem State.modThread_packets (s : State) (t : Nat) (f : Thread → Thread) : (s.modThread t f).packets = s.packets := rfl
@[simp] theorem State.modThread_poison (s : State) (t : Nat) (f : Thread → Thread) : (s.modThread t f).poison = s.poison := rfl
@[simp] theorem State.modThread_blocks (s : State) (t : Nat) (f : Thread → Thread) : (s.modThread t f).blocks = s.blocks := rfl
@[simp] theorem State.modThread_counters (s : State) (t : Nat) (f : Thread → Thread) : (s.modThread t f).counters = s.counters := rfl
@[simp] theorem State.modThread_sems (s : State) (t : Nat) (f : Thread → Thread) : (s.modThread t f).sems = s.sems := rfl
@[simp] theorem State.modThread_weirBars (s : State) (t : Nat) (f : Thread → Thread) : (s.modThread t f).weirBars = s.weirBars := rfl
@[simp] theorem State.modThread_domains (s : State) (t : Nat) (f : Thread → Thread) : (s.modThread t f).domains = s.domains := rfl
@[simp] theorem State.modThread_tags (s : State) (t : Nat) (f : Thread → Thread) : (s.modThread t f).tags = s.tags := rfl
@[simp] theorem State.modThread_physical (s : State) (t : Nat) (f : Thread → Thread) : (s.modThread t f).physical = s.physical := rfl
@[simp] theorem State.modThread_quarantined (s : State) (t : Nat) (f : Thread → Thread) : (s.modThread t f).quarantined = s.quarantined := rfl
@[simp] theorem State.modThread_usedSpares (s : State) (t : Nat) (f : Thread → Thread) : (s.modThread t f).usedSpares = s.usedSpares := rfl
@[simp] theorem State.modThread_retiring (s : State) (t : Nat) (f : Thread → Thread) : (s.modThread t f).retiring = s.retiring := rfl
@[simp] theorem State.modThread_recentErrors (s : State) (t : Nat) (f : Thread → Thread) : (s.modThread t f).recentErrors = s.recentErrors := rfl
@[simp] theorem State.modThread_testFails (s : State) (t : Nat) (f : Thread → Thread) : (s.modThread t f).testFails = s.testFails := rfl
@[simp] theorem State.modThread_pendingSpare (s : State) (t : Nat) (f : Thread → Thread) : (s.modThread t f).pendingSpare = s.pendingSpare := rfl
@[simp] theorem State.modThread_parts (s : State) (t : Nat) (f : Thread → Thread) : (s.modThread t f).parts = s.parts := rfl
@[simp] theorem State.modThread_launches (s : State) (t : Nat) (f : Thread → Thread) : (s.modThread t f).launches = s.launches := rfl
@[simp] theorem State.modThread_copies (s : State) (t : Nat) (f : Thread → Thread) : (s.modThread t f).copies = s.copies := rfl
@[simp] theorem State.modThread_sfu (s : State) (t : Nat) (f : Thread → Thread) : (s.modThread t f).sfu = s.sfu := rfl
@[simp] theorem State.modThread_frames (s : State) (t : Nat) (f : Thread → Thread) : (s.modThread t f).frames = s.frames := rfl
@[simp] theorem State.modThread_hostScrubs (s : State) (t : Nat) (f : Thread → Thread) : (s.modThread t f).hostScrubs = s.hostScrubs := rfl
@[simp] theorem State.modThread_bootScrubbed (s : State) (t : Nat) (f : Thread → Thread) : (s.modThread t f).bootScrubbed = s.bootScrubbed := rfl
@[simp] theorem State.modThread_telemetry (s : State) (t : Nat) (f : Thread → Thread) : (s.modThread t f).telemetry = s.telemetry := rfl
@[simp] theorem State.modThread_fill (s : State) (t : Nat) (f : Thread → Thread) : (s.modThread t f).fill = s.fill := rfl
@[simp] theorem State.modThread_drain (s : State) (t : Nat) (f : Thread → Thread) : (s.modThread t f).drain = s.drain := rfl
@[simp] theorem State.modThread_sluiceClosed (s : State) (t : Nat) (f : Thread → Thread) : (s.modThread t f).sluiceClosed = s.sluiceClosed := rfl
@[simp] theorem State.modThread_cutTest (s : State) (t : Nat) (f : Thread → Thread) : (s.modThread t f).cutTest = s.cutTest := rfl
@[simp] theorem State.modThread_voltages (s : State) (t : Nat) (f : Thread → Thread) : (s.modThread t f).voltages = s.voltages := rfl
@[simp] theorem State.modThread_sluice (s : State) (t : Nat) (f : Thread → Thread) : (s.modThread t f).sluice = s.sluice := rfl
@[simp] theorem State.modThread_modes (s : State) (t : Nat) (f : Thread → Thread) : (s.modThread t f).modes = s.modes := rfl
@[simp] theorem State.modThread_functions (s : State) (t : Nat) (f : Thread → Thread) : (s.modThread t f).functions = s.functions := rfl
@[simp] theorem State.modThread_hostReply (s : State) (t : Nat) (f : Thread → Thread) : (s.modThread t f).hostReply = s.hostReply := rfl
@[simp] theorem State.modThread_now (s : State) (t : Nat) (f : Thread → Thread) : (s.modThread t f).now = s.now := rfl
@[simp] theorem State.modThread_ptpLocked (s : State) (t : Nat) (f : Thread → Thread) : (s.modThread t f).ptpLocked = s.ptpLocked := rfl
@[simp] theorem State.modThread_timeSet (s : State) (t : Nat) (f : Thread → Thread) : (s.modThread t f).timeSet = s.timeSet := rfl
@[simp] theorem State.modThread_anyStart (s : State) (t : Nat) (f : Thread → Thread) : (s.modThread t f).anyStart = s.anyStart := rfl
@[simp] theorem State.modThread_errors (s : State) (t : Nat) (f : Thread → Thread) : (s.modThread t f).errors = s.errors := rfl
@[simp] theorem State.modThread_errorCount (s : State) (t : Nat) (f : Thread → Thread) : (s.modThread t f).errorCount = s.errorCount := rfl
@[simp] theorem State.modThread_dropLog (s : State) (t : Nat) (f : Thread → Thread) : (s.modThread t f).dropLog = s.dropLog := rfl
@[simp] theorem State.modThread_mctp (s : State) (t : Nat) (f : Thread → Thread) : (s.modThread t f).mctp = s.mctp := rfl
@[simp] theorem State.modThread_i3c (s : State) (t : Nat) (f : Thread → Thread) : (s.modThread t f).i3c = s.i3c := rfl
@[simp] theorem State.modThread_version (s : State) (t : Nat) (f : Thread → Thread) : (s.modThread t f).version = s.version := rfl
@[simp] theorem State.modThread_firmware (s : State) (t : Nat) (f : Thread → Thread) : (s.modThread t f).firmware = s.firmware := rfl
@[simp] theorem State.modThread_staged (s : State) (t : Nat) (f : Thread → Thread) : (s.modThread t f).staged = s.staged := rfl
@[simp] theorem State.modThread_stagesUp (s : State) (t : Nat) (f : Thread → Thread) : (s.modThread t f).stagesUp = s.stagesUp := rfl
@[simp] theorem State.modThread_droop (s : State) (t : Nat) (f : Thread → Thread) : (s.modThread t f).droop = s.droop := rfl
@[simp] theorem State.modThread_limited (s : State) (t : Nat) (f : Thread → Thread) : (s.modThread t f).limited = s.limited := rfl
@[simp] theorem State.modThread_routes (s : State) (t : Nat) (f : Thread → Thread) : (s.modThread t f).routes = s.routes := rfl
@[simp] theorem State.modThread_failedLanes (s : State) (t : Nat) (f : Thread → Thread) : (s.modThread t f).failedLanes = s.failedLanes := rfl
@[simp] theorem State.modThread_saved (s : State) (t : Nat) (f : Thread → Thread) : (s.modThread t f).saved = s.saved := rfl
@[simp] theorem State.modThread_pair (s : State) (t : Nat) (f : Thread → Thread) : (s.modThread t f).pair = s.pair := rfl
@[simp] theorem State.modThread_cur (s : State) (t : Nat) (f : Thread → Thread) : (s.modThread t f).cur = s.cur := rfl
@[simp] theorem State.modThread_turn (s : State) (t : Nat) (f : Thread → Thread) : (s.modThread t f).turn = s.turn := rfl
@[simp] theorem State.modThread_nextId (s : State) (t : Nat) (f : Thread → Thread) : (s.modThread t f).nextId = s.nextId := rfl
@[simp] theorem State.modThread_freeCount (s : State) (t : Nat) (f : Thread → Thread) : (s.modThread t f).freeCount = s.freeCount := rfl
@[simp] theorem State.modThread_agenda (s : State) (t : Nat) (f : Thread → Thread) : (s.modThread t f).agenda = s.agenda := rfl

/-! `State.setCore`. -/

@[simp] theorem State.setCore_threads (s : State) (c : Nat) (v : Core) : (s.setCore c v).threads = s.threads := rfl
@[simp] theorem State.setCore_mem (s : State) (c : Nat) (v : Core) : (s.setCore c v).mem = s.mem := rfl
@[simp] theorem State.setCore_stale (s : State) (c : Nat) (v : Core) : (s.setCore c v).stale = s.stale := rfl
@[simp] theorem State.setCore_noticed (s : State) (c : Nat) (v : Core) : (s.setCore c v).noticed = s.noticed := rfl
@[simp] theorem State.setCore_basinDirty (s : State) (c : Nat) (v : Core) : (s.setCore c v).basinDirty = s.basinDirty := rfl
@[simp] theorem State.setCore_notices (s : State) (c : Nat) (v : Core) : (s.setCore c v).notices = s.notices := rfl
@[simp] theorem State.setCore_heldLines (s : State) (c : Nat) (v : Core) : (s.setCore c v).heldLines = s.heldLines := rfl
@[simp] theorem State.setCore_forwards (s : State) (c : Nat) (v : Core) : (s.setCore c v).forwards = s.forwards := rfl
@[simp] theorem State.setCore_requests (s : State) (c : Nat) (v : Core) : (s.setCore c v).requests = s.requests := rfl
@[simp] theorem State.setCore_windows (s : State) (c : Nat) (v : Core) : (s.setCore c v).windows = s.windows := rfl
@[simp] theorem State.setCore_packets (s : State) (c : Nat) (v : Core) : (s.setCore c v).packets = s.packets := rfl
@[simp] theorem State.setCore_poison (s : State) (c : Nat) (v : Core) : (s.setCore c v).poison = s.poison := rfl
@[simp] theorem State.setCore_blocks (s : State) (c : Nat) (v : Core) : (s.setCore c v).blocks = s.blocks := rfl
@[simp] theorem State.setCore_counters (s : State) (c : Nat) (v : Core) : (s.setCore c v).counters = s.counters := rfl
@[simp] theorem State.setCore_sems (s : State) (c : Nat) (v : Core) : (s.setCore c v).sems = s.sems := rfl
@[simp] theorem State.setCore_weirBars (s : State) (c : Nat) (v : Core) : (s.setCore c v).weirBars = s.weirBars := rfl
@[simp] theorem State.setCore_domains (s : State) (c : Nat) (v : Core) : (s.setCore c v).domains = s.domains := rfl
@[simp] theorem State.setCore_tags (s : State) (c : Nat) (v : Core) : (s.setCore c v).tags = s.tags := rfl
@[simp] theorem State.setCore_physical (s : State) (c : Nat) (v : Core) : (s.setCore c v).physical = s.physical := rfl
@[simp] theorem State.setCore_quarantined (s : State) (c : Nat) (v : Core) : (s.setCore c v).quarantined = s.quarantined := rfl
@[simp] theorem State.setCore_usedSpares (s : State) (c : Nat) (v : Core) : (s.setCore c v).usedSpares = s.usedSpares := rfl
@[simp] theorem State.setCore_retiring (s : State) (c : Nat) (v : Core) : (s.setCore c v).retiring = s.retiring := rfl
@[simp] theorem State.setCore_recentErrors (s : State) (c : Nat) (v : Core) : (s.setCore c v).recentErrors = s.recentErrors := rfl
@[simp] theorem State.setCore_testFails (s : State) (c : Nat) (v : Core) : (s.setCore c v).testFails = s.testFails := rfl
@[simp] theorem State.setCore_pendingSpare (s : State) (c : Nat) (v : Core) : (s.setCore c v).pendingSpare = s.pendingSpare := rfl
@[simp] theorem State.setCore_parts (s : State) (c : Nat) (v : Core) : (s.setCore c v).parts = s.parts := rfl
@[simp] theorem State.setCore_launches (s : State) (c : Nat) (v : Core) : (s.setCore c v).launches = s.launches := rfl
@[simp] theorem State.setCore_copies (s : State) (c : Nat) (v : Core) : (s.setCore c v).copies = s.copies := rfl
@[simp] theorem State.setCore_sfu (s : State) (c : Nat) (v : Core) : (s.setCore c v).sfu = s.sfu := rfl
@[simp] theorem State.setCore_frames (s : State) (c : Nat) (v : Core) : (s.setCore c v).frames = s.frames := rfl
@[simp] theorem State.setCore_hostScrubs (s : State) (c : Nat) (v : Core) : (s.setCore c v).hostScrubs = s.hostScrubs := rfl
@[simp] theorem State.setCore_bootScrubbed (s : State) (c : Nat) (v : Core) : (s.setCore c v).bootScrubbed = s.bootScrubbed := rfl
@[simp] theorem State.setCore_telemetry (s : State) (c : Nat) (v : Core) : (s.setCore c v).telemetry = s.telemetry := rfl
@[simp] theorem State.setCore_fill (s : State) (c : Nat) (v : Core) : (s.setCore c v).fill = s.fill := rfl
@[simp] theorem State.setCore_drain (s : State) (c : Nat) (v : Core) : (s.setCore c v).drain = s.drain := rfl
@[simp] theorem State.setCore_sluiceClosed (s : State) (c : Nat) (v : Core) : (s.setCore c v).sluiceClosed = s.sluiceClosed := rfl
@[simp] theorem State.setCore_cutTest (s : State) (c : Nat) (v : Core) : (s.setCore c v).cutTest = s.cutTest := rfl
@[simp] theorem State.setCore_voltages (s : State) (c : Nat) (v : Core) : (s.setCore c v).voltages = s.voltages := rfl
@[simp] theorem State.setCore_sluice (s : State) (c : Nat) (v : Core) : (s.setCore c v).sluice = s.sluice := rfl
@[simp] theorem State.setCore_modes (s : State) (c : Nat) (v : Core) : (s.setCore c v).modes = s.modes := rfl
@[simp] theorem State.setCore_functions (s : State) (c : Nat) (v : Core) : (s.setCore c v).functions = s.functions := rfl
@[simp] theorem State.setCore_hostReply (s : State) (c : Nat) (v : Core) : (s.setCore c v).hostReply = s.hostReply := rfl
@[simp] theorem State.setCore_now (s : State) (c : Nat) (v : Core) : (s.setCore c v).now = s.now := rfl
@[simp] theorem State.setCore_ptpLocked (s : State) (c : Nat) (v : Core) : (s.setCore c v).ptpLocked = s.ptpLocked := rfl
@[simp] theorem State.setCore_timeSet (s : State) (c : Nat) (v : Core) : (s.setCore c v).timeSet = s.timeSet := rfl
@[simp] theorem State.setCore_anyStart (s : State) (c : Nat) (v : Core) : (s.setCore c v).anyStart = s.anyStart := rfl
@[simp] theorem State.setCore_errors (s : State) (c : Nat) (v : Core) : (s.setCore c v).errors = s.errors := rfl
@[simp] theorem State.setCore_errorCount (s : State) (c : Nat) (v : Core) : (s.setCore c v).errorCount = s.errorCount := rfl
@[simp] theorem State.setCore_dropLog (s : State) (c : Nat) (v : Core) : (s.setCore c v).dropLog = s.dropLog := rfl
@[simp] theorem State.setCore_mctp (s : State) (c : Nat) (v : Core) : (s.setCore c v).mctp = s.mctp := rfl
@[simp] theorem State.setCore_i3c (s : State) (c : Nat) (v : Core) : (s.setCore c v).i3c = s.i3c := rfl
@[simp] theorem State.setCore_version (s : State) (c : Nat) (v : Core) : (s.setCore c v).version = s.version := rfl
@[simp] theorem State.setCore_firmware (s : State) (c : Nat) (v : Core) : (s.setCore c v).firmware = s.firmware := rfl
@[simp] theorem State.setCore_staged (s : State) (c : Nat) (v : Core) : (s.setCore c v).staged = s.staged := rfl
@[simp] theorem State.setCore_stagesUp (s : State) (c : Nat) (v : Core) : (s.setCore c v).stagesUp = s.stagesUp := rfl
@[simp] theorem State.setCore_droop (s : State) (c : Nat) (v : Core) : (s.setCore c v).droop = s.droop := rfl
@[simp] theorem State.setCore_limited (s : State) (c : Nat) (v : Core) : (s.setCore c v).limited = s.limited := rfl
@[simp] theorem State.setCore_routes (s : State) (c : Nat) (v : Core) : (s.setCore c v).routes = s.routes := rfl
@[simp] theorem State.setCore_failedLanes (s : State) (c : Nat) (v : Core) : (s.setCore c v).failedLanes = s.failedLanes := rfl
@[simp] theorem State.setCore_saved (s : State) (c : Nat) (v : Core) : (s.setCore c v).saved = s.saved := rfl
@[simp] theorem State.setCore_pair (s : State) (c : Nat) (v : Core) : (s.setCore c v).pair = s.pair := rfl
@[simp] theorem State.setCore_cur (s : State) (c : Nat) (v : Core) : (s.setCore c v).cur = s.cur := rfl
@[simp] theorem State.setCore_turn (s : State) (c : Nat) (v : Core) : (s.setCore c v).turn = s.turn := rfl
@[simp] theorem State.setCore_nextId (s : State) (c : Nat) (v : Core) : (s.setCore c v).nextId = s.nextId := rfl
@[simp] theorem State.setCore_freeCount (s : State) (c : Nat) (v : Core) : (s.setCore c v).freeCount = s.freeCount := rfl
@[simp] theorem State.setCore_agenda (s : State) (c : Nat) (v : Core) : (s.setCore c v).agenda = s.agenda := rfl

/-! `State.modCore`. -/

@[simp] theorem State.modCore_threads (s : State) (c : Nat) (f : Core → Core) : (s.modCore c f).threads = s.threads := rfl
@[simp] theorem State.modCore_mem (s : State) (c : Nat) (f : Core → Core) : (s.modCore c f).mem = s.mem := rfl
@[simp] theorem State.modCore_stale (s : State) (c : Nat) (f : Core → Core) : (s.modCore c f).stale = s.stale := rfl
@[simp] theorem State.modCore_noticed (s : State) (c : Nat) (f : Core → Core) : (s.modCore c f).noticed = s.noticed := rfl
@[simp] theorem State.modCore_basinDirty (s : State) (c : Nat) (f : Core → Core) : (s.modCore c f).basinDirty = s.basinDirty := rfl
@[simp] theorem State.modCore_notices (s : State) (c : Nat) (f : Core → Core) : (s.modCore c f).notices = s.notices := rfl
@[simp] theorem State.modCore_heldLines (s : State) (c : Nat) (f : Core → Core) : (s.modCore c f).heldLines = s.heldLines := rfl
@[simp] theorem State.modCore_forwards (s : State) (c : Nat) (f : Core → Core) : (s.modCore c f).forwards = s.forwards := rfl
@[simp] theorem State.modCore_requests (s : State) (c : Nat) (f : Core → Core) : (s.modCore c f).requests = s.requests := rfl
@[simp] theorem State.modCore_windows (s : State) (c : Nat) (f : Core → Core) : (s.modCore c f).windows = s.windows := rfl
@[simp] theorem State.modCore_packets (s : State) (c : Nat) (f : Core → Core) : (s.modCore c f).packets = s.packets := rfl
@[simp] theorem State.modCore_poison (s : State) (c : Nat) (f : Core → Core) : (s.modCore c f).poison = s.poison := rfl
@[simp] theorem State.modCore_blocks (s : State) (c : Nat) (f : Core → Core) : (s.modCore c f).blocks = s.blocks := rfl
@[simp] theorem State.modCore_counters (s : State) (c : Nat) (f : Core → Core) : (s.modCore c f).counters = s.counters := rfl
@[simp] theorem State.modCore_sems (s : State) (c : Nat) (f : Core → Core) : (s.modCore c f).sems = s.sems := rfl
@[simp] theorem State.modCore_weirBars (s : State) (c : Nat) (f : Core → Core) : (s.modCore c f).weirBars = s.weirBars := rfl
@[simp] theorem State.modCore_domains (s : State) (c : Nat) (f : Core → Core) : (s.modCore c f).domains = s.domains := rfl
@[simp] theorem State.modCore_tags (s : State) (c : Nat) (f : Core → Core) : (s.modCore c f).tags = s.tags := rfl
@[simp] theorem State.modCore_physical (s : State) (c : Nat) (f : Core → Core) : (s.modCore c f).physical = s.physical := rfl
@[simp] theorem State.modCore_quarantined (s : State) (c : Nat) (f : Core → Core) : (s.modCore c f).quarantined = s.quarantined := rfl
@[simp] theorem State.modCore_usedSpares (s : State) (c : Nat) (f : Core → Core) : (s.modCore c f).usedSpares = s.usedSpares := rfl
@[simp] theorem State.modCore_retiring (s : State) (c : Nat) (f : Core → Core) : (s.modCore c f).retiring = s.retiring := rfl
@[simp] theorem State.modCore_recentErrors (s : State) (c : Nat) (f : Core → Core) : (s.modCore c f).recentErrors = s.recentErrors := rfl
@[simp] theorem State.modCore_testFails (s : State) (c : Nat) (f : Core → Core) : (s.modCore c f).testFails = s.testFails := rfl
@[simp] theorem State.modCore_pendingSpare (s : State) (c : Nat) (f : Core → Core) : (s.modCore c f).pendingSpare = s.pendingSpare := rfl
@[simp] theorem State.modCore_parts (s : State) (c : Nat) (f : Core → Core) : (s.modCore c f).parts = s.parts := rfl
@[simp] theorem State.modCore_launches (s : State) (c : Nat) (f : Core → Core) : (s.modCore c f).launches = s.launches := rfl
@[simp] theorem State.modCore_copies (s : State) (c : Nat) (f : Core → Core) : (s.modCore c f).copies = s.copies := rfl
@[simp] theorem State.modCore_sfu (s : State) (c : Nat) (f : Core → Core) : (s.modCore c f).sfu = s.sfu := rfl
@[simp] theorem State.modCore_frames (s : State) (c : Nat) (f : Core → Core) : (s.modCore c f).frames = s.frames := rfl
@[simp] theorem State.modCore_hostScrubs (s : State) (c : Nat) (f : Core → Core) : (s.modCore c f).hostScrubs = s.hostScrubs := rfl
@[simp] theorem State.modCore_bootScrubbed (s : State) (c : Nat) (f : Core → Core) : (s.modCore c f).bootScrubbed = s.bootScrubbed := rfl
@[simp] theorem State.modCore_telemetry (s : State) (c : Nat) (f : Core → Core) : (s.modCore c f).telemetry = s.telemetry := rfl
@[simp] theorem State.modCore_fill (s : State) (c : Nat) (f : Core → Core) : (s.modCore c f).fill = s.fill := rfl
@[simp] theorem State.modCore_drain (s : State) (c : Nat) (f : Core → Core) : (s.modCore c f).drain = s.drain := rfl
@[simp] theorem State.modCore_sluiceClosed (s : State) (c : Nat) (f : Core → Core) : (s.modCore c f).sluiceClosed = s.sluiceClosed := rfl
@[simp] theorem State.modCore_cutTest (s : State) (c : Nat) (f : Core → Core) : (s.modCore c f).cutTest = s.cutTest := rfl
@[simp] theorem State.modCore_voltages (s : State) (c : Nat) (f : Core → Core) : (s.modCore c f).voltages = s.voltages := rfl
@[simp] theorem State.modCore_sluice (s : State) (c : Nat) (f : Core → Core) : (s.modCore c f).sluice = s.sluice := rfl
@[simp] theorem State.modCore_modes (s : State) (c : Nat) (f : Core → Core) : (s.modCore c f).modes = s.modes := rfl
@[simp] theorem State.modCore_functions (s : State) (c : Nat) (f : Core → Core) : (s.modCore c f).functions = s.functions := rfl
@[simp] theorem State.modCore_hostReply (s : State) (c : Nat) (f : Core → Core) : (s.modCore c f).hostReply = s.hostReply := rfl
@[simp] theorem State.modCore_now (s : State) (c : Nat) (f : Core → Core) : (s.modCore c f).now = s.now := rfl
@[simp] theorem State.modCore_ptpLocked (s : State) (c : Nat) (f : Core → Core) : (s.modCore c f).ptpLocked = s.ptpLocked := rfl
@[simp] theorem State.modCore_timeSet (s : State) (c : Nat) (f : Core → Core) : (s.modCore c f).timeSet = s.timeSet := rfl
@[simp] theorem State.modCore_anyStart (s : State) (c : Nat) (f : Core → Core) : (s.modCore c f).anyStart = s.anyStart := rfl
@[simp] theorem State.modCore_errors (s : State) (c : Nat) (f : Core → Core) : (s.modCore c f).errors = s.errors := rfl
@[simp] theorem State.modCore_errorCount (s : State) (c : Nat) (f : Core → Core) : (s.modCore c f).errorCount = s.errorCount := rfl
@[simp] theorem State.modCore_dropLog (s : State) (c : Nat) (f : Core → Core) : (s.modCore c f).dropLog = s.dropLog := rfl
@[simp] theorem State.modCore_mctp (s : State) (c : Nat) (f : Core → Core) : (s.modCore c f).mctp = s.mctp := rfl
@[simp] theorem State.modCore_i3c (s : State) (c : Nat) (f : Core → Core) : (s.modCore c f).i3c = s.i3c := rfl
@[simp] theorem State.modCore_version (s : State) (c : Nat) (f : Core → Core) : (s.modCore c f).version = s.version := rfl
@[simp] theorem State.modCore_firmware (s : State) (c : Nat) (f : Core → Core) : (s.modCore c f).firmware = s.firmware := rfl
@[simp] theorem State.modCore_staged (s : State) (c : Nat) (f : Core → Core) : (s.modCore c f).staged = s.staged := rfl
@[simp] theorem State.modCore_stagesUp (s : State) (c : Nat) (f : Core → Core) : (s.modCore c f).stagesUp = s.stagesUp := rfl
@[simp] theorem State.modCore_droop (s : State) (c : Nat) (f : Core → Core) : (s.modCore c f).droop = s.droop := rfl
@[simp] theorem State.modCore_limited (s : State) (c : Nat) (f : Core → Core) : (s.modCore c f).limited = s.limited := rfl
@[simp] theorem State.modCore_routes (s : State) (c : Nat) (f : Core → Core) : (s.modCore c f).routes = s.routes := rfl
@[simp] theorem State.modCore_failedLanes (s : State) (c : Nat) (f : Core → Core) : (s.modCore c f).failedLanes = s.failedLanes := rfl
@[simp] theorem State.modCore_saved (s : State) (c : Nat) (f : Core → Core) : (s.modCore c f).saved = s.saved := rfl
@[simp] theorem State.modCore_pair (s : State) (c : Nat) (f : Core → Core) : (s.modCore c f).pair = s.pair := rfl
@[simp] theorem State.modCore_cur (s : State) (c : Nat) (f : Core → Core) : (s.modCore c f).cur = s.cur := rfl
@[simp] theorem State.modCore_turn (s : State) (c : Nat) (f : Core → Core) : (s.modCore c f).turn = s.turn := rfl
@[simp] theorem State.modCore_nextId (s : State) (c : Nat) (f : Core → Core) : (s.modCore c f).nextId = s.nextId := rfl
@[simp] theorem State.modCore_freeCount (s : State) (c : Nat) (f : Core → Core) : (s.modCore c f).freeCount = s.freeCount := rfl
@[simp] theorem State.modCore_agenda (s : State) (c : Nat) (f : Core → Core) : (s.modCore c f).agenda = s.agenda := rfl

/-! `State.setPart`. -/

@[simp] theorem State.setPart_threads (s : State) (p : Nat) (v : Partition) : (s.setPart p v).threads = s.threads := rfl
@[simp] theorem State.setPart_cores (s : State) (p : Nat) (v : Partition) : (s.setPart p v).cores = s.cores := rfl
@[simp] theorem State.setPart_mem (s : State) (p : Nat) (v : Partition) : (s.setPart p v).mem = s.mem := rfl
@[simp] theorem State.setPart_stale (s : State) (p : Nat) (v : Partition) : (s.setPart p v).stale = s.stale := rfl
@[simp] theorem State.setPart_noticed (s : State) (p : Nat) (v : Partition) : (s.setPart p v).noticed = s.noticed := rfl
@[simp] theorem State.setPart_basinDirty (s : State) (p : Nat) (v : Partition) : (s.setPart p v).basinDirty = s.basinDirty := rfl
@[simp] theorem State.setPart_notices (s : State) (p : Nat) (v : Partition) : (s.setPart p v).notices = s.notices := rfl
@[simp] theorem State.setPart_heldLines (s : State) (p : Nat) (v : Partition) : (s.setPart p v).heldLines = s.heldLines := rfl
@[simp] theorem State.setPart_forwards (s : State) (p : Nat) (v : Partition) : (s.setPart p v).forwards = s.forwards := rfl
@[simp] theorem State.setPart_requests (s : State) (p : Nat) (v : Partition) : (s.setPart p v).requests = s.requests := rfl
@[simp] theorem State.setPart_windows (s : State) (p : Nat) (v : Partition) : (s.setPart p v).windows = s.windows := rfl
@[simp] theorem State.setPart_packets (s : State) (p : Nat) (v : Partition) : (s.setPart p v).packets = s.packets := rfl
@[simp] theorem State.setPart_poison (s : State) (p : Nat) (v : Partition) : (s.setPart p v).poison = s.poison := rfl
@[simp] theorem State.setPart_blocks (s : State) (p : Nat) (v : Partition) : (s.setPart p v).blocks = s.blocks := rfl
@[simp] theorem State.setPart_counters (s : State) (p : Nat) (v : Partition) : (s.setPart p v).counters = s.counters := rfl
@[simp] theorem State.setPart_sems (s : State) (p : Nat) (v : Partition) : (s.setPart p v).sems = s.sems := rfl
@[simp] theorem State.setPart_weirBars (s : State) (p : Nat) (v : Partition) : (s.setPart p v).weirBars = s.weirBars := rfl
@[simp] theorem State.setPart_domains (s : State) (p : Nat) (v : Partition) : (s.setPart p v).domains = s.domains := rfl
@[simp] theorem State.setPart_tags (s : State) (p : Nat) (v : Partition) : (s.setPart p v).tags = s.tags := rfl
@[simp] theorem State.setPart_physical (s : State) (p : Nat) (v : Partition) : (s.setPart p v).physical = s.physical := rfl
@[simp] theorem State.setPart_quarantined (s : State) (p : Nat) (v : Partition) : (s.setPart p v).quarantined = s.quarantined := rfl
@[simp] theorem State.setPart_usedSpares (s : State) (p : Nat) (v : Partition) : (s.setPart p v).usedSpares = s.usedSpares := rfl
@[simp] theorem State.setPart_retiring (s : State) (p : Nat) (v : Partition) : (s.setPart p v).retiring = s.retiring := rfl
@[simp] theorem State.setPart_recentErrors (s : State) (p : Nat) (v : Partition) : (s.setPart p v).recentErrors = s.recentErrors := rfl
@[simp] theorem State.setPart_testFails (s : State) (p : Nat) (v : Partition) : (s.setPart p v).testFails = s.testFails := rfl
@[simp] theorem State.setPart_pendingSpare (s : State) (p : Nat) (v : Partition) : (s.setPart p v).pendingSpare = s.pendingSpare := rfl
@[simp] theorem State.setPart_launches (s : State) (p : Nat) (v : Partition) : (s.setPart p v).launches = s.launches := rfl
@[simp] theorem State.setPart_copies (s : State) (p : Nat) (v : Partition) : (s.setPart p v).copies = s.copies := rfl
@[simp] theorem State.setPart_sfu (s : State) (p : Nat) (v : Partition) : (s.setPart p v).sfu = s.sfu := rfl
@[simp] theorem State.setPart_frames (s : State) (p : Nat) (v : Partition) : (s.setPart p v).frames = s.frames := rfl
@[simp] theorem State.setPart_hostScrubs (s : State) (p : Nat) (v : Partition) : (s.setPart p v).hostScrubs = s.hostScrubs := rfl
@[simp] theorem State.setPart_bootScrubbed (s : State) (p : Nat) (v : Partition) : (s.setPart p v).bootScrubbed = s.bootScrubbed := rfl
@[simp] theorem State.setPart_telemetry (s : State) (p : Nat) (v : Partition) : (s.setPart p v).telemetry = s.telemetry := rfl
@[simp] theorem State.setPart_fill (s : State) (p : Nat) (v : Partition) : (s.setPart p v).fill = s.fill := rfl
@[simp] theorem State.setPart_drain (s : State) (p : Nat) (v : Partition) : (s.setPart p v).drain = s.drain := rfl
@[simp] theorem State.setPart_sluiceClosed (s : State) (p : Nat) (v : Partition) : (s.setPart p v).sluiceClosed = s.sluiceClosed := rfl
@[simp] theorem State.setPart_cutTest (s : State) (p : Nat) (v : Partition) : (s.setPart p v).cutTest = s.cutTest := rfl
@[simp] theorem State.setPart_voltages (s : State) (p : Nat) (v : Partition) : (s.setPart p v).voltages = s.voltages := rfl
@[simp] theorem State.setPart_sluice (s : State) (p : Nat) (v : Partition) : (s.setPart p v).sluice = s.sluice := rfl
@[simp] theorem State.setPart_modes (s : State) (p : Nat) (v : Partition) : (s.setPart p v).modes = s.modes := rfl
@[simp] theorem State.setPart_functions (s : State) (p : Nat) (v : Partition) : (s.setPart p v).functions = s.functions := rfl
@[simp] theorem State.setPart_hostReply (s : State) (p : Nat) (v : Partition) : (s.setPart p v).hostReply = s.hostReply := rfl
@[simp] theorem State.setPart_now (s : State) (p : Nat) (v : Partition) : (s.setPart p v).now = s.now := rfl
@[simp] theorem State.setPart_ptpLocked (s : State) (p : Nat) (v : Partition) : (s.setPart p v).ptpLocked = s.ptpLocked := rfl
@[simp] theorem State.setPart_timeSet (s : State) (p : Nat) (v : Partition) : (s.setPart p v).timeSet = s.timeSet := rfl
@[simp] theorem State.setPart_anyStart (s : State) (p : Nat) (v : Partition) : (s.setPart p v).anyStart = s.anyStart := rfl
@[simp] theorem State.setPart_errors (s : State) (p : Nat) (v : Partition) : (s.setPart p v).errors = s.errors := rfl
@[simp] theorem State.setPart_errorCount (s : State) (p : Nat) (v : Partition) : (s.setPart p v).errorCount = s.errorCount := rfl
@[simp] theorem State.setPart_dropLog (s : State) (p : Nat) (v : Partition) : (s.setPart p v).dropLog = s.dropLog := rfl
@[simp] theorem State.setPart_mctp (s : State) (p : Nat) (v : Partition) : (s.setPart p v).mctp = s.mctp := rfl
@[simp] theorem State.setPart_i3c (s : State) (p : Nat) (v : Partition) : (s.setPart p v).i3c = s.i3c := rfl
@[simp] theorem State.setPart_version (s : State) (p : Nat) (v : Partition) : (s.setPart p v).version = s.version := rfl
@[simp] theorem State.setPart_firmware (s : State) (p : Nat) (v : Partition) : (s.setPart p v).firmware = s.firmware := rfl
@[simp] theorem State.setPart_staged (s : State) (p : Nat) (v : Partition) : (s.setPart p v).staged = s.staged := rfl
@[simp] theorem State.setPart_stagesUp (s : State) (p : Nat) (v : Partition) : (s.setPart p v).stagesUp = s.stagesUp := rfl
@[simp] theorem State.setPart_droop (s : State) (p : Nat) (v : Partition) : (s.setPart p v).droop = s.droop := rfl
@[simp] theorem State.setPart_limited (s : State) (p : Nat) (v : Partition) : (s.setPart p v).limited = s.limited := rfl
@[simp] theorem State.setPart_routes (s : State) (p : Nat) (v : Partition) : (s.setPart p v).routes = s.routes := rfl
@[simp] theorem State.setPart_failedLanes (s : State) (p : Nat) (v : Partition) : (s.setPart p v).failedLanes = s.failedLanes := rfl
@[simp] theorem State.setPart_saved (s : State) (p : Nat) (v : Partition) : (s.setPart p v).saved = s.saved := rfl
@[simp] theorem State.setPart_pair (s : State) (p : Nat) (v : Partition) : (s.setPart p v).pair = s.pair := rfl
@[simp] theorem State.setPart_cur (s : State) (p : Nat) (v : Partition) : (s.setPart p v).cur = s.cur := rfl
@[simp] theorem State.setPart_turn (s : State) (p : Nat) (v : Partition) : (s.setPart p v).turn = s.turn := rfl
@[simp] theorem State.setPart_nextId (s : State) (p : Nat) (v : Partition) : (s.setPart p v).nextId = s.nextId := rfl
@[simp] theorem State.setPart_freeCount (s : State) (p : Nat) (v : Partition) : (s.setPart p v).freeCount = s.freeCount := rfl
@[simp] theorem State.setPart_agenda (s : State) (p : Nat) (v : Partition) : (s.setPart p v).agenda = s.agenda := rfl

/-! `State.modPart`. -/

@[simp] theorem State.modPart_threads (s : State) (p : Nat) (f : Partition → Partition) :
    (s.modPart p f).threads = s.threads := by
  unfold State.modPart; split <;> rfl
@[simp] theorem State.modPart_cores (s : State) (p : Nat) (f : Partition → Partition) :
    (s.modPart p f).cores = s.cores := by
  unfold State.modPart; split <;> rfl
@[simp] theorem State.modPart_mem (s : State) (p : Nat) (f : Partition → Partition) :
    (s.modPart p f).mem = s.mem := by
  unfold State.modPart; split <;> rfl
@[simp] theorem State.modPart_stale (s : State) (p : Nat) (f : Partition → Partition) :
    (s.modPart p f).stale = s.stale := by
  unfold State.modPart; split <;> rfl
@[simp] theorem State.modPart_noticed (s : State) (p : Nat) (f : Partition → Partition) :
    (s.modPart p f).noticed = s.noticed := by
  unfold State.modPart; split <;> rfl
@[simp] theorem State.modPart_basinDirty (s : State) (p : Nat) (f : Partition → Partition) :
    (s.modPart p f).basinDirty = s.basinDirty := by
  unfold State.modPart; split <;> rfl
@[simp] theorem State.modPart_notices (s : State) (p : Nat) (f : Partition → Partition) :
    (s.modPart p f).notices = s.notices := by
  unfold State.modPart; split <;> rfl
@[simp] theorem State.modPart_heldLines (s : State) (p : Nat) (f : Partition → Partition) :
    (s.modPart p f).heldLines = s.heldLines := by
  unfold State.modPart; split <;> rfl
@[simp] theorem State.modPart_forwards (s : State) (p : Nat) (f : Partition → Partition) :
    (s.modPart p f).forwards = s.forwards := by
  unfold State.modPart; split <;> rfl
@[simp] theorem State.modPart_requests (s : State) (p : Nat) (f : Partition → Partition) :
    (s.modPart p f).requests = s.requests := by
  unfold State.modPart; split <;> rfl
@[simp] theorem State.modPart_windows (s : State) (p : Nat) (f : Partition → Partition) :
    (s.modPart p f).windows = s.windows := by
  unfold State.modPart; split <;> rfl
@[simp] theorem State.modPart_packets (s : State) (p : Nat) (f : Partition → Partition) :
    (s.modPart p f).packets = s.packets := by
  unfold State.modPart; split <;> rfl
@[simp] theorem State.modPart_poison (s : State) (p : Nat) (f : Partition → Partition) :
    (s.modPart p f).poison = s.poison := by
  unfold State.modPart; split <;> rfl
@[simp] theorem State.modPart_blocks (s : State) (p : Nat) (f : Partition → Partition) :
    (s.modPart p f).blocks = s.blocks := by
  unfold State.modPart; split <;> rfl
@[simp] theorem State.modPart_counters (s : State) (p : Nat) (f : Partition → Partition) :
    (s.modPart p f).counters = s.counters := by
  unfold State.modPart; split <;> rfl
@[simp] theorem State.modPart_sems (s : State) (p : Nat) (f : Partition → Partition) :
    (s.modPart p f).sems = s.sems := by
  unfold State.modPart; split <;> rfl
@[simp] theorem State.modPart_weirBars (s : State) (p : Nat) (f : Partition → Partition) :
    (s.modPart p f).weirBars = s.weirBars := by
  unfold State.modPart; split <;> rfl
@[simp] theorem State.modPart_domains (s : State) (p : Nat) (f : Partition → Partition) :
    (s.modPart p f).domains = s.domains := by
  unfold State.modPart; split <;> rfl
@[simp] theorem State.modPart_tags (s : State) (p : Nat) (f : Partition → Partition) :
    (s.modPart p f).tags = s.tags := by
  unfold State.modPart; split <;> rfl
@[simp] theorem State.modPart_physical (s : State) (p : Nat) (f : Partition → Partition) :
    (s.modPart p f).physical = s.physical := by
  unfold State.modPart; split <;> rfl
@[simp] theorem State.modPart_quarantined (s : State) (p : Nat) (f : Partition → Partition) :
    (s.modPart p f).quarantined = s.quarantined := by
  unfold State.modPart; split <;> rfl
@[simp] theorem State.modPart_usedSpares (s : State) (p : Nat) (f : Partition → Partition) :
    (s.modPart p f).usedSpares = s.usedSpares := by
  unfold State.modPart; split <;> rfl
@[simp] theorem State.modPart_retiring (s : State) (p : Nat) (f : Partition → Partition) :
    (s.modPart p f).retiring = s.retiring := by
  unfold State.modPart; split <;> rfl
@[simp] theorem State.modPart_recentErrors (s : State) (p : Nat) (f : Partition → Partition) :
    (s.modPart p f).recentErrors = s.recentErrors := by
  unfold State.modPart; split <;> rfl
@[simp] theorem State.modPart_testFails (s : State) (p : Nat) (f : Partition → Partition) :
    (s.modPart p f).testFails = s.testFails := by
  unfold State.modPart; split <;> rfl
@[simp] theorem State.modPart_pendingSpare (s : State) (p : Nat) (f : Partition → Partition) :
    (s.modPart p f).pendingSpare = s.pendingSpare := by
  unfold State.modPart; split <;> rfl
@[simp] theorem State.modPart_launches (s : State) (p : Nat) (f : Partition → Partition) :
    (s.modPart p f).launches = s.launches := by
  unfold State.modPart; split <;> rfl
@[simp] theorem State.modPart_copies (s : State) (p : Nat) (f : Partition → Partition) :
    (s.modPart p f).copies = s.copies := by
  unfold State.modPart; split <;> rfl
@[simp] theorem State.modPart_sfu (s : State) (p : Nat) (f : Partition → Partition) :
    (s.modPart p f).sfu = s.sfu := by
  unfold State.modPart; split <;> rfl
@[simp] theorem State.modPart_frames (s : State) (p : Nat) (f : Partition → Partition) :
    (s.modPart p f).frames = s.frames := by
  unfold State.modPart; split <;> rfl
@[simp] theorem State.modPart_hostScrubs (s : State) (p : Nat) (f : Partition → Partition) :
    (s.modPart p f).hostScrubs = s.hostScrubs := by
  unfold State.modPart; split <;> rfl
@[simp] theorem State.modPart_bootScrubbed (s : State) (p : Nat) (f : Partition → Partition) :
    (s.modPart p f).bootScrubbed = s.bootScrubbed := by
  unfold State.modPart; split <;> rfl
@[simp] theorem State.modPart_telemetry (s : State) (p : Nat) (f : Partition → Partition) :
    (s.modPart p f).telemetry = s.telemetry := by
  unfold State.modPart; split <;> rfl
@[simp] theorem State.modPart_fill (s : State) (p : Nat) (f : Partition → Partition) :
    (s.modPart p f).fill = s.fill := by
  unfold State.modPart; split <;> rfl
@[simp] theorem State.modPart_drain (s : State) (p : Nat) (f : Partition → Partition) :
    (s.modPart p f).drain = s.drain := by
  unfold State.modPart; split <;> rfl
@[simp] theorem State.modPart_sluiceClosed (s : State) (p : Nat) (f : Partition → Partition) :
    (s.modPart p f).sluiceClosed = s.sluiceClosed := by
  unfold State.modPart; split <;> rfl
@[simp] theorem State.modPart_cutTest (s : State) (p : Nat) (f : Partition → Partition) :
    (s.modPart p f).cutTest = s.cutTest := by
  unfold State.modPart; split <;> rfl
@[simp] theorem State.modPart_voltages (s : State) (p : Nat) (f : Partition → Partition) :
    (s.modPart p f).voltages = s.voltages := by
  unfold State.modPart; split <;> rfl
@[simp] theorem State.modPart_sluice (s : State) (p : Nat) (f : Partition → Partition) :
    (s.modPart p f).sluice = s.sluice := by
  unfold State.modPart; split <;> rfl
@[simp] theorem State.modPart_modes (s : State) (p : Nat) (f : Partition → Partition) :
    (s.modPart p f).modes = s.modes := by
  unfold State.modPart; split <;> rfl
@[simp] theorem State.modPart_functions (s : State) (p : Nat) (f : Partition → Partition) :
    (s.modPart p f).functions = s.functions := by
  unfold State.modPart; split <;> rfl
@[simp] theorem State.modPart_hostReply (s : State) (p : Nat) (f : Partition → Partition) :
    (s.modPart p f).hostReply = s.hostReply := by
  unfold State.modPart; split <;> rfl
@[simp] theorem State.modPart_now (s : State) (p : Nat) (f : Partition → Partition) :
    (s.modPart p f).now = s.now := by
  unfold State.modPart; split <;> rfl
@[simp] theorem State.modPart_ptpLocked (s : State) (p : Nat) (f : Partition → Partition) :
    (s.modPart p f).ptpLocked = s.ptpLocked := by
  unfold State.modPart; split <;> rfl
@[simp] theorem State.modPart_timeSet (s : State) (p : Nat) (f : Partition → Partition) :
    (s.modPart p f).timeSet = s.timeSet := by
  unfold State.modPart; split <;> rfl
@[simp] theorem State.modPart_anyStart (s : State) (p : Nat) (f : Partition → Partition) :
    (s.modPart p f).anyStart = s.anyStart := by
  unfold State.modPart; split <;> rfl
@[simp] theorem State.modPart_errors (s : State) (p : Nat) (f : Partition → Partition) :
    (s.modPart p f).errors = s.errors := by
  unfold State.modPart; split <;> rfl
@[simp] theorem State.modPart_errorCount (s : State) (p : Nat) (f : Partition → Partition) :
    (s.modPart p f).errorCount = s.errorCount := by
  unfold State.modPart; split <;> rfl
@[simp] theorem State.modPart_dropLog (s : State) (p : Nat) (f : Partition → Partition) :
    (s.modPart p f).dropLog = s.dropLog := by
  unfold State.modPart; split <;> rfl
@[simp] theorem State.modPart_mctp (s : State) (p : Nat) (f : Partition → Partition) :
    (s.modPart p f).mctp = s.mctp := by
  unfold State.modPart; split <;> rfl
@[simp] theorem State.modPart_i3c (s : State) (p : Nat) (f : Partition → Partition) :
    (s.modPart p f).i3c = s.i3c := by
  unfold State.modPart; split <;> rfl
@[simp] theorem State.modPart_version (s : State) (p : Nat) (f : Partition → Partition) :
    (s.modPart p f).version = s.version := by
  unfold State.modPart; split <;> rfl
@[simp] theorem State.modPart_firmware (s : State) (p : Nat) (f : Partition → Partition) :
    (s.modPart p f).firmware = s.firmware := by
  unfold State.modPart; split <;> rfl
@[simp] theorem State.modPart_staged (s : State) (p : Nat) (f : Partition → Partition) :
    (s.modPart p f).staged = s.staged := by
  unfold State.modPart; split <;> rfl
@[simp] theorem State.modPart_stagesUp (s : State) (p : Nat) (f : Partition → Partition) :
    (s.modPart p f).stagesUp = s.stagesUp := by
  unfold State.modPart; split <;> rfl
@[simp] theorem State.modPart_droop (s : State) (p : Nat) (f : Partition → Partition) :
    (s.modPart p f).droop = s.droop := by
  unfold State.modPart; split <;> rfl
@[simp] theorem State.modPart_limited (s : State) (p : Nat) (f : Partition → Partition) :
    (s.modPart p f).limited = s.limited := by
  unfold State.modPart; split <;> rfl
@[simp] theorem State.modPart_routes (s : State) (p : Nat) (f : Partition → Partition) :
    (s.modPart p f).routes = s.routes := by
  unfold State.modPart; split <;> rfl
@[simp] theorem State.modPart_failedLanes (s : State) (p : Nat) (f : Partition → Partition) :
    (s.modPart p f).failedLanes = s.failedLanes := by
  unfold State.modPart; split <;> rfl
@[simp] theorem State.modPart_saved (s : State) (p : Nat) (f : Partition → Partition) :
    (s.modPart p f).saved = s.saved := by
  unfold State.modPart; split <;> rfl
@[simp] theorem State.modPart_pair (s : State) (p : Nat) (f : Partition → Partition) :
    (s.modPart p f).pair = s.pair := by
  unfold State.modPart; split <;> rfl
@[simp] theorem State.modPart_cur (s : State) (p : Nat) (f : Partition → Partition) :
    (s.modPart p f).cur = s.cur := by
  unfold State.modPart; split <;> rfl
@[simp] theorem State.modPart_turn (s : State) (p : Nat) (f : Partition → Partition) :
    (s.modPart p f).turn = s.turn := by
  unfold State.modPart; split <;> rfl
@[simp] theorem State.modPart_nextId (s : State) (p : Nat) (f : Partition → Partition) :
    (s.modPart p f).nextId = s.nextId := by
  unfold State.modPart; split <;> rfl
@[simp] theorem State.modPart_freeCount (s : State) (p : Nat) (f : Partition → Partition) :
    (s.modPart p f).freeCount = s.freeCount := by
  unfold State.modPart; split <;> rfl
@[simp] theorem State.modPart_agenda (s : State) (p : Nat) (f : Partition → Partition) :
    (s.modPart p f).agenda = s.agenda := by
  unfold State.modPart; split <;> rfl

/-! `State.bump`. -/

@[simp] theorem State.bump_threads (s : State) : s.bump.threads = s.threads := rfl
@[simp] theorem State.bump_cores (s : State) : s.bump.cores = s.cores := rfl
@[simp] theorem State.bump_mem (s : State) : s.bump.mem = s.mem := rfl
@[simp] theorem State.bump_stale (s : State) : s.bump.stale = s.stale := rfl
@[simp] theorem State.bump_noticed (s : State) : s.bump.noticed = s.noticed := rfl
@[simp] theorem State.bump_basinDirty (s : State) : s.bump.basinDirty = s.basinDirty := rfl
@[simp] theorem State.bump_notices (s : State) : s.bump.notices = s.notices := rfl
@[simp] theorem State.bump_heldLines (s : State) : s.bump.heldLines = s.heldLines := rfl
@[simp] theorem State.bump_forwards (s : State) : s.bump.forwards = s.forwards := rfl
@[simp] theorem State.bump_requests (s : State) : s.bump.requests = s.requests := rfl
@[simp] theorem State.bump_windows (s : State) : s.bump.windows = s.windows := rfl
@[simp] theorem State.bump_packets (s : State) : s.bump.packets = s.packets := rfl
@[simp] theorem State.bump_poison (s : State) : s.bump.poison = s.poison := rfl
@[simp] theorem State.bump_blocks (s : State) : s.bump.blocks = s.blocks := rfl
@[simp] theorem State.bump_counters (s : State) : s.bump.counters = s.counters := rfl
@[simp] theorem State.bump_sems (s : State) : s.bump.sems = s.sems := rfl
@[simp] theorem State.bump_weirBars (s : State) : s.bump.weirBars = s.weirBars := rfl
@[simp] theorem State.bump_domains (s : State) : s.bump.domains = s.domains := rfl
@[simp] theorem State.bump_tags (s : State) : s.bump.tags = s.tags := rfl
@[simp] theorem State.bump_physical (s : State) : s.bump.physical = s.physical := rfl
@[simp] theorem State.bump_quarantined (s : State) : s.bump.quarantined = s.quarantined := rfl
@[simp] theorem State.bump_usedSpares (s : State) : s.bump.usedSpares = s.usedSpares := rfl
@[simp] theorem State.bump_retiring (s : State) : s.bump.retiring = s.retiring := rfl
@[simp] theorem State.bump_recentErrors (s : State) : s.bump.recentErrors = s.recentErrors := rfl
@[simp] theorem State.bump_testFails (s : State) : s.bump.testFails = s.testFails := rfl
@[simp] theorem State.bump_pendingSpare (s : State) : s.bump.pendingSpare = s.pendingSpare := rfl
@[simp] theorem State.bump_parts (s : State) : s.bump.parts = s.parts := rfl
@[simp] theorem State.bump_launches (s : State) : s.bump.launches = s.launches := rfl
@[simp] theorem State.bump_copies (s : State) : s.bump.copies = s.copies := rfl
@[simp] theorem State.bump_sfu (s : State) : s.bump.sfu = s.sfu := rfl
@[simp] theorem State.bump_frames (s : State) : s.bump.frames = s.frames := rfl
@[simp] theorem State.bump_hostScrubs (s : State) : s.bump.hostScrubs = s.hostScrubs := rfl
@[simp] theorem State.bump_bootScrubbed (s : State) : s.bump.bootScrubbed = s.bootScrubbed := rfl
@[simp] theorem State.bump_telemetry (s : State) : s.bump.telemetry = s.telemetry := rfl
@[simp] theorem State.bump_fill (s : State) : s.bump.fill = s.fill := rfl
@[simp] theorem State.bump_drain (s : State) : s.bump.drain = s.drain := rfl
@[simp] theorem State.bump_sluiceClosed (s : State) : s.bump.sluiceClosed = s.sluiceClosed := rfl
@[simp] theorem State.bump_cutTest (s : State) : s.bump.cutTest = s.cutTest := rfl
@[simp] theorem State.bump_voltages (s : State) : s.bump.voltages = s.voltages := rfl
@[simp] theorem State.bump_sluice (s : State) : s.bump.sluice = s.sluice := rfl
@[simp] theorem State.bump_modes (s : State) : s.bump.modes = s.modes := rfl
@[simp] theorem State.bump_functions (s : State) : s.bump.functions = s.functions := rfl
@[simp] theorem State.bump_hostReply (s : State) : s.bump.hostReply = s.hostReply := rfl
@[simp] theorem State.bump_now (s : State) : s.bump.now = s.now := rfl
@[simp] theorem State.bump_ptpLocked (s : State) : s.bump.ptpLocked = s.ptpLocked := rfl
@[simp] theorem State.bump_timeSet (s : State) : s.bump.timeSet = s.timeSet := rfl
@[simp] theorem State.bump_anyStart (s : State) : s.bump.anyStart = s.anyStart := rfl
@[simp] theorem State.bump_errors (s : State) : s.bump.errors = s.errors := rfl
@[simp] theorem State.bump_errorCount (s : State) : s.bump.errorCount = s.errorCount := rfl
@[simp] theorem State.bump_dropLog (s : State) : s.bump.dropLog = s.dropLog := rfl
@[simp] theorem State.bump_mctp (s : State) : s.bump.mctp = s.mctp := rfl
@[simp] theorem State.bump_i3c (s : State) : s.bump.i3c = s.i3c := rfl
@[simp] theorem State.bump_version (s : State) : s.bump.version = s.version := rfl
@[simp] theorem State.bump_firmware (s : State) : s.bump.firmware = s.firmware := rfl
@[simp] theorem State.bump_staged (s : State) : s.bump.staged = s.staged := rfl
@[simp] theorem State.bump_stagesUp (s : State) : s.bump.stagesUp = s.stagesUp := rfl
@[simp] theorem State.bump_droop (s : State) : s.bump.droop = s.droop := rfl
@[simp] theorem State.bump_limited (s : State) : s.bump.limited = s.limited := rfl
@[simp] theorem State.bump_routes (s : State) : s.bump.routes = s.routes := rfl
@[simp] theorem State.bump_failedLanes (s : State) : s.bump.failedLanes = s.failedLanes := rfl
@[simp] theorem State.bump_saved (s : State) : s.bump.saved = s.saved := rfl
@[simp] theorem State.bump_pair (s : State) : s.bump.pair = s.pair := rfl
@[simp] theorem State.bump_cur (s : State) : s.bump.cur = s.cur := rfl
@[simp] theorem State.bump_turn (s : State) : s.bump.turn = s.turn := rfl
@[simp] theorem State.bump_freeCount (s : State) : s.bump.freeCount = s.freeCount := rfl
@[simp] theorem State.bump_agenda (s : State) : s.bump.agenda = s.agenda := rfl

/-! `State.writeBytesAt`. -/

@[simp] theorem State.writeBytesAt_threads (s : State) (a : Nat) (bs : List Byte) : (s.writeBytesAt a bs).threads = s.threads := rfl
@[simp] theorem State.writeBytesAt_cores (s : State) (a : Nat) (bs : List Byte) : (s.writeBytesAt a bs).cores = s.cores := rfl
@[simp] theorem State.writeBytesAt_stale (s : State) (a : Nat) (bs : List Byte) : (s.writeBytesAt a bs).stale = s.stale := rfl
@[simp] theorem State.writeBytesAt_noticed (s : State) (a : Nat) (bs : List Byte) : (s.writeBytesAt a bs).noticed = s.noticed := rfl
@[simp] theorem State.writeBytesAt_basinDirty (s : State) (a : Nat) (bs : List Byte) : (s.writeBytesAt a bs).basinDirty = s.basinDirty := rfl
@[simp] theorem State.writeBytesAt_notices (s : State) (a : Nat) (bs : List Byte) : (s.writeBytesAt a bs).notices = s.notices := rfl
@[simp] theorem State.writeBytesAt_heldLines (s : State) (a : Nat) (bs : List Byte) : (s.writeBytesAt a bs).heldLines = s.heldLines := rfl
@[simp] theorem State.writeBytesAt_forwards (s : State) (a : Nat) (bs : List Byte) : (s.writeBytesAt a bs).forwards = s.forwards := rfl
@[simp] theorem State.writeBytesAt_requests (s : State) (a : Nat) (bs : List Byte) : (s.writeBytesAt a bs).requests = s.requests := rfl
@[simp] theorem State.writeBytesAt_windows (s : State) (a : Nat) (bs : List Byte) : (s.writeBytesAt a bs).windows = s.windows := rfl
@[simp] theorem State.writeBytesAt_packets (s : State) (a : Nat) (bs : List Byte) : (s.writeBytesAt a bs).packets = s.packets := rfl
@[simp] theorem State.writeBytesAt_counters (s : State) (a : Nat) (bs : List Byte) : (s.writeBytesAt a bs).counters = s.counters := rfl
@[simp] theorem State.writeBytesAt_sems (s : State) (a : Nat) (bs : List Byte) : (s.writeBytesAt a bs).sems = s.sems := rfl
@[simp] theorem State.writeBytesAt_weirBars (s : State) (a : Nat) (bs : List Byte) : (s.writeBytesAt a bs).weirBars = s.weirBars := rfl
@[simp] theorem State.writeBytesAt_domains (s : State) (a : Nat) (bs : List Byte) : (s.writeBytesAt a bs).domains = s.domains := rfl
@[simp] theorem State.writeBytesAt_tags (s : State) (a : Nat) (bs : List Byte) : (s.writeBytesAt a bs).tags = s.tags := rfl
@[simp] theorem State.writeBytesAt_physical (s : State) (a : Nat) (bs : List Byte) : (s.writeBytesAt a bs).physical = s.physical := rfl
@[simp] theorem State.writeBytesAt_quarantined (s : State) (a : Nat) (bs : List Byte) : (s.writeBytesAt a bs).quarantined = s.quarantined := rfl
@[simp] theorem State.writeBytesAt_usedSpares (s : State) (a : Nat) (bs : List Byte) : (s.writeBytesAt a bs).usedSpares = s.usedSpares := rfl
@[simp] theorem State.writeBytesAt_retiring (s : State) (a : Nat) (bs : List Byte) : (s.writeBytesAt a bs).retiring = s.retiring := rfl
@[simp] theorem State.writeBytesAt_recentErrors (s : State) (a : Nat) (bs : List Byte) : (s.writeBytesAt a bs).recentErrors = s.recentErrors := rfl
@[simp] theorem State.writeBytesAt_testFails (s : State) (a : Nat) (bs : List Byte) : (s.writeBytesAt a bs).testFails = s.testFails := rfl
@[simp] theorem State.writeBytesAt_pendingSpare (s : State) (a : Nat) (bs : List Byte) : (s.writeBytesAt a bs).pendingSpare = s.pendingSpare := rfl
@[simp] theorem State.writeBytesAt_parts (s : State) (a : Nat) (bs : List Byte) : (s.writeBytesAt a bs).parts = s.parts := rfl
@[simp] theorem State.writeBytesAt_launches (s : State) (a : Nat) (bs : List Byte) : (s.writeBytesAt a bs).launches = s.launches := rfl
@[simp] theorem State.writeBytesAt_copies (s : State) (a : Nat) (bs : List Byte) : (s.writeBytesAt a bs).copies = s.copies := rfl
@[simp] theorem State.writeBytesAt_sfu (s : State) (a : Nat) (bs : List Byte) : (s.writeBytesAt a bs).sfu = s.sfu := rfl
@[simp] theorem State.writeBytesAt_frames (s : State) (a : Nat) (bs : List Byte) : (s.writeBytesAt a bs).frames = s.frames := rfl
@[simp] theorem State.writeBytesAt_hostScrubs (s : State) (a : Nat) (bs : List Byte) : (s.writeBytesAt a bs).hostScrubs = s.hostScrubs := rfl
@[simp] theorem State.writeBytesAt_bootScrubbed (s : State) (a : Nat) (bs : List Byte) : (s.writeBytesAt a bs).bootScrubbed = s.bootScrubbed := rfl
@[simp] theorem State.writeBytesAt_telemetry (s : State) (a : Nat) (bs : List Byte) : (s.writeBytesAt a bs).telemetry = s.telemetry := rfl
@[simp] theorem State.writeBytesAt_fill (s : State) (a : Nat) (bs : List Byte) : (s.writeBytesAt a bs).fill = s.fill := rfl
@[simp] theorem State.writeBytesAt_drain (s : State) (a : Nat) (bs : List Byte) : (s.writeBytesAt a bs).drain = s.drain := rfl
@[simp] theorem State.writeBytesAt_sluiceClosed (s : State) (a : Nat) (bs : List Byte) : (s.writeBytesAt a bs).sluiceClosed = s.sluiceClosed := rfl
@[simp] theorem State.writeBytesAt_cutTest (s : State) (a : Nat) (bs : List Byte) : (s.writeBytesAt a bs).cutTest = s.cutTest := rfl
@[simp] theorem State.writeBytesAt_voltages (s : State) (a : Nat) (bs : List Byte) : (s.writeBytesAt a bs).voltages = s.voltages := rfl
@[simp] theorem State.writeBytesAt_sluice (s : State) (a : Nat) (bs : List Byte) : (s.writeBytesAt a bs).sluice = s.sluice := rfl
@[simp] theorem State.writeBytesAt_modes (s : State) (a : Nat) (bs : List Byte) : (s.writeBytesAt a bs).modes = s.modes := rfl
@[simp] theorem State.writeBytesAt_functions (s : State) (a : Nat) (bs : List Byte) : (s.writeBytesAt a bs).functions = s.functions := rfl
@[simp] theorem State.writeBytesAt_hostReply (s : State) (a : Nat) (bs : List Byte) : (s.writeBytesAt a bs).hostReply = s.hostReply := rfl
@[simp] theorem State.writeBytesAt_now (s : State) (a : Nat) (bs : List Byte) : (s.writeBytesAt a bs).now = s.now := rfl
@[simp] theorem State.writeBytesAt_ptpLocked (s : State) (a : Nat) (bs : List Byte) : (s.writeBytesAt a bs).ptpLocked = s.ptpLocked := rfl
@[simp] theorem State.writeBytesAt_timeSet (s : State) (a : Nat) (bs : List Byte) : (s.writeBytesAt a bs).timeSet = s.timeSet := rfl
@[simp] theorem State.writeBytesAt_anyStart (s : State) (a : Nat) (bs : List Byte) : (s.writeBytesAt a bs).anyStart = s.anyStart := rfl
@[simp] theorem State.writeBytesAt_errors (s : State) (a : Nat) (bs : List Byte) : (s.writeBytesAt a bs).errors = s.errors := rfl
@[simp] theorem State.writeBytesAt_errorCount (s : State) (a : Nat) (bs : List Byte) : (s.writeBytesAt a bs).errorCount = s.errorCount := rfl
@[simp] theorem State.writeBytesAt_dropLog (s : State) (a : Nat) (bs : List Byte) : (s.writeBytesAt a bs).dropLog = s.dropLog := rfl
@[simp] theorem State.writeBytesAt_mctp (s : State) (a : Nat) (bs : List Byte) : (s.writeBytesAt a bs).mctp = s.mctp := rfl
@[simp] theorem State.writeBytesAt_i3c (s : State) (a : Nat) (bs : List Byte) : (s.writeBytesAt a bs).i3c = s.i3c := rfl
@[simp] theorem State.writeBytesAt_version (s : State) (a : Nat) (bs : List Byte) : (s.writeBytesAt a bs).version = s.version := rfl
@[simp] theorem State.writeBytesAt_firmware (s : State) (a : Nat) (bs : List Byte) : (s.writeBytesAt a bs).firmware = s.firmware := rfl
@[simp] theorem State.writeBytesAt_staged (s : State) (a : Nat) (bs : List Byte) : (s.writeBytesAt a bs).staged = s.staged := rfl
@[simp] theorem State.writeBytesAt_stagesUp (s : State) (a : Nat) (bs : List Byte) : (s.writeBytesAt a bs).stagesUp = s.stagesUp := rfl
@[simp] theorem State.writeBytesAt_droop (s : State) (a : Nat) (bs : List Byte) : (s.writeBytesAt a bs).droop = s.droop := rfl
@[simp] theorem State.writeBytesAt_limited (s : State) (a : Nat) (bs : List Byte) : (s.writeBytesAt a bs).limited = s.limited := rfl
@[simp] theorem State.writeBytesAt_routes (s : State) (a : Nat) (bs : List Byte) : (s.writeBytesAt a bs).routes = s.routes := rfl
@[simp] theorem State.writeBytesAt_failedLanes (s : State) (a : Nat) (bs : List Byte) : (s.writeBytesAt a bs).failedLanes = s.failedLanes := rfl
@[simp] theorem State.writeBytesAt_saved (s : State) (a : Nat) (bs : List Byte) : (s.writeBytesAt a bs).saved = s.saved := rfl
@[simp] theorem State.writeBytesAt_pair (s : State) (a : Nat) (bs : List Byte) : (s.writeBytesAt a bs).pair = s.pair := rfl
@[simp] theorem State.writeBytesAt_cur (s : State) (a : Nat) (bs : List Byte) : (s.writeBytesAt a bs).cur = s.cur := rfl
@[simp] theorem State.writeBytesAt_turn (s : State) (a : Nat) (bs : List Byte) : (s.writeBytesAt a bs).turn = s.turn := rfl
@[simp] theorem State.writeBytesAt_nextId (s : State) (a : Nat) (bs : List Byte) : (s.writeBytesAt a bs).nextId = s.nextId := rfl
@[simp] theorem State.writeBytesAt_freeCount (s : State) (a : Nat) (bs : List Byte) : (s.writeBytesAt a bs).freeCount = s.freeCount := rfl
@[simp] theorem State.writeBytesAt_agenda (s : State) (a : Nat) (bs : List Byte) : (s.writeBytesAt a bs).agenda = s.agenda := rfl

/-! `State.setX`. -/

@[simp] theorem State.setX_cores (s : State) (r : Reg) (v : Word) : (s.setX r v).cores = s.cores := rfl
@[simp] theorem State.setX_mem (s : State) (r : Reg) (v : Word) : (s.setX r v).mem = s.mem := rfl
@[simp] theorem State.setX_stale (s : State) (r : Reg) (v : Word) : (s.setX r v).stale = s.stale := rfl
@[simp] theorem State.setX_noticed (s : State) (r : Reg) (v : Word) : (s.setX r v).noticed = s.noticed := rfl
@[simp] theorem State.setX_basinDirty (s : State) (r : Reg) (v : Word) : (s.setX r v).basinDirty = s.basinDirty := rfl
@[simp] theorem State.setX_notices (s : State) (r : Reg) (v : Word) : (s.setX r v).notices = s.notices := rfl
@[simp] theorem State.setX_heldLines (s : State) (r : Reg) (v : Word) : (s.setX r v).heldLines = s.heldLines := rfl
@[simp] theorem State.setX_forwards (s : State) (r : Reg) (v : Word) : (s.setX r v).forwards = s.forwards := rfl
@[simp] theorem State.setX_requests (s : State) (r : Reg) (v : Word) : (s.setX r v).requests = s.requests := rfl
@[simp] theorem State.setX_windows (s : State) (r : Reg) (v : Word) : (s.setX r v).windows = s.windows := rfl
@[simp] theorem State.setX_packets (s : State) (r : Reg) (v : Word) : (s.setX r v).packets = s.packets := rfl
@[simp] theorem State.setX_poison (s : State) (r : Reg) (v : Word) : (s.setX r v).poison = s.poison := rfl
@[simp] theorem State.setX_blocks (s : State) (r : Reg) (v : Word) : (s.setX r v).blocks = s.blocks := rfl
@[simp] theorem State.setX_counters (s : State) (r : Reg) (v : Word) : (s.setX r v).counters = s.counters := rfl
@[simp] theorem State.setX_sems (s : State) (r : Reg) (v : Word) : (s.setX r v).sems = s.sems := rfl
@[simp] theorem State.setX_weirBars (s : State) (r : Reg) (v : Word) : (s.setX r v).weirBars = s.weirBars := rfl
@[simp] theorem State.setX_domains (s : State) (r : Reg) (v : Word) : (s.setX r v).domains = s.domains := rfl
@[simp] theorem State.setX_tags (s : State) (r : Reg) (v : Word) : (s.setX r v).tags = s.tags := rfl
@[simp] theorem State.setX_physical (s : State) (r : Reg) (v : Word) : (s.setX r v).physical = s.physical := rfl
@[simp] theorem State.setX_quarantined (s : State) (r : Reg) (v : Word) : (s.setX r v).quarantined = s.quarantined := rfl
@[simp] theorem State.setX_usedSpares (s : State) (r : Reg) (v : Word) : (s.setX r v).usedSpares = s.usedSpares := rfl
@[simp] theorem State.setX_retiring (s : State) (r : Reg) (v : Word) : (s.setX r v).retiring = s.retiring := rfl
@[simp] theorem State.setX_recentErrors (s : State) (r : Reg) (v : Word) : (s.setX r v).recentErrors = s.recentErrors := rfl
@[simp] theorem State.setX_testFails (s : State) (r : Reg) (v : Word) : (s.setX r v).testFails = s.testFails := rfl
@[simp] theorem State.setX_pendingSpare (s : State) (r : Reg) (v : Word) : (s.setX r v).pendingSpare = s.pendingSpare := rfl
@[simp] theorem State.setX_parts (s : State) (r : Reg) (v : Word) : (s.setX r v).parts = s.parts := rfl
@[simp] theorem State.setX_launches (s : State) (r : Reg) (v : Word) : (s.setX r v).launches = s.launches := rfl
@[simp] theorem State.setX_copies (s : State) (r : Reg) (v : Word) : (s.setX r v).copies = s.copies := rfl
@[simp] theorem State.setX_sfu (s : State) (r : Reg) (v : Word) : (s.setX r v).sfu = s.sfu := rfl
@[simp] theorem State.setX_frames (s : State) (r : Reg) (v : Word) : (s.setX r v).frames = s.frames := rfl
@[simp] theorem State.setX_hostScrubs (s : State) (r : Reg) (v : Word) : (s.setX r v).hostScrubs = s.hostScrubs := rfl
@[simp] theorem State.setX_bootScrubbed (s : State) (r : Reg) (v : Word) : (s.setX r v).bootScrubbed = s.bootScrubbed := rfl
@[simp] theorem State.setX_telemetry (s : State) (r : Reg) (v : Word) : (s.setX r v).telemetry = s.telemetry := rfl
@[simp] theorem State.setX_fill (s : State) (r : Reg) (v : Word) : (s.setX r v).fill = s.fill := rfl
@[simp] theorem State.setX_drain (s : State) (r : Reg) (v : Word) : (s.setX r v).drain = s.drain := rfl
@[simp] theorem State.setX_sluiceClosed (s : State) (r : Reg) (v : Word) : (s.setX r v).sluiceClosed = s.sluiceClosed := rfl
@[simp] theorem State.setX_cutTest (s : State) (r : Reg) (v : Word) : (s.setX r v).cutTest = s.cutTest := rfl
@[simp] theorem State.setX_voltages (s : State) (r : Reg) (v : Word) : (s.setX r v).voltages = s.voltages := rfl
@[simp] theorem State.setX_sluice (s : State) (r : Reg) (v : Word) : (s.setX r v).sluice = s.sluice := rfl
@[simp] theorem State.setX_modes (s : State) (r : Reg) (v : Word) : (s.setX r v).modes = s.modes := rfl
@[simp] theorem State.setX_functions (s : State) (r : Reg) (v : Word) : (s.setX r v).functions = s.functions := rfl
@[simp] theorem State.setX_hostReply (s : State) (r : Reg) (v : Word) : (s.setX r v).hostReply = s.hostReply := rfl
@[simp] theorem State.setX_now (s : State) (r : Reg) (v : Word) : (s.setX r v).now = s.now := rfl
@[simp] theorem State.setX_ptpLocked (s : State) (r : Reg) (v : Word) : (s.setX r v).ptpLocked = s.ptpLocked := rfl
@[simp] theorem State.setX_timeSet (s : State) (r : Reg) (v : Word) : (s.setX r v).timeSet = s.timeSet := rfl
@[simp] theorem State.setX_anyStart (s : State) (r : Reg) (v : Word) : (s.setX r v).anyStart = s.anyStart := rfl
@[simp] theorem State.setX_errors (s : State) (r : Reg) (v : Word) : (s.setX r v).errors = s.errors := rfl
@[simp] theorem State.setX_errorCount (s : State) (r : Reg) (v : Word) : (s.setX r v).errorCount = s.errorCount := rfl
@[simp] theorem State.setX_dropLog (s : State) (r : Reg) (v : Word) : (s.setX r v).dropLog = s.dropLog := rfl
@[simp] theorem State.setX_mctp (s : State) (r : Reg) (v : Word) : (s.setX r v).mctp = s.mctp := rfl
@[simp] theorem State.setX_i3c (s : State) (r : Reg) (v : Word) : (s.setX r v).i3c = s.i3c := rfl
@[simp] theorem State.setX_version (s : State) (r : Reg) (v : Word) : (s.setX r v).version = s.version := rfl
@[simp] theorem State.setX_firmware (s : State) (r : Reg) (v : Word) : (s.setX r v).firmware = s.firmware := rfl
@[simp] theorem State.setX_staged (s : State) (r : Reg) (v : Word) : (s.setX r v).staged = s.staged := rfl
@[simp] theorem State.setX_stagesUp (s : State) (r : Reg) (v : Word) : (s.setX r v).stagesUp = s.stagesUp := rfl
@[simp] theorem State.setX_droop (s : State) (r : Reg) (v : Word) : (s.setX r v).droop = s.droop := rfl
@[simp] theorem State.setX_limited (s : State) (r : Reg) (v : Word) : (s.setX r v).limited = s.limited := rfl
@[simp] theorem State.setX_routes (s : State) (r : Reg) (v : Word) : (s.setX r v).routes = s.routes := rfl
@[simp] theorem State.setX_failedLanes (s : State) (r : Reg) (v : Word) : (s.setX r v).failedLanes = s.failedLanes := rfl
@[simp] theorem State.setX_saved (s : State) (r : Reg) (v : Word) : (s.setX r v).saved = s.saved := rfl
@[simp] theorem State.setX_pair (s : State) (r : Reg) (v : Word) : (s.setX r v).pair = s.pair := rfl
@[simp] theorem State.setX_cur (s : State) (r : Reg) (v : Word) : (s.setX r v).cur = s.cur := rfl
@[simp] theorem State.setX_turn (s : State) (r : Reg) (v : Word) : (s.setX r v).turn = s.turn := rfl
@[simp] theorem State.setX_nextId (s : State) (r : Reg) (v : Word) : (s.setX r v).nextId = s.nextId := rfl
@[simp] theorem State.setX_freeCount (s : State) (r : Reg) (v : Word) : (s.setX r v).freeCount = s.freeCount := rfl
@[simp] theorem State.setX_agenda (s : State) (r : Reg) (v : Word) : (s.setX r v).agenda = s.agenda := rfl

/-! Reading after an update. -/

/-- A thread after one has been set. -/
theorem State.thread_setThread (s : State) (t u : Nat) (v : Thread) :
    (s.setThread t v).thread u = if u = t then v else s.thread u := by
  simp [State.thread, State.setThread, Sparse.get_set]

@[simp] theorem State.thread_setThread_same (s : State) (t : Nat) (v : Thread) : (s.setThread t v).thread t = v := by
  simp [State.thread_setThread]

theorem State.thread_setThread_other (s : State) (t u : Nat) (v : Thread) (h : u ≠ t) :
    (s.setThread t v).thread u = s.thread u := by
  simp [State.thread_setThread, h]

@[simp] theorem State.thread_modThread_same (s : State) (t : Nat) (f : Thread → Thread) :
    (s.modThread t f).thread t = f (s.thread t) := by
  simp [State.modThread]

theorem State.thread_modThread_other (s : State) (t u : Nat) (f : Thread → Thread) (h : u ≠ t) :
    (s.modThread t f).thread u = s.thread u := by
  simp [State.modThread, State.thread_setThread_other s t u _ h]

@[simp] theorem State.me_modMe (s : State) (f : Thread → Thread) : (s.modMe f).me = f s.me := by
  simp [State.me, State.modMe]

@[simp] theorem State.modMe_cur (s : State) (f : Thread → Thread) : (s.modMe f).cur = s.cur := rfl

@[simp] theorem State.modMe_pair (s : State) (f : Thread → Thread) : (s.modMe f).pair = s.pair := rfl

@[simp] theorem State.modMe_mem (s : State) (f : Thread → Thread) : (s.modMe f).mem = s.mem := rfl

theorem State.thread_modMe_other (s : State) (u : Nat) (f : Thread → Thread) (h : u ≠ s.cur) :
    (s.modMe f).thread u = s.thread u := State.thread_modThread_other s s.cur u f h

/-- A core after one has been set. -/
theorem State.coreAt_setCore (s : State) (c d : Nat) (v : Core) :
    (s.setCore c v).coreAt d = if d = c then v else s.coreAt d := by
  simp [State.coreAt, State.setCore, Sparse.get_set]

@[simp] theorem State.coreAt_setCore_same (s : State) (c : Nat) (v : Core) : (s.setCore c v).coreAt c = v := by
  simp [State.coreAt_setCore]

@[simp] theorem State.coreAt_modCore_same (s : State) (c : Nat) (f : Core → Core) :
    (s.modCore c f).coreAt c = f (s.coreAt c) := by
  simp [State.modCore]

theorem State.coreAt_modCore_other (s : State) (c d : Nat) (f : Core → Core) (h : d ≠ c) :
    (s.modCore c f).coreAt d = s.coreAt d := by
  simp [State.modCore, State.coreAt_setCore, h]

@[simp] theorem State.coreAt_setThread (s : State) (t c : Nat) (v : Thread) : (s.setThread t v).coreAt c = s.coreAt c := rfl

@[simp] theorem State.coreAt_modThread (s : State) (t c : Nat) (f : Thread → Thread) :
    (s.modThread t f).coreAt c = s.coreAt c := rfl

@[simp] theorem State.thread_setCore (s : State) (c t : Nat) (v : Core) : (s.setCore c v).thread t = s.thread t := rfl

@[simp] theorem State.thread_modCore (s : State) (c t : Nat) (f : Core → Core) : (s.modCore c f).thread t = s.thread t := rfl

/-- A partition after one has been set. -/
theorem State.part_setPart (s : State) (p q : Nat) (v : Partition) :
    (s.setPart p v).part q = if q = p then v else s.part q := by
  simp [State.part, State.setPart, Sparse.get_set]

/-- A partition that exists after a change of it. -/
theorem State.part_modPart_same (s : State) (p : Nat) (f : Partition → Partition) (h : s.partExists p = true) :
    (s.modPart p f).part p = f (s.part p) := by
  simp [State.modPart, h, State.part_setPart]

theorem State.part_modPart_other (s : State) (p q : Nat) (f : Partition → Partition) (h : q ≠ p) :
    (s.modPart p f).part q = s.part q := by
  unfold State.modPart
  split
  · simp [State.part_setPart, h]
  · rfl

@[simp] theorem State.thread_modPart (s : State) (p t : Nat) (f : Partition → Partition) :
    (s.modPart p f).thread t = s.thread t := by
  simp [State.thread]

@[simp] theorem State.thread_writeBytesAt (s : State) (a t : Nat) (bs : List Byte) :
    (s.writeBytesAt a bs).thread t = s.thread t := rfl

@[simp] theorem State.part_setThread (s : State) (t p : Nat) (v : Thread) : (s.setThread t v).part p = s.part p := rfl

@[simp] theorem State.part_modThread (s : State) (t p : Nat) (f : Thread → Thread) : (s.modThread t f).part p = s.part p := rfl

@[simp] theorem State.tagOf_setThread (s : State) (t c : Nat) (v : Thread) : (s.setThread t v).tagOf c = s.tagOf c := rfl

@[simp] theorem State.tagOf_modThread (s : State) (t c : Nat) (f : Thread → Thread) :
    (s.modThread t f).tagOf c = s.tagOf c := rfl

/-! Registers (R68). -/

/-- Setting a register touches the register file alone. -/
theorem Thread.setX_eq (t : Thread) (r : Reg) (v : Word) :
    t.setX r v = { t with regs := if r = 0 then t.regs else t.regs.set r.toNat v r.isLt } := by
  unfold Thread.setX
  split <;> simp [*]

/-- R68: a register after one has been set; x0 keeps what it holds. -/
theorem Thread.setX_get (t : Thread) (r : Reg) (v : Word) (i : Fin 64) :
    (t.setX r v).regs.get i = if r ≠ 0 ∧ i = r.toFin then v else t.regs.get i := by
  by_cases h : r = 0
  · simp [Thread.setX, h]
  · have e : (i = r.toFin) ↔ r.toNat = i.val := by
      rw [Fin.ext_iff]
      exact eq_comm
    simp only [Thread.setX, h, if_false, ne_eq, not_false_eq_true, true_and, e]
    change (t.regs.set r.toNat v r.isLt)[i.val] = if r.toNat = i.val then v else t.regs[i.val]
    exact Vector.getElem_set _ _

@[simp] theorem State.me_setX (s : State) (r : Reg) (v : Word) : (s.setX r v).me = s.me.setX r v := by
  simp [State.setX]

theorem State.thread_setX_other (s : State) (r : Reg) (v : Word) (u : Nat) (h : u ≠ s.cur) :
    (s.setX r v).thread u = s.thread u := State.thread_modMe_other s u _ h

/-- R68, R7: x0 reads as zero. -/
@[simp] theorem State.x_zero (s : State) : s.x 0 = 0 := by simp [State.x]

/-- Outside a pair a register reads what the thread holds. -/
theorem State.x_eq (s : State) (r : Reg) (h : s.pair = none) : s.x r = if r = 0 then 0 else s.me.regs.get r.toFin := by
  simp [State.x, h]

/-! Memory at its coherence points. -/

/-- Writing bytes at a coherence point keeps the canonical form. -/
theorem State.writeBytesAt_wf (s : State) (a : Nat) (bs : List Byte) (h : Memory.wf s.mem = true) :
    Memory.wf (s.writeBytesAt a bs).mem = true := Memory.wf_writeBytes _ _ _ h

/-- Every byte outside the written ones reads as before. -/
theorem State.read_writeBytesAt_outside (s : State) (a k : Nat) (bs : List Byte) (h : k < a ∨ a + bs.length ≤ k) :
    Memory.read (s.writeBytesAt a bs).mem k = Memory.read s.mem k := Memory.read_writeBytes_outside _ _ _ _ h

/-- Recalling a line changes no byte at its coherence point. -/
@[simp] theorem State.recall_mem (s : State) (line : Nat) : (s.recall line).mem = s.mem := rfl

@[simp] theorem State.recallAll_mem (s : State) (ls : List Nat) : (s.recallAll ls).mem = s.mem := by
  induction ls generalizing s with
  | nil => rfl
  | cons l ls ih => simp [State.recallAll, ih]

/-- A global write keeps the canonical form. -/
theorem State.writeGlobal_wf (s : State) (a : Nat) (bs : List Byte) (h : Memory.wf s.mem = true) :
    Memory.wf (s.writeGlobal a bs).mem = true := by
  apply State.writeBytesAt_wf
  simpa using h

@[simp] theorem State.keepStale_mem (s : State) (a n : Nat) : (s.keepStale a n).mem = s.mem := by
  induction n generalizing s a with
  | zero => rfl
  | succ n ih =>
    rw [State.keepStale, ih]
    split <;> rfl

/-- An early write that commits keeps the canonical form. -/
theorem State.commitEarly_wf (s : State) (t origin : Nat) (va : Word) (a : Nat) (bs : List Byte) (engine : Bool)
    (h : Memory.wf s.mem = true) : Memory.wf (s.commitEarly t origin va a bs engine).mem = true := by
  refine State.writeBytesAt_wf (s.keepStale a bs.length) a bs ?_
  simpa using h

/-- An early write keeps the canonical form. -/
theorem State.writeEarly_wf (s : State) (t origin : Nat) (va : Word) (a : Nat) (bs : List Byte)
    (h : Memory.wf s.mem = true) : Memory.wf (s.writeEarly t origin va a bs).mem = true :=
  State.commitEarly_wf s t origin va a bs false h

/-! Exceptions (R135, R138). -/

/-- R135: what entering a handler sets and what it leaves. -/
theorem Thread.enterHandler_spec (t : Thread) (tr : Trap) (epc : Word) :
    let u := t.enterHandler tr epc
    u.tcause = tr.cause.code ∧ u.tval = tr.tval ∧ u.tval2 = tr.tval2 ∧ u.tepc = wordAligned epc ∧ u.pc = bundleOf t.tvec ∧
      u.regs = t.regs ∧ u.status = .ready ∧ u.fcsr = t.fcsr ∧ u.lpcount = t.lpcount ∧ u.lpstart = t.lpstart ∧
      u.lpend = t.lpend ∧ u.lpouter = t.lpouter ∧ u.tvec = t.tvec :=
  ⟨rfl, rfl, rfl, rfl, rfl, rfl, rfl, rfl, rfl, rfl, rfl, rfl, rfl⟩

/-- R138: what the return from a handler sets and what it leaves. -/
theorem Thread.leaveHandler_spec (t : Thread) :
    let u := t.leaveHandler
    u.flow = .returned t.tepc ∧ u.regs = t.regs ∧ u.tepc = t.tepc ∧ u.tcause = t.tcause ∧ u.tval = t.tval ∧
      u.lpcount = t.lpcount :=
  ⟨rfl, rfl, rfl, rfl, rfl, rfl⟩

end Sys2Proof.Machine
end

