-- ==== Sys2Proof/Laws/Words.lean ====
section
/-!
SUPPORT. What the shared operations of a word do, said once in the vocabulary of Safety: changing the executing thread,
writing a register, writing a float result, transferring, waiting, taking an exception.
-/
namespace Sys2Proof.Machine

/-- A change of the executing thread's record changes nothing else. -/
theorem onlyThread_modMe (s : State) (f : Thread → Thread) : OnlyThread s (s.modMe f) s.cur :=
  ⟨rfl, fun v h => by simp [State.modMe, State.modThread, State.setThread, State.thread, Sparse.get_set_other _ _ _ _ _ h],
    fun _ => rfl⟩

/-- Two changes of the executing thread are one. -/
theorem modMe_modMe (s : State) (f g : Thread → Thread) : (s.modMe f).modMe g = s.modMe (fun t => g (f t)) := by
  simp [State.modMe, State.modThread, State.setThread, State.thread]

/-- R7, R68: the register file after a write. -/
theorem regsSet_setX (x : Thread) (rd : Reg) (v : Word) : RegsSet x.regs (x.setX rd v).regs rd v := by
  intro r
  have e : (r.toFin = rd.toFin) ↔ r = rd := ⟨fun h => BitVec.eq_of_toFin_eq h, fun h => h ▸ rfl⟩
  simp only [Thread.setX_get, e]
  by_cases h : r = rd <;> simp_all

/-- A register write changes the register file only. -/
theorem setX_frame (x : Thread) (rd : Reg) (v : Word) : x.setX rd v = { x with regs := (x.setX rd v).regs } := by
  unfold Thread.setX; split <;> rfl

/-- `setX` on the executing thread. -/
theorem writesReg_setX (s : State) (rd : Reg) (v : Word) : WritesReg s (s.setX rd v) rd v :=
  ⟨onlyThread_modMe s _, by simpa [State.setX] using regsSet_setX s.me rd v, by
    simpa [State.setX] using setX_frame s.me rd v⟩

/-- A float result: the register, and the flags ORed into FCSR (R92, R94). -/
theorem writesFloat_setX_orFlags (s : State) (rd : Reg) (v : Word) (f : Flags) :
    WritesFloat s ((s.setX rd v).orFlags f) rd v f := by
  have e : (s.setX rd v).orFlags f = s.modMe (fun t => (t.setX rd v).orFlags f) := by
    simp only [State.orFlags, State.setX, modMe_modMe]
  rw [e]
  refine ⟨onlyThread_modMe s _, ?_, ?_⟩
  · simpa [Thread.orFlags] using regsSet_setX s.me rd v
  · simp [Thread.orFlags, Thread.setX_eq]

/-- A transfer. -/
theorem transfers_flowTo (s : State) (a : Word) : Transfers s (s.flowTo (.taken a)) a :=
  ⟨onlyThread_modMe s _, by simp [State.flowTo]⟩

/-- A wait. -/
theorem waits_wait (s : State) (w : Wait) : Waits s (s.wait w) w := ⟨onlyThread_modMe s _, by simp [State.wait]⟩

/-- R134, R135: a precise trap that goes to the thread's own handler. -/
theorem takesTrap_raise (s : State) (tr : Trap) (hi : s.me.inh = false) (hc : tr.cause.handled = true) :
    TakesTrap s (s.raise tr) tr := by
  have e : s.raise tr = s.modMe (fun x => { x.enterHandler tr s.me.pc with flow := .trapped }) := by
    unfold State.raise State.raiseAt State.raiseFor
    simp only [hi, Bool.false_and, Bool.false_eq_true, if_false]
    have h1 (d : Datum) : s.trapTo s.cur tr s.me.pc d = s.modMe (fun x => x.enterHandler tr s.me.pc) := by
      unfold State.trapTo
      cases hh : tr.cause <;> simp_all [Cause.handled] <;> rfl
    rw [h1]
    cases hh : tr.cause <;> simp_all [Cause.handled, State.flowTo, modMe_modMe]
  rw [e]
  exact ⟨onlyThread_modMe s _, by rw [State.me_modMe]; rfl⟩

end Sys2Proof.Machine
end

