-- ==== Sys2Proof/Tests/Slice0.lean ====
section
/-!
SUPPORT. Small tests: ill-formed terms, the decoding of words written out from the encoding tables of the spec, one step on
small states with the values that the spec's tables give, and for each statement a state that meets its hypotheses, with the
boundary values of its clauses.
-/
namespace Sys2Proof.Tests

open Sys2Proof Sys2Proof.Machine

set_option Elab.async false

/-! Helpers. -/

/-- Thread 0, a supervisor, at the second word of the bundle at VA 0x30000, as the host places an instruction. -/
def base : State := State.reset.withFetchWord 32 0

/-- A change of the executing thread. -/
def onMe (f : Thread → Thread) (s : State) : State := s.modMe f

/-- Registers of the executing thread set. -/
def withRegs (l : List (Reg × Word)) (s : State) : State := l.foldl (fun s e => s.setX e.1 e.2) s

/-- The state after an instruction; the state itself where it stops. -/
def after (i : Instr) (s : State) : State :=
  match exec i s with
  | .next t => t
  | _ => s

/-- The instruction ends in a next state. -/
def runs (i : Instr) (s : State) : Bool :=
  match exec i s with
  | .next _ => true
  | _ => false

/-- x[3] after an instruction on values of x1 and x2. -/
def x3 (i : Instr) (a b : Word) : Word := (after i (withRegs [(1, a), (2, b)] base)).x 3

/-- The cause that a trap leaves, with TVAL and TVAL2. -/
def trapOf (i : Instr) (s : State) : Word × Word × Word :=
  let t := (after i s).me
  (t.tcause, t.tval, t.tval2)

/-- A command record of the host with five operands. -/
def cmd (a b c d e : Word) : Cmd := ⟨7, a, b, c, d, e, 0, 0⟩

/-! Ill-formed terms: one for each check of WellFormed, at the first value it refuses. -/

theorem test_wf_words : [Instr.loop 1 0, .loop 1 4096, .load 1 2 0 .d false true, .vloop 1 0, .vloop 1 17].all (fun i => !i.wf) = true
    ∧ [Instr.loop 1 1, .loop 1 4095, .load 1 2 0 .d false false, .load 1 2 0 .w false true, .vloop 1 1, .vloop 1 16].all
      Instr.wf = true := by decide +kernel

theorem test_wf_core_bounds : ([fun c => .vectorEntryExecute c, fun c => .vectorEntryRetire c, fun c => .sfuRequest c,
    fun c => .mxMma c, fun c => .mxMmad c, fun c => .mxKstep c, fun c => .mxZero c, fun c => .mxLoad c, fun c => .mxStore c,
    fun c => .mxFence c, fun c => .mxScaleband c, fun c => .creditGrant c 31, fun c => .meterTick c 0, fun c => .levelSwitch c,
    fun c => .forcedPreemption c, fun c => .coreResume c, fun c => .regionWatchdog c, fun c => .coreCaptureDone c,
    fun c => .markerArrival 0 c 0, fun c => .markerArrival 0 0 c] : List (Nat → Instr)).all
      (fun f => (f 1023).wf && !(f 1024).wf) = true := by decide +kernel

theorem test_wf_thread_bounds : ([fun t => .storePerformed t, fun t => .tsleepTimeout t, fun t => .watchdogExpiry t,
    fun t => .asyncTrapDelivery t, fun t => .haltComplete t, fun t => .reservationGrant t, fun t => .rwaitRelease t,
    fun t => .linkRetryFail t 0, fun t => .instructionFetchReturn t, fun t => .storeMissReturn t, fun t => .slotWindowClose t,
    fun t => .monitorSluiceGrant t, fun t => .hostWalkReply t, fun n => .opticalLaneLoss n] : List (Nat → Instr)).all
      (fun f => (f 4095).wf && !(f 4096).wf) = true := by decide +kernel

theorem test_wf_die_bounds : ([fun d => .generationComplete d 15, fun d => .launchStart 47 d, fun d => .copyCommandStart d,
    fun d => .copyBudgetRefill 47 d, fun d => .telemetryFrameWrite d 0 (List.replicate 47 0), fun d => .dieQuarantine d,
    fun d => .monitorNamesLeader 0 d, fun d => .monitorNamesSpare d 1, fun d => .fabricDeviceAccess false d 0 64 []] :
      List (Nat → Instr)).all (fun f => (f 7).wf && !(f 8).wf) = true := by decide +kernel

theorem test_wf_partition_bounds : ([fun p => .launchStart p 0, fun p => .copyBudgetRefill p 0, fun p => .sliceEnd p,
    fun p => .superstepSwitch p, fun p => .resizeApply p, fun p => .sporeArm p, fun p => .backgroundPageCopy p 0,
    fun p => .sporeSeal p, fun p => .sporeCommit p, fun p => .sporeFail p 8] : List (Nat → Instr)).all
      (fun f => (f 47).wf && !(f 48).wf) = true := by decide +kernel

theorem test_wf_function_bounds : ([fun f => .hostRead f 0 64, fun f => .hostWrite f 0 [0], fun f => .hostAtomic f 0 9 8 0 0,
    fun f => .cqtailWrite f 0, fun f => .ringConfigWrite f 0x28 0, fun f => .eqheadWrite f 0, fun f => .launch f (cmd 0 0 0 0 0),
    fun f => .wake f (cmd 0 0 0 0 0)] : List (Nat → Instr)).all (fun f => (f 48).wf && !(f 49).wf) = true := by decide +kernel

theorem test_wf_other_bounds : ([.creditGrant 0 32, .generationComplete 0 16, .telemetryFrameWrite 0 0 [], .voltageDroop 47,
    .voltageRecovery 47, .currentLimit 47, .currentLimitRelease 47, .coldReset 7, .hostRead 0 0 0, .hostRead 0 0 65,
    .hostWrite 0 0 [], .hostWrite 0 0 (List.replicate 65 0), .hostAtomic 0 0 0 2 0 0, .hostAtomic 0 0 10 4 0 0,
    .ringConfigWrite 0 0x10 0, .sporeFail 0 0, .sporeFail 0 9, .errorRecordRequest 0 0, .errorRecordRequest 0 4097,
    .i3cDynamicAddress 128, .fabricDeviceAccess true 0 0 0 [], .fabricDeviceAccess true 0 0 65 (List.replicate 65 0),
    .fabricDeviceAccess true 0 0 2 [0], .monitorNamesSpare 0 2] : List Instr).all (fun i => !i.wf) = true := by decide +kernel

/-! Decoding: one word of every encoding, its fields written out by the formats of R56 and the codes of R57 to R66. -/

/-- Every pair is a word and the instruction that the decoder reads from it. -/
def decodes (l : List (Nat × Instr)) : Bool :=
  l.all (fun e => match decodeWord e.1 with
    | .ok i => decide (i = e.2)
    | .error _ => false)

theorem test_decode_sys_and_csr : decodes [
    (0b0_000000_000000_000000_000000_0000000, .nop),
    (0b0_000000_000000_000000_000000_0000001, .halt),
    (0b0_000000_000000_101001_011100_0000010, .trap 0xA5C),
    (0b0_000000_000000_000000_000000_0000011, .eret),
    (0b0_000000_000000_000000_000000_0000100, .brk),
    (0b0_000000_000000_000000_000000_0001000, .tyield),
    (0b0_000000_000000_011010_000000_0001001, .tsleep 26),
    (0b0_000000_000000_011010_000000_0001010, .twake 26),
    (0b0_000000_101011_001110_011101_0001100, .sigchk 0x2B39D),
    (0b0_000000_000000_000000_000000_0010000, .fenceCore),
    (0b0_000000_000000_000000_000000_0010001, .fenceDie),
    (0b0_000000_000000_000000_000000_0010010, .fencePkg),
    (0b0_000000_000000_000000_000000_0010011, .fenceSys),
    (0b0_000001_101101_011010_101001011100_0, .csrrw 45 26 0xA5C),
    (0b0_000001_101101_011010_101001011100_1, .csrrs 45 26 0xA5C)] = true := by decide +kernel

theorem test_decode_branches_and_loops : decodes [
    (0b0_000010_101101_1011010001111000111, .jal 45 0x5A3C7),
    (0b0_000011_101101_011010_1010111000011, .jalr 45 26 0x15C3),
    (0b0_000100_011010_100101_1010111000011, .beq 26 37 0x15C3),
    (0b0_000101_011010_100101_1010111000011, .bne 26 37 0x15C3),
    (0b0_000110_011010_100101_1010111000011, .blt 26 37 0x15C3),
    (0b0_000111_011010_100101_1010111000011, .bge 26 37 0x15C3),
    (0b0_001000_011010_100101_1010111000011, .bltu 26 37 0x15C3),
    (0b0_001001_011010_100101_1010111000011, .bgeu 26 37 0x15C3),
    (0b0_001010_011010_000000_0000011000101, .loop 26 0xC5)] = true := by decide +kernel

theorem test_decode_loads_and_stores : decodes [
    (0b0_001011_101101_011010_101101011_10_01, .load 45 26 0x16B .w false true),
    (0b0_001100_101101_011010_101101011_00_01, .store 45 26 0x16B .b false true),
    (0b0_001101_101101_011010_001011011_01_10, .lda 45 26 0x5B .h .pkg),
    (0b0_001101_101101_011010_101011011_11_01, .stl 45 26 false 0x5B .d .die)] = true := by decide +kernel

theorem test_decode_atomics_and_copies : decodes [
    (0b0_001110_101101_011010_100101_0000_11_1, .amoAdd 45 26 37 .h true),
    (0b0_001110_101101_011010_100101_0001_00_0, .amoAnd 45 26 37 .w false),
    (0b0_001110_101101_011010_100101_0010_01_1, .amoOr 45 26 37 .d true),
    (0b0_001110_101101_011010_100101_0011_00_0, .amoXor 45 26 37 .w false),
    (0b0_001110_101101_011010_100101_0100_01_1, .amoMin 45 26 37 .d true),
    (0b0_001110_101101_011010_100101_0101_00_0, .amoMax 45 26 37 .w false),
    (0b0_001110_101101_011010_100101_0110_01_1, .amoMinu 45 26 37 .d true),
    (0b0_001110_101101_011010_100101_0111_00_0, .amoMaxu 45 26 37 .w false),
    (0b0_001110_101101_011010_100101_1000_01_1, .amoSwap 45 26 37 .d true),
    (0b0_001110_101101_011010_100101_1001_00_0, .amoCas 45 26 37 .w false),
    (0b0_001111_101101_011010_000000_0000_00_0, .getr 45 26 .w),
    (0b0_001111_000000_011010_100101_0001_01_1, .putr 26 37 .d true),
    (0b0_010000_101101_011010_100101_0000_00_0, .get 45 26 37),
    (0b0_010000_101101_011010_100101_0001_00_1, .put 45 26 37 true),
    (0b0_010000_101101_011010_000000_0010_00_0, .cpop 45 26),
    (0b0_010000_000000_000000_000000_0011_00_0, .cwait)] = true := by decide +kernel

theorem test_decode_messages_barriers_and_flumes_1 : decodes [
    (0b0_010001_101101_011010_010110_0000000, .send 45 26 0x16),
    (0b0_010001_101101_011010_010110_0000001, .recv 45 26 0x16),
    (0b0_010001_101101_011010_010110_0000010, .rpoll 45 26 0x16),
    (0b0_010010_000000_000000_001011_0000000, .bar 0xB),
    (0b0_010010_000000_000000_001011_0000001, .step 0xB),
    (0b0_010010_101101_011010_001011_0000010, .bdom 45 26 0xB),
    (0b0_010011_101101_011010_100101_0000000, .weirCadd 45 26 37),
    (0b0_010011_101101_011010_000000_0000001, .weirCread 45 26),
    (0b0_010011_101101_011010_100101_0000010, .weirCswap 45 26 37),
    (0b0_010011_000000_011010_000000_0001000, .weirSwait 26),
    (0b0_010011_000000_011010_000000_0001001, .weirSpost 26),
    (0b0_010011_101101_011010_000000_0001010, .weirStry 45 26),
    (0b0_010100_000000_011010_001011_0000000, .fcfg 26 0xB),
    (0b0_010100_000000_011010_001011_0000001, .fwaitf 26 0xB),
    (0b0_010100_000000_011010_001011_0000010, .fwaite 26 0xB),
    (0b0_010100_000000_011010_001011_0000011, .fprod 26 0xB)] = true := by decide +kernel

theorem test_decode_messages_barriers_and_flumes_2 : decodes [
    (0b0_010100_000000_011010_001011_0000100, .fcons 26 0xB),
    (0b0_010100_101101_000000_001011_0000101, .frd 45 0xB)] = true := by decide +kernel

theorem test_decode_reservations_and_launches : decodes [
    (0b0_010101_101101_011010_000000_0000000, .rsv 45 26),
    (0b0_010101_101101_011010_000000_0000001, .rsvW 45 26),
    (0b0_010101_101101_011010_000000_0000010, .rsvP 45 26),
    (0b0_010101_101101_011010_000000_0000011, .rsvWP 45 26),
    (0b0_010101_000000_011010_000000_0000100, .spnd 26),
    (0b0_010101_101101_000000_000000_0000101, .rrel 45),
    (0b0_010101_101101_000000_000000_0000110, .rfill 45),
    (0b0_010101_000000_011010_000000_0000111, .rwait 26),
    (0b0_010101_000000_000000_000010_0001000, .sprint 0x2),
    (0b0_010110_101101_011010_000000_0000000, .spore 45 26),
    (0b0_010111_101101_011010_000000_0000000, .larm 45 26),
    (0b0_010111_101101_011010_100101_0000001, .lpatchPrio 45 26 37),
    (0b0_010111_101101_011010_100101_0000010, .lpatchArg 45 26 37),
    (0b0_010111_101101_011010_100101_0000011, .lpatchCount 45 26 37),
    (0b0_010111_101101_011010_100101_0000100, .lpatchDone 45 26 37)] = true := by decide +kernel

theorem test_decode_vector_memory_and_control : decodes [
    (0b0_011000_11101_011010_100101_00010000, .vld 29 26 37 .w),
    (0b0_011000_11101_011010_100101_00100000, .vlds 29 26 37 .b),
    (0b0_011000_11101_011010_100101_01001000, .vldf 29 26 37 .h),
    (0b0_011000_11101_011010_100101_10010000, .vst 29 26 37 .w),
    (0b0_011000_11101_011010_100101_10100000, .vsts 29 26 37 .b),
    (0b0_011000_11101_011010_100101_11001000, .vstf 29 26 37 .h),
    (0b0_011001_101101_011010_000000_0000000, .vsetl 45 26),
    (0b0_011001_000000_011010_001101_0000001, .vloop 26 0xD),
    (0b0_011001_011110_011010_001011_0000010, .sbind 0x2 26 0xB),
    (0b0_011001_011110_000000_000000_0000011, .sunbind 0x2),
    (0b0_011001_101101_011010_001011_0000100, .vmovxXv 45 26 11),
    (0b0_011001_011101_011010_100101_0000101, .vmovxVx 29 26 37)] = true := by decide +kernel

theorem test_decode_integer_1 : decodes [
    (0b0_100000_101101_011010_100101_0000000, .add 45 26 37),
    (0b0_100000_101101_011010_100101_0000001, .sub 45 26 37),
    (0b0_100000_101101_011010_100101_0000010, .and 45 26 37),
    (0b0_100000_101101_011010_100101_0000011, .or 45 26 37),
    (0b0_100000_101101_011010_100101_0000100, .xor 45 26 37),
    (0b0_100000_101101_011010_100101_0000101, .sll 45 26 37),
    (0b0_100000_101101_011010_100101_0000110, .srl 45 26 37),
    (0b0_100000_101101_011010_100101_0000111, .sra 45 26 37),
    (0b0_100000_101101_011010_100101_0001000, .slt 45 26 37),
    (0b0_100000_101101_011010_100101_0001001, .sltu 45 26 37),
    (0b0_100000_101101_011010_100101_0001010, .min 45 26 37),
    (0b0_100000_101101_011010_100101_0001011, .max 45 26 37),
    (0b0_100000_101101_011010_100101_0001100, .minu 45 26 37),
    (0b0_100000_101101_011010_100101_0001101, .maxu 45 26 37),
    (0b0_100000_101101_011010_100101_0010000, .mul 45 26 37),
    (0b0_100000_101101_011010_100101_0010001, .mulhiSs 45 26 37)] = true := by decide +kernel

theorem test_decode_integer_2 : decodes [
    (0b0_100000_101101_011010_100101_0010010, .mulhiUu 45 26 37),
    (0b0_100000_101101_011010_100101_0010011, .mulhiSu 45 26 37),
    (0b0_100000_101101_011010_100101_0010100, .div 45 26 37),
    (0b0_100000_101101_011010_100101_0010101, .divu 45 26 37),
    (0b0_100000_101101_011010_100101_0010110, .rem 45 26 37),
    (0b0_100000_101101_011010_100101_0010111, .remu 45 26 37),
    (0b0_100000_101101_011010_100101_0100000, .addw 45 26 37),
    (0b0_100000_101101_011010_100101_0100001, .subw 45 26 37),
    (0b0_100000_101101_011010_100101_0100010, .sllw 45 26 37),
    (0b0_100000_101101_011010_100101_0100011, .srlw 45 26 37),
    (0b0_100000_101101_011010_100101_0100100, .sraw 45 26 37),
    (0b0_100000_101101_011010_100101_0100101, .mulw 45 26 37),
    (0b0_100000_101101_011010_100101_0100110, .divw 45 26 37),
    (0b0_100000_101101_011010_100101_0100111, .divuw 45 26 37),
    (0b0_100000_101101_011010_100101_0101000, .remw 45 26 37),
    (0b0_100000_101101_011010_100101_0101001, .remuw 45 26 37)] = true := by decide +kernel

theorem test_decode_immediates : decodes [
    (0b0_100001_101101_011010_1010111000011, .addi 45 26 0x15C3),
    (0b0_100010_101101_011010_1010111000011, .andi 45 26 0x15C3),
    (0b0_100011_101101_011010_1010111000011, .ori 45 26 0x15C3),
    (0b0_100100_101101_011010_1010111000011, .xori 45 26 0x15C3),
    (0b0_100101_101101_011010_1010111000011, .slti 45 26 0x15C3),
    (0b0_100110_101101_011010_1010111000011, .sltiu 45 26 0x15C3),
    (0b0_100111_101101_011010_0000000101101, .slli 45 26 0x2D),
    (0b0_100111_101101_011010_0000001101101, .srli 45 26 0x2D),
    (0b0_100111_101101_011010_0000010101101, .srai 45 26 0x2D),
    (0b0_100111_101101_011010_0000100010110, .slliw 45 26 0x16),
    (0b0_100111_101101_011010_0000101010110, .srliw 45 26 0x16),
    (0b0_100111_101101_011010_0000110010110, .sraiw 45 26 0x16),
    (0b0_101000_101101_1011010001111000111, .lui 45 0x5A3C7),
    (0b0_101001_101101_1011010001111000111, .auipc 45 0x5A3C7)] = true := by decide +kernel

theorem test_decode_bits : decodes [
    (0b0_101010_101101_011010_000000_0000000, .clz 45 26),
    (0b0_101010_101101_011010_000000_0000001, .ctz 45 26),
    (0b0_101010_101101_011010_000000_0000010, .popc 45 26),
    (0b0_101010_101101_011010_100101_0000011, .bext 45 26 37),
    (0b0_101010_101101_011010_100101_0000100, .bins 45 26 37),
    (0b0_101010_101101_011010_100101_0000101, .sext 45 26 37),
    (0b0_101010_101101_011010_100101_0000110, .zext 45 26 37),
    (0b0_101010_101101_011010_100101_0000111, .lea 45 26 37),
    (0b0_101010_101101_011010_100101_0001000, .lea2 45 26 37),
    (0b0_101010_101101_011010_100101_0001001, .lea4 45 26 37),
    (0b0_101010_101101_011010_100101_0001010, .lea8 45 26 37)] = true := by decide +kernel

theorem test_decode_scalar_float_1 : decodes [
    (0b0_101011_101101_011010_100101_0000101, .fadd 45 26 37 .dyn),
    (0b0_101011_101101_011010_100101_0001000, .fsub 45 26 37 .rne),
    (0b0_101011_101101_011010_100101_0010001, .fmul 45 26 37 .rup),
    (0b0_101011_101101_011010_100101_0011010, .fdiv 45 26 37 .rdn),
    (0b0_101011_101101_011010_000000_0100010, .fsqrt 45 26 .rdn),
    (0b0_101011_101101_011010_100101_0101000, .fmin 45 26 37),
    (0b0_101011_101101_011010_100101_0110000, .fmax 45 26 37),
    (0b0_101011_101101_011010_100101_0111000, .feq 45 26 37),
    (0b0_101011_101101_011010_100101_1000000, .fclt 45 26 37),
    (0b0_101011_101101_011010_100101_1001000, .fcle 45 26 37),
    (0b0_101011_101101_011010_000000_1010010, .ftoiW 45 26 .rdn),
    (0b0_101011_101101_011010_000000_1011011, .ftoiL 45 26 .rtz),
    (0b0_101011_101101_011010_000000_1100100, .itofW 45 26 .rna),
    (0b0_101011_101101_011010_000000_1101101, .itofL 45 26 .dyn),
    (0b0_101011_101101_011010_000000_1110000, .fabs 45 26),
    (0b0_101011_101101_011010_000000_1111000, .fneg 45 26)] = true := by decide +kernel

theorem test_decode_scalar_float_2 : decodes [
    (0b0_101100_101101_011010_100101_1100110, .fmaS 45 26 37 51),
    (0b0_101100_101101_011010_100101_1100111, .fmsS 45 26 37 51)] = true := by decide +kernel

theorem test_decode_vector_float : decodes [
    (0b0_101101_11101_10110_01011_0_1_01000000, .varithVadd 29 22 11 false true .bf16),
    (0b0_101101_11101_10110_01011_1_0_00000001, .varithVsub 29 22 11 true false .f32),
    (0b0_101101_11101_10110_01011_0_1_01000010, .varithVmul 29 22 11 false true .bf16),
    (0b0_101101_11101_10110_01011_1_0_00000011, .varithVmin 29 22 11 true false .f32),
    (0b0_101101_11101_10110_01011_0_1_01000100, .varithVmax 29 22 11 false true .bf16),
    (0b0_101101_11101_10110_00000_0_0_00000101, .varithVabs 29 22 false .f32),
    (0b0_101101_11101_10110_00000_1_0_01000110, .varithVneg 29 22 true .bf16)] = true := by decide +kernel

theorem test_decode_vector_integer : decodes [
    (0b0_101110_11101_10110_01011_1_0_10000000, .vintVadd 29 22 11 true false .i32),
    (0b0_101110_11101_10110_01011_0_1_00000001, .vintVsub 29 22 11 false true .i8),
    (0b0_101110_11101_10110_01011_1_0_01000010, .vintVmul 29 22 11 true false .i16),
    (0b0_101110_11101_10110_01011_0_1_10000011, .vintVmin 29 22 11 false true .i32),
    (0b0_101110_11101_10110_01011_1_0_00000100, .vintVmax 29 22 11 true false .i8),
    (0b0_101110_11101_10110_01011_0_1_01000101, .vintVminu 29 22 11 false true .i16),
    (0b0_101110_11101_10110_01011_1_0_10000110, .vintVmaxu 29 22 11 true false .i32),
    (0b0_101110_11101_10110_01011_0_1_00000111, .vintVand 29 22 11 false true .i8),
    (0b0_101110_11101_10110_01011_1_0_01001000, .vintVor 29 22 11 true false .i16),
    (0b0_101110_11101_10110_01011_0_1_10001001, .vintVxor 29 22 11 false true .i32),
    (0b0_101110_11101_10110_01011_1_0_00001010, .vintVsll 29 22 11 true false .i8),
    (0b0_101110_11101_10110_01011_0_1_01001011, .vintVsrl 29 22 11 false true .i16),
    (0b0_101110_11101_10110_01011_1_0_10001100, .vintVsra 29 22 11 true false .i32),
    (0b0_101110_11101_10110_01011_0_1_00001101, .vintVadds 29 22 11 false true .i8),
    (0b0_101110_11101_10110_01011_1_0_01001110, .vintVsubs 29 22 11 true false .i16)] = true := by decide +kernel

theorem test_decode_conversions_1 : decodes [
    (0b0_101111_11101_10110_01011_0_1_00000000, .vcvtBf16F32 29 22 11 false true false),
    (0b0_101111_11101_10110_00000_0_0_00000001, .vcvtF32Bf16Lo 29 22 false),
    (0b0_101111_11101_10110_00000_1_0_00000010, .vcvtF32Bf16Hi 29 22 true),
    (0b0_101111_11101_10110_01011_1_0_10000011, .vcvtF16F32 29 22 11 true false true),
    (0b0_101111_11101_10110_00000_1_0_00000100, .vcvtF32F16Lo 29 22 true),
    (0b0_101111_11101_10110_00000_0_0_00000101, .vcvtF32F16Hi 29 22 false),
    (0b0_101111_11101_10110_00000_1_0_00000110, .vcvtF32I32 29 22 true),
    (0b0_101111_11101_10110_00000_0_0_00000111, .vcvtI32F32 29 22 false),
    (0b0_101111_11101_10110_00000_1_0_00010000, .vunpkE2m1 29 22 true),
    (0b0_101111_11101_10110_00000_0_0_00010001, .vunpkE3m2 29 22 false),
    (0b0_101111_11101_10110_00000_1_0_00010010, .vunpkE2m3 29 22 true),
    (0b0_101111_11101_10110_00000_0_0_00010011, .vunpkE4m3 29 22 false),
    (0b0_101111_11101_10110_00000_1_0_00010100, .vunpkE5m2 29 22 true),
    (0b0_101111_11101_10110_00000_0_0_10011000, .vpackE2m1 29 22 false true),
    (0b0_101111_11101_10110_00000_1_0_00011001, .vpackE3m2 29 22 true false),
    (0b0_101111_11101_10110_00000_0_0_10011010, .vpackE2m3 29 22 false true)] = true := by decide +kernel

theorem test_decode_conversions_2 : decodes [
    (0b0_101111_11101_10110_00000_1_0_00011011, .vpackE4m3 29 22 true false),
    (0b0_101111_11101_10110_00000_0_0_10011100, .vpackE5m2 29 22 false true)] = true := by decide +kernel

theorem test_decode_reductions_permutations_and_special_1 : decodes [
    (0b0_110000_11101_10110_00000_1_0_00000000, .vrsum 29 22 true .f32),
    (0b0_110000_11101_10110_00000_0_0_01000001, .vrmax 29 22 false .bf16),
    (0b0_110000_11101_10110_00000_1_0_10000010, .vrmin 29 22 true .i32),
    (0b0_110000_11101_10110_01011_1_0_10001000, .vcmpeq 29 22 11 true false .i32),
    (0b0_110000_11101_10110_01011_0_1_00001001, .vcmplt 29 22 11 false true .f32),
    (0b0_110000_11101_10110_01011_1_0_01001010, .vcmple 29 22 11 true false .bf16),
    (0b0_110000_11101_10110_01011_0_1_01001011, .vsel 29 22 11 false true .h),
    (0b0_110000_11101_10110_01011_1_0_00010000, .vshuf 29 22 11 true false .w),
    (0b0_110000_11101_10110_00000_1_0_01010001, .vbcast 29 22 true .h),
    (0b0_110001_11101_10110_00000_0_0_00000000, .vrcp 29 22 false),
    (0b0_110001_11101_10110_00000_1_0_00000001, .vrsqrt 29 22 true),
    (0b0_110001_11101_10110_00000_0_0_00000010, .vsqrt 29 22 false),
    (0b0_110001_11101_10110_00000_1_0_00000011, .vexp2 29 22 true),
    (0b0_110001_11101_10110_00000_0_0_00000100, .vlog2 29 22 false),
    (0b0_110010_11101_10110_01011_0_1_01000000, .vfma 29 22 11 false true .bf16),
    (0b0_110010_11101_10110_01011_1_0_00000001, .vfms 29 22 11 true false .f32)] = true := by decide +kernel

theorem test_decode_reductions_permutations_and_special_2 : decodes [
    (0b0_110010_11101_10110_01011_0_1_01000010, .vfnma 29 22 11 false true .bf16)] = true := by decide +kernel

/-- R55, R147: reserved selectors and fields that must be zero are refused: a SYS function that R58 does not list, a field of
NOP, a major that is reserved, a double load with zero extension, LDA with G, AND.S, a rounding field 110, a shift of a W form
by 32, VSEL of a third type, VCVT.F32.I32 with S. -/
theorem test_decode_reserved : [0b0_000000_000000_000000_000000_0000101, 0b0_000000_000001_000000_000000_0000000,
    0b0_011010_000000_000000_000000_0000000, 0b0_001011_000001_000010_000000000_11_01, 0b0_001101_000001_000010_010000000_10_00,
    0b0_001110_000001_000010_000011_0001_10_0, 0b0_101011_000001_000010_000011_0000110, 0b0_100111_000001_000010_0000100_100000,
    0b0_110000_00001_00010_00011_0_0_10001011, 0b0_101111_00001_00010_00000_0_0_10000110].all
      (fun w => (match decodeWord w with | .ok _ => false | .error _ => true)) = true := by decide +kernel

/-- R55, R51: bundles. -/
theorem test_bundles : decodeBundle 0x18996029 0x40A18681 = .pair (.store 19 11 2 .w false true) (.sub 20 12 13) ∧
    decodeBundle 0x88A01FFC 0 = .lone (.beq 20 0 0x1FFC) .nop ∧
    decodeBundle 0x40A18680 0x18996029 = .illegal 0 0x40A18680 0 ∧ decodeBundle 0x18996029 0x96916028 = .illegal 1 0x96916028 0 ∧
    decodeBundle 0x00000003 0 = .illegal 0 0x00000003 4 := by decide +kernel

/-! Integer and bit operations: values by the tables of R112 to R118. -/

theorem test_int_arithmetic : x3 (.add 3 1 2) 0xFFFFFFFFFFFFFFFF 2 = 1 ∧ x3 (.sub 3 1 2) 1 2 = 0xFFFFFFFFFFFFFFFF ∧
    x3 (.sll 3 1 2) 1 0x47F = 0x8000000000000000 ∧ x3 (.sra 3 1 2) 0x8000000000000000 63 = 0xFFFFFFFFFFFFFFFF ∧
    x3 (.srl 3 1 2) 0x8000000000000000 63 = 1 ∧ x3 (.slt 3 1 2) 0xFFFFFFFFFFFFFFFF 0 = 1 ∧ x3 (.sltu 3 1 2) 0xFFFFFFFFFFFFFFFF 0 = 0 ∧
    x3 (.min 3 1 2) 0xFFFFFFFFFFFFFFFF 0 = 0xFFFFFFFFFFFFFFFF ∧ x3 (.maxu 3 1 2) 0xFFFFFFFFFFFFFFFF 0 = 0xFFFFFFFFFFFFFFFF ∧
    x3 (.mulhiSs 3 1 2) 0xFFFFFFFFFFFFFFFF 0xFFFFFFFFFFFFFFFF = 0 ∧
    x3 (.mulhiUu 3 1 2) 0xFFFFFFFFFFFFFFFF 0xFFFFFFFFFFFFFFFF = 0xFFFFFFFFFFFFFFFE ∧
    x3 (.mulhiSu 3 1 2) 0xFFFFFFFFFFFFFFFF 0xFFFFFFFFFFFFFFFF = 0xFFFFFFFFFFFFFFFF := by decide +kernel

theorem test_division_corners : x3 (.div 3 1 2) 0x8000000000000000 0xFFFFFFFFFFFFFFFF = 0x7FFFFFFFFFFFFFFF ∧
    x3 (.rem 3 1 2) 0x8000000000000000 0xFFFFFFFFFFFFFFFF = 0 ∧ x3 (.div 3 1 2) 5 0 = 0x7FFFFFFFFFFFFFFF ∧
    x3 (.div 3 1 2) 0xFFFFFFFFFFFFFFFB 0 = 0x8000000000000000 ∧ x3 (.div 3 1 2) 0 0 = 0 ∧ x3 (.divu 3 1 2) 5 0 = 0xFFFFFFFFFFFFFFFF ∧
    x3 (.rem 3 1 2) 0xFFFFFFFFFFFFFFF9 2 = 0xFFFFFFFFFFFFFFFF ∧ x3 (.remu 3 1 2) 7 0 = 7 ∧
    x3 (.divw 3 1 2) 0x80000000 0xFFFFFFFF = 0x7FFFFFFF ∧ x3 (.divuw 3 1 2) 1 0 = 0xFFFFFFFFFFFFFFFF ∧
    x3 (.remuw 3 1 2) 0x80000000 0 = 0xFFFFFFFF80000000 := by decide +kernel

theorem test_word_forms : x3 (.addw 3 1 2) 0x7FFFFFFF 1 = 0xFFFFFFFF80000000 ∧ x3 (.srlw 3 1 2) 0xFFFFFFFF80000000 0x20 = 0xFFFFFFFF80000000 ∧
    x3 (.sraw 3 1 2) 0x80000000 31 = 0xFFFFFFFFFFFFFFFF ∧ x3 (.mulw 3 1 2) 0x10000 0x8000 = 0xFFFFFFFF80000000 ∧
    x3 (.sltiu 3 1 1) 0 0 = 1 ∧ x3 (.sltiu 3 1 0x1FFF) 5 0 = 1 ∧ x3 (.addi 3 1 0x1000) 0 0 = 0xFFFFFFFFFFFFF000 ∧
    x3 (.lui 3 0x40000) 0 0 = 0xFFFFFFFF80000000 ∧ x3 (.auipc 3 1) 0 0 = 0x32000 ∧ x3 (.sraiw 3 1 31) 0x80000000 0 = 0xFFFFFFFFFFFFFFFF := by
  decide +kernel

theorem test_bit_operations : x3 (.clz 3 1) 1 0 = 63 ∧ x3 (.ctz 3 1) 0 0 = 64 ∧ x3 (.popc 3 1) 0xFF00 0 = 8 ∧
    x3 (.bext 3 1 2) 0xFFFFFFFFFFFFFFFF 0x7F3C = 0xF ∧ x3 (.bext 3 1 2) 0xABCD 0x0804 = 0xBC ∧ x3 (.bins 3 1 2) 0xFF 0x0408 = 0xF00 ∧
    x3 (.sext 3 1 2) 0x80 7 = 0xFFFFFFFFFFFFFF80 ∧ x3 (.zext 3 1 2) 0x1FF 7 = 0xFF ∧ x3 (.lea8 3 1 2) 1 2 = 17 := by decide +kernel

/-- R7: x0 stays zero. -/
theorem test_x0 : (after (.addi 0 1 5) (withRegs [(1, 1)] base)).x 0 = 0 := by decide +kernel

/-- The operands of IntRegisterForms, IntImmediateForms and BitOperations, with a field whose width is cut to 64 - p. -/
theorem witness_operands : (withRegs [(1, 0xFFFFFFFFFFFFFFFE), (2, 0x7F3C)] base).x 1 = 0xFFFFFFFFFFFFFFFE ∧
    (withRegs [(1, 0xFFFFFFFFFFFFFFFE), (2, 0x7F3C)] base).x 2 = 0x7F3C ∧ (0x7F3C : Word).toNat % 64 = 60 ∧
    min ((0x7F3C : Word).toNat / 256 % 128) (64 - 60) = 4 ∧ ((0xFFFFFFFFFFFFFFFE : Word).setWidth 32 : BitVec 32) = 0xFFFFFFFE := by
  decide +kernel

/-! Scalar floating point: IEEE 754 values, and R93 to R98. -/

/-- 1 + 1 = 2; 1/3 rounded to nearest even, with IX; 0/0 and a signalling NaN raise IV and give the canonical NaN. -/
theorem test_float : x3 (.fadd 3 1 2 .rne) 0x3F800000 0x3F800000 = 0x40000000 ∧ x3 (.fdiv 3 1 2 .rne) 0x3F800000 0x40400000 = 0x3EAAAAAB ∧
    x3 (.fdiv 3 1 2 .rtz) 0x3F800000 0x40400000 = 0x3EAAAAAA := by decide +kernel

theorem test_float_more :
    x3 (.fdiv 3 1 2 .rne) 0 0 = 0x7FC00000 ∧ Fmt.f32.mul .rne 0x40000000 0x40400000 = (0x40C00000, 0) ∧
    x3 (.ftoiW 3 1 .rtz) 0xCF800000 0 = 0xFFFFFFFF80000000 ∧ x3 (.itofW 3 1 .rne) 0xFFFFFFFF 0 = 0xBF800000 ∧
    x3 (.fcle 3 1 2) 0 0x80000000 = 1 ∧ x3 (.fmin 3 1 2) 0x80000000 0 = 0x80000000 ∧ x3 (.fneg 3 1) 0x3F800000 0 = 0xBF800000 := by
  decide +kernel

theorem test_float_flags : Fmt.f32.div .rne 0x3F800000 0 = (0x7F800000, Flags.zd) ∧
    Fmt.f32.div .rne 0x3F800000 0x40400000 = (0x3EAAAAAB, Flags.ix) ∧ Fmt.f32.cmpEq 0x7FC00000 0 = (false, 0) ∧
    Fmt.f32.cmpLt 0x7FC00000 0 = (false, Flags.iv) := by decide +kernel

theorem test_float_fcsr : (after (.fadd 3 1 2 .rne) (withRegs [(1, 0x7F800001)] base)).me.fcsr = 1 := by decide +kernel

/-- The square root of 2, rounded to nearest even. -/
theorem test_sqrt : Fmt.f32.sqrt .rne 0x40000000 = (0x3FB504F3, 16) := by decide +kernel

/-- The fused form rounds once: (1 + 2^-23)^2 - (1 + 2^-22) = 2^-46. -/
theorem test_fused : Fmt.f32.fma .rne false true 0x3F800001 0x3F800001 0x3F800002 = (0x28800000, 0) := by decide +kernel

/-- FloatValues: an encoding that is no NaN in each format, and pairs with a NaN and without one. -/
theorem witness_FloatValues : ([Fmt.f32, .f16, .bf16, .e5m2, .e4m3, .e3m2, .e2m3, .e2m1].all (fun f =>
      decide (1 < 2^f.width) && !(f.decode 1).isNan) = true) ∧
    ((Fmt.f32.decode 0x7FC00000).isNan || (Fmt.f32.decode 0).isNan) = true ∧
    ((Fmt.f32.decode 0x80000000).isNan || (Fmt.f32.decode 0x7F800000).isNan) = false := by decide +kernel

/-! Branches, jumps and loops. -/

/-- The first word of a lone bundle at 0x30000, its second word fetched. -/
def atFirst : State := onMe (fun t => { t with pc := 0x30000, second := some 0 }) base

theorem test_branch : (after (.blt 1 2 0x1FFF) (withRegs [(1, 0xFFFFFFFFFFFFFFFF)] base)).me.flow = .taken 0x30000 ∧
    (after (.bltu 1 2 8) (withRegs [(1, 0xFFFFFFFFFFFFFFFF)] base)).me.flow = .falls ∧
    (after (.jal 1 2) base).me.flow = .taken 0x3000C ∧ (after (.jal 1 2) base).x 1 = 0x30008 ∧ (after (.jal 1 2) atFirst).x 1 = 0x30004 ∧
    (after (.jalr 1 1 4) (withRegs [(1, 0x40000)] base)).me.flow = .taken 0x40004 ∧ trapOf (.jalr 1 2 2) base = (2, 2, 0) := by decide +kernel

/-- JumpsAndLinks: both positions, an aligned and a misaligned target. -/
theorem witness_JumpsAndLinks : atFirst.me.pc.toNat % 8 < 4 ∧ atFirst.me.second ≠ none ∧ ¬ base.me.pc.toNat % 8 < 4 ∧
    base.me.inh = false ∧ (BitVec.ofInt 64 ((base.x 2).toInt + (4 : BitVec 13).toInt)).toNat % 4 = 0 ∧
    (BitVec.ofInt 64 ((base.x 2).toInt + (2 : BitVec 13).toInt)).toNat % 4 ≠ 0 := by decide +kernel

/-- LOOP at 0x30000: end bundle 0x30010. -/
def looping (n : Word) (count : BitVec 32) (outer : Word) (lpend : Word) (lh : Bool) : State :=
  onMe (fun t => { t with pc := 0x30000, lpstart := 0x30000, lpend := lpend, lpcount := count, lpouter := outer
                          tstat := if lh then 0x140 else t.tstat }) (withRegs [(1, n)] base)

theorem test_loop : (after (.loop 1 4) (looping 0 0 0 0 false)).me.skip = [(0x30000, 0x30018)] ∧
    ((after (.loop 1 4) (looping 3 0 0 0 false)).me.lpstart, (after (.loop 1 4) (looping 3 0 0 0 false)).me.lpend,
      (after (.loop 1 4) (looping 3 0 0 0 false)).me.lpcount) = (0x30008, 0x30010, 3) ∧
    (after (.loop 1 4) (looping 3 5 0 0x30010 false)).me.lpouter = 0x0000000500010002 ∧
    trapOf (.loop 1 4) (looping 3 5 0 0x30008 false) = (1, 0x30000, 0x14080004) ∧
    (after (.loop 1 4) (looping 3 5 0 0x30008 false)).me.tstat.toNat / 2^24 = 2 := by decide +kernel

/-- LoopSetup: a count of 0, no active loop, a nested loop with the same end, and the three refusals. -/
theorem witness_LoopSetup : (looping 0 0 0 0 false).me.lh = false ∧ ((looping 0 0 0 0 false).x 1).setWidth 32 = (0 : BitVec 32) ∧
    ((looping 3 0 0 0 false).x 1).setWidth 32 ≠ (0 : BitVec 32) ∧ (looping 3 0 0 0 false).me.lpcount = 0 ∧
    (looping 3 5 0 0x30010 false).me.lpcount ≠ 0 ∧ (looping 3 5 0 0x30010 false).me.lpouter.toNat / 2^32 = 0 ∧
    (BitVec.ofInt 64 ((looping 3 5 0 0x30010 false).me.pc.toInt + 4 * (4 : BitVec 13).toInt) &&& 0xFFFFFFFFFFFFFFF8).toNat
      ≤ (looping 3 5 0 0x30010 false).me.lpend.toNat ∧
    (looping 3 0 0 0 true).me.lh = true ∧ (looping 3 0 0 0 true).me.inh = false ∧
    (looping 3 5 0x100000000 0x30010 false).me.lpouter.toNat / 2^32 ≠ 0 ∧ (looping 3 5 0 0x30008 false).me.lpend.toNat
      < (BitVec.ofInt 64 ((looping 3 5 0 0x30008 false).me.pc.toInt + 4 * (4 : BitVec 13).toInt) &&& 0xFFFFFFFFFFFFFFF8).toNat := by
  decide +kernel

/-- LoopEndProcessing: each clause, with an enclosing loop whose end is another bundle, or the same, at its last iteration or
not. -/
theorem witness_LoopEndProcessing :
    ([(0, 0, 0x30010), (2, 0, 0x30010), (1, 0, 0x30010), (1, 0x0000000500010003, 0x30010), (1, 0x0000000500010002, 0x30010),
        (1, 0x0000000100010003, 0x30010)] : List (BitVec 32 × Word × Word)).all fun p =>
      ((looping 0 p.1 p.2.1 p.2.2 false).me.loopEnd 0x30010 3).1.lpcount
        == if p.1 = 2 then 1 else if p.1 = 0 then 0 else if p.2.1 = 0x0000000500010002 then 5
          else if p.2.1 = 0x0000000500010003 then 4 else 0 := by decide +kernel

/-! CSRs, traps and thread control. -/

/-- Thread 0 at app privilege. -/
def app : State := onMe (fun t => { t with tstat := tstatWord 0 0xFF false false false false }) base

theorem test_csr : (after (.csrrs 3 1 8) (onMe (fun t => { t with fcsr := 0x102 }) (withRegs [(1, 1)] base))).x 3 = 0x102 ∧
    (after (.csrrs 3 1 8) (onMe (fun t => { t with fcsr := 0x102 }) (withRegs [(1, 1)] base))).me.fcsr = 0x103 ∧
    (after (.csrrw 0 1 8) (onMe (fun t => { t with fcsr := 0x102 }) (withRegs [(1, 0x718)] base))).me.fcsr = 0x118 ∧
    trapOf (.csrrs 3 0 1) app = (5, 1, 0) ∧ (trapOf (.csrrw 3 0 0xFFF) app).1 = 1 := by decide +kernel

/-- CsrWrites and CsrReads: a CSR that supervisors write, one that waits for the vector unit, one denied to app code, one
that is not implemented. -/
theorem witness_csr : csrOf 8 = some .fcsr ∧ CsrName.fcsr ≠ .slotbase ∧ CsrName.fcsr.allows true true = true ∧
    CsrName.fcsr.waitsForVector = true ∧ base.vectorBusy base.cur = false ∧ base.me.supervisor = true ∧ csrOf 0xFFF = none ∧
    app.me.inh = false ∧ app.me.supervisor = false ∧ csrOf 0 = some .tstat ∧ CsrName.tstat.allows app.me.supervisor true = false ∧
    CsrName.fcsr.allows app.me.supervisor false = true ∧ CsrName.tstat.allows app.me.supervisor false = false := by decide +kernel

/-- A slot table of one row at 0x30100: START 2, STOP 10, rank 0, channel 3, 64 bytes, in a phase of 20. -/
def tabled : State := { withRegs [(1, 0x30100), (2, 0x30200)] base with
  mem := Memory.writeBytes base.mem 0x30100 (leBytes 1 4 ++ leBytes 20 4 ++ zeros 8
    ++ leBytes 2 4 ++ leBytes 10 4 ++ leBytes 0 2 ++ [3, 0] ++ leBytes 64 4) }

/-- What a table read ends with. -/
def tableAt (s : State) (va : Word) : Option (List SlotRow) :=
  match (s.tableBy (some 0) 0 va).2 with
  | .value rows => some rows
  | .bad => some []
  | .waits _ => none

/-- CsrInstructions (SLOTBASE): a good table, a bad one, a store of the thread still under way; the next phase's opening. -/
theorem witness_Slotbase : csrOf 0x090 = some .slotbase ∧ tabled.me.supervisor = true ∧
    tableAt tabled 0x30100 = some [⟨2, 10, 0, 3, 64, 0⟩] ∧ tableAt tabled 0x30200 = some [] ∧
    tabled.writesBusy 0 = false ∧
    (onMe (fun t => { t with buffer := [⟨1, 0x30010, .mem 0x30010, 8, 0, false, false, 0, false⟩] }) tabled).writesBusy 0 = true ∧
    ((after (.csrrw 3 1 0x090) tabled).coreAt 0).comm = false ∧
    ((after (.csrrw 3 1 0x090) tabled).coreAt 0).slotNext = some (0x30100, [⟨2, 10, 0, 3, 64, 0⟩]) ∧
    ((after (.csrrw 3 2 0x090) tabled).coreAt 0).slotNext = none := by decide +kernel

theorem test_trap : trapOf (.trap 0xABC) base = (0x8ABC, 0, 0) ∧ trapOf .brk base = (0x4000, 0, 0) ∧
    (let s := after .brk (onMe (fun t => { t with tstat := tstatWord 0 0xFF false true true true, tepc := 5 }) base)
     (s.me.tcause, s.me.tval2, s.me.tepc, s.me.status) = (0x17, 0x4000, 5, .parked .contained)) ∧
    (after .brk base).me.tepc = 0x30004 ∧ (after .brk app).me.supervisor = true ∧ (after .brk app).me.inh = true ∧
    trapOf .eret app = (5, 0x30004, 0) ∧ trapOf .eret (onMe (fun t => { t with tepc := 0x40002 }) base) = (2, 0x40002, 0) ∧
    (after .eret (onMe (fun t => { t with tepc := 0x40004, tstat := tstatWord 0 0 false true true true }) base)).me.flow = .returned 0x40004 ∧
    (after .eret (onMe (fun t => { t with tepc := 0x40004, tstat := tstatWord 0 0 false true true true }) base)).me.supervisor = false := by
  decide +kernel

/-- TrapsAndReturns and ThreadControl: a supervisor and an app thread with aligned TEPC and no handler running; a set wake
flag; a sleep with and without a limit; another READY thread and none; a checker that matches. -/
theorem witness_control : base.me.inh = false ∧ base.me.tepc.toNat % 4 = 0 ∧ base.me.supervisor = true ∧ app.me.supervisor = false ∧
    app.me.inh = false ∧ base.me.wake = false ∧ base.me.woke = none ∧ base.x 1 = 0 ∧ (withRegs [(1, 9)] base).x 1 ≠ 0 ∧
    (onMe (fun t => { t with wake := true }) base).me.wake = true ∧
    ((base.modThread 1 (fun t => { t with status := .ready })).thread 1).status = .ready ∧
    (onMe (fun t => { t with tstat := tstatWord 0 0xFF false true true true }) base).me.inh = true ∧ base.me.launch = none ∧
    base.away (base.partOf base.cur) base.here = false ∧
    app.me.chkC ++ app.me.chkD = (0 : BitVec 18) ∧ Sparse.get (base.part (base.partOf base.cur)).ranks 0 .invalid = .valid 0 ∧
    Sparse.get (base.part (base.partOf base.cur)).ranks 1023 .invalid = .invalid ∧ base.here = 0 ∧ base.cur % 4 = 0 := by decide +kernel

theorem test_control : (after .tyield (base.modThread 1 (fun t => { t with status := .ready }))).pickThread 0 = some 1 ∧
    (after (.tsleep 1) (onMe (fun t => { t with wake := true }) base)).me.wake = false ∧
    (after (.twake 1) base).me.wake = true ∧ ((after (.twake 1) (withRegs [(1, 0x400)] base)).packets.map (fun k => k.cargo)) = [.wake 1] ∧
    trapOf (.twake 1) (withRegs [(1, 1)] base) = (5, 1, 0) := by decide +kernel

/-! Fences, loads and stores. -/

/-- An address of the own scratchpad. -/
def sp (off : Nat) : Word := BitVec.ofNat 64 (15 * 2^51 + off)

/-- The address reaches key `a` and nothing else of the state changes on the way. -/
def reaches (s : State) (u : Use) (va : Word) (n a : Nat) : Bool :=
  match s.reach u va n with
  | .found b _ t => b == a && decide (t = s)
  | _ => false

/-- The address reaches key `a`. -/
def reachesAt (s : State) (u : Use) (va : Word) (n a : Nat) : Bool :=
  match s.reach u va n with
  | .found b _ _ => b == a
  | _ => false

/-- The state that an access leaves where it reaches memory. -/
def foundState (s : State) (u : Use) (va : Word) (n : Nat) : State :=
  match s.reach u va n with
  | .found _ _ t => t
  | _ => s

/-- n early stores of thread 0 to 0x30010 wait in its buffer. -/
def storing (n : Nat) : State :=
  onMe (fun t => { t with buffer := List.replicate n ⟨1, 0x30010, .mem 0x30010, 8, 0x1122334455667788, false, false, 0, false⟩ }) { base with nextId := 5 }

/-- Partition 0's ceiling set. -/
def ceiling (c : Scope) (s : State) : State := s.modPart 0 (fun q => { q with ceiling := c })

/-- Fences: performed at every scope, not performed, and a ceiling below the scope with and without CLIPTRAP. -/
theorem witness_Fences : ([Scope.core, .die, .pkg, .sys].all (fun c => base.performed base.cur c)) = true ∧
    (base.part (base.partOf base.cur)).ceiling = .sys ∧ (storing 1).performed 0 .core = false ∧
    ((ceiling .pkg base).part 0).ceiling = .pkg ∧ base.me.clipTrap = false ∧ (ceiling .pkg base).performed 0 .pkg = true ∧
    (ceiling .pkg (storing 1)).performed 0 .pkg = false ∧
    (onMe (fun t => { t with clipTrap := true }) (ceiling .pkg base)).me.clipTrap = true ∧ base.me.inh = false := by decide +kernel

theorem test_fence : (after .fenceSys base).me.status = .ready ∧ (after .fenceCore (storing 1)).me.status = .blocked (.performed .core false) 0 ∧
    (after .fenceSys (ceiling .pkg base)).me.clip = true ∧ (after .fenceSys (ceiling .pkg (storing 1))).me.clip = true ∧
    (after .fenceSys (ceiling .pkg (storing 1))).me.status = .blocked (.performed .pkg false) 0 ∧
    trapOf .fenceSys (onMe (fun t => { t with clipTrap := true }) (ceiling .pkg base)) = (10, 0, 3) := by decide +kernel

/-- Memory with bytes 0x80, 0x81, .. from 0x30010 on. -/
def withData : State := { base with mem := Memory.writeBytes base.mem 0x30010 [0x80, 0x81, 0x82, 0x83, 0x84, 0x85, 0x86, 0x87] }

theorem test_load : (after (.load 3 1 0 .b false false) (withRegs [(1, 0x30010)] withData)).x 3 = 0xFFFFFFFFFFFFFF80 ∧
    (after (.load 3 1 0 .h false true) (withRegs [(1, 0x30010)] withData)).x 3 = 0x8180 ∧
    (after (.load 3 1 0x1FF .d false false) (withRegs [(1, 0x30018)] withData)).x 3 = 0x8786858483828180 ∧
    (after (.lda 3 1 0 .w .die) (withRegs [(1, 0x30010)] withData)).x 3 = 0x83828180 ∧
    (after (.load 3 1 1 .w false true) (withRegs [(1, 0x30010)] (storing 1))).x 3 = 0x11223344 := by decide +kernel

/-- Loads: bytes in HBM with nothing under way; bytes that the thread's own store holds; a store that covers a part. -/
theorem witness_Loads : reaches withData .load 0x30010 8 0x30010 = true ∧ withData.pageAt 0x30010 = none ∧
    withData.forwarded 0x30010 8 = .none ∧ withData.lineHeld 0x30010 8 = none ∧ withData.poisoned 0x30010 8 = false ∧
    withData.ownWatch (withData.asWatched .load) 0x30010 8 = none ∧ withData.watchers = [] ∧
    scopeCode .sys ≤ scopeCode (withData.part (withData.partOf withData.cur)).ceiling ∧
    reaches (storing 1) .load 0x30014 4 0x30014 = true ∧ (storing 1).vectorOverlap 0 0x30014 4 = false ∧
    (storing 1).me.puts.any (fun w => w.hits 0x30014 4) = false ∧
    ((storing 1).me.buffer.reverse.find? (fun x => x.hits 0x30014 4)).isSome = true ∧ (storing 1).forwarded 0x30014 8 = .waits := by
  decide +kernel

/-- Stores: to HBM, where the leaf's T bit is set, at the last free place of the buffer; STL with its earlier accesses done;
a slot store at the last place of the staging buffer that it may write, and one byte further. -/
theorem witness_Stores : reachesAt base .store 0x30010 8 0x30010 = true ∧ base.vectorOverlap 0 0x30010 8 = false ∧
    (storing 15).me.buffer.length < 16 ∧ reachesAt (storing 15) .store 0x30010 8 0x30010 = true ∧
    base.ownWatch (base.asWatched .store) 0x30010 8 = none ∧ (foundState base .store 0x30010 8).watchers = [] ∧
    base.released base.cur .pkg true = true ∧ reachesAt base .stl 0x30010 8 0x30010 = true ∧
    classify (sp 0x100030) = .slot 0x30 ∧ classify (sp 0x100038) = .slot 0x38 ∧ (sp 0x100030).toNat % 8 = 0 ∧ (sp 0x100038).toNat % 4 = 0 ∧
    base.ownWatch (base.asWatched .store) (sp 0x100030) 8 = none ∧ base.me.inh = false := by decide +kernel

/-- Stores: a full buffer, a vector store to the bytes, an STL with a store still buffered, below and above the ceiling, with and
without CLIPTRAP. -/
theorem witness_StoresWait : 16 ≤ (storing 16).me.buffer.length ∧ (storing 16).vectorOverlap 0 0x30010 8 = false ∧
    reachesAt (storing 16) .store 0x30010 8 0x30010 = true ∧ (storing 1).released 0 .pkg true = false ∧
    reachesAt (storing 1) .stl 0x30010 8 0x30010 = true ∧ scopeCode ((ceiling .pkg (storing 1)).part 0).ceiling < scopeCode .sys ∧
    (ceiling .pkg (storing 1)).me.clipTrap = false ∧
    (onMe (fun t => { t with clip := true }) (ceiling .pkg (storing 1))).released 0 .pkg true = false ∧
    (onMe (fun t => { t with clip := true }) (ceiling .pkg base)).released 0 .pkg true = true ∧
    reachesAt (onMe (fun t => { t with clipTrap := true }) (ceiling .pkg base)) .stl 0x30010 8 0x30010 = true ∧
    (base.writeBack 0).me.buffer.length < 16 ∧ reachesAt (base.writeBack 0) .stl 0x30010 8 0x30010 = true := by decide +kernel

theorem test_stl : (after (.stl 2 1 false 0 .d .sys) (withRegs [(1, 0x30010)] (storing 1))).me.status = .blocked (.performed .sys true) 0 ∧
    (after (.stl 2 1 false 0 .d .sys) (withRegs [(1, 0x30010)] (ceiling .pkg base))).me.clip = true ∧
    trapOf (.stl 2 1 false 0 .d .sys) (withRegs [(1, 0x30010)] (onMe (fun t => { t with clipTrap := true }) (ceiling .pkg base)))
      = (10, 0, 3) := by decide +kernel

/-- AddressTraps: a refused address, a misaligned one, another die's window. -/
theorem witness_AddressTraps : classify 0xFFFFFFFFFFFFFFFF = .refused ∧ classify 0x30011 ≠ .refused ∧ (0x30011 : Word).toNat % 2 ≠ 0 ∧
    classify (BitVec.ofNat 64 (2^51)) ≠ .refused ∧ (BitVec.ofNat 64 (2^51)).toNat % 8 = 0 ∧
    (classify (BitVec.ofNat 64 (2^51))).loads (dieOf base.here) = false ∧ base.me.inh = false := by decide +kernel

theorem test_address_traps : trapOf (.load 3 1 0 .h false false) (withRegs [(1, 0x30011)] base) = (2, 0x30011, 0) ∧
    trapOf (.store 3 1 0 .d false false) (withRegs [(1, 0x8000000000000)] base) = (6, 0x8000000000000, 0) ∧
    trapOf (.load 3 1 0 .b false false) (withRegs [(1, 0xFFFFFFFFFFFFFFFF)] base) = (5, 0xFFFFFFFFFFFFFFFF, 0) := by decide +kernel

/-- A store at the head of thread 0's buffer with a place. -/
def oneStore (p : Place) (g sent : Bool) : State :=
  onMe (fun t => { t with buffer := [⟨1, 0x30010, p, 8, 0x1122334455667788, g, sent, 0, false⟩] }) { base with nextId := 5 }

/-- 64 other global stores of the core have left. -/
def filling (s : State) : State := s.modThread 1 (fun t => { t with
  buffer := (List.range 64).map (fun i => ⟨100 + i, 0, .mem (0x1000 * i), 8, 0, true, true, 0, false⟩) })

/-- Partition 0 with its scheduling page at GPA 0x40000 and its fault page at 0x50000 of die 0. -/
def paged : State := base.modPart 0 (fun q => { q with pages := [(0, ⟨0, 0x40000, 0x50000, 0, 0⟩)] })

/-- StorePerformed: no store, a store to the scratchpad, an early and a global one to HBM, one to the staging buffer, one that has
left, a full hazard table, stores to a scheduling page and to the resume field of a fault page, and a leaf of the page tables
whose T bit is clear. -/
theorem witness_StorePerformed : base.me.buffer = [] ∧
    (oneStore (.mem (spadKey 0 8)) false false).putAhead 0 1 (spadKey 0 8) 8 = false ∧
    isSpad (spadKey 0 8) = true ∧ isSpad 0x30010 = false ∧ base.pageAt 0x30010 = none ∧
    ((oneStore (.mem 0x30010) true false).hazardTable (coreOf 0)).length < 64 ∧
    64 ≤ ((filling (oneStore (.mem 0x30010) true false)).hazardTable (coreOf 0)).length ∧
    (oneStore (.staging 0x30) false false).me.buffer.length = 1 ∧ 0x30 + 8 ≤ 64 ∧ 0x30 % 8 + 8 ≤ 8 ∧
    (oneStore (.mem 0x30010) true true).me.buffer.map (·.sent) = [true] ∧
    ((paged.pageAt 0x40100).map (fun h => (h.faults, h.off))) = some (false, 0x100) ∧
    ((paged.pageAt 0x50008).map (fun h => (h.faults, h.off))) = some (true, 8) ∧ bytesAt base 0x20018 8 = 0x3003F ∧
    bytesAt (base.touch ⟨0x30000, 0x20018, false, 0x3003F⟩) 0x20018 8 = 0x3023F := by decide +kernel

/-- StorePerformed, WriteAcknowledgements: no spore holds a page; a store that its line's owner has committed, its hold, and the
wait for its answer. -/
theorem witness_Committed : (oneStore (.mem 0x30010) true true).Unheld 0 ∧
    (let s := after (.remoteAccessRequest 1) (oneStore (.mem 0x30010) true true)
     (s.storeOf 1).map (fun e => e.2.committed) = some true ∧ s.heldLines = [⟨0xC00, 1, 0⟩] ∧ s.awaited 1 = true ∧
       (after (.globalAck 1) s).heldLines = [] ∧ bytesAt s 0x30010 8 = 0x1122334455667788) ∧
    ((oneStore (.mem 0x30010) true true).storeOf 1).map (fun e => e.2.committed) = some false ∧ base.awaited 9 = false := by
  unfold State.Unheld; decide +kernel

theorem test_store_performed : bytesAt (after (.storePerformed 0) (oneStore (.mem (spadKey 0 8)) false false)) (spadKey 0 8) 8
      = 0x1122334455667788 ∧
    bytesAt (after (.storePerformed 0) (oneStore (.mem 0x30010) false false)) 0x30010 8 = 0x1122334455667788 ∧
    (after (.storePerformed 0) (oneStore (.mem 0x30010) false false)).basinBytes 0x30010 8 = List.replicate 8 0 ∧
    ((after (.storePerformed 0) (oneStore (.mem 0x30010) true false)).me.buffer.map (·.sent)) = [true] ∧
    ((after (.storePerformed 0) (oneStore (.staging 0x30) false false)).me.staging.get (6 : Fin 8)) = 0x1122334455667788 := by decide +kernel

/-- A put of thread 0 that the NI has sent. -/
def onePut (va : Word) (a : Nat) (g : Bool) : State :=
  onMe (fun t => { t with puts := [⟨1, va, a, 8, 0x1122334455667788, g, .sent, 0⟩] }) { base with nextId := 5 }

/-- A dirty notice of thread 0. -/
def oneNotice (arrived : Bool) : State := { base with notices := [⟨2, 0x30010 / 64, 0, 0x30010, 1, arrived, 0, false⟩], nextId := 5 }

/-- A copy command of thread 0 whose write `w` of 8 bytes at `a` has left. -/
def oneWrite (va : Word) (a : Nat) : State :=
  { base with
    copies := [⟨9, 0, 0, true, 0, true, true, 8, 0, va, 4, true, 8, true, [], [], [], [], [⟨1, va, a, 8, 5, true, .sent, 0⟩], none⟩]
    nextId := 10 }

/-- WriteAcknowledgements: a global store that has left, a global put and one to host memory, an engine's write of each kind, a
notice that has arrived, of a put and of an engine's write, one that was sent 256 us ago, and a request's hold. -/
theorem witness_WriteAcknowledgements : ((oneStore (.mem 0x30010) true true).storeOf 1).isSome = true ∧
    (onePut (BitVec.ofNat 64 (2^51)) (2^36) true).storeOf 1 = none ∧ ((onePut (BitVec.ofNat 64 (2^51)) (2^36) true).putOf 1).isSome = true ∧
    (Put.path ⟨1, BitVec.ofNat 64 (2^51), 2^36, 8, 0, true, .sent, 0⟩) = .global ∧
    (onePut (BitVec.ofNat 64 (2^51)) (2^36) true).forwardAhead 0 1 (2^36) 8 = false ∧
    (Put.path ⟨1, BitVec.ofNat 64 (8 * 2^51), 2^51, 8, 0, true, .sent, 0⟩) = .outside ∧
    (oneWrite (BitVec.ofNat 64 (2^51)) (2^36)).storeOf 1 = none ∧ (oneWrite (BitVec.ofNat 64 (2^51)) (2^36)).putOf 1 = none ∧
    ((oneWrite (BitVec.ofNat 64 (2^51)) (2^36)).unitOf 1).isSome = true ∧
    (oneWrite (BitVec.ofNat 64 (2^51)) (2^36)).forwardAhead 0 1 (2^36) 8 = false ∧
    ((oneNotice true).notices.find? (fun m => m.id == 2)).isSome = true ∧ (oneNotice true).unitOf 1 = none ∧
    (({ oneWrite 0 0x30010 with notices := (oneNotice true).notices } : State).unitOf 1).isSome = true ∧
    ({ oneNotice false with now := 256000 } : State).storeOf 2 = none ∧
    Sparse.find? base.requests 2 = none := by decide +kernel

theorem test_acknowledgements : bytesAt (after (.globalAck 1) (oneStore (.mem 0x30010) true true)) 0x30010 8 = 0x1122334455667788 ∧
    (after (.globalAck 1) (oneStore (.mem 0x30010) true true)).me.buffer = [] ∧
    bytesAt (after (.hostFabricAcknowledgement 1) (onePut (BitVec.ofNat 64 (8 * 2^51)) (2^51) false)) (2^51) 8 = 0x1122334455667788 ∧
    (after (.dirtyNoticeArrival 2) (oneNotice false)).noticed = [0xC00] ∧ (after (.dirtyNoticeAck 2) (oneNotice true)).notices = [] ∧
    (after (.ackTimeout 2 true) ({ oneNotice false with now := 256000 } : State)).me.pending = [⟨.acklost, 0x30010, 0, .none⟩] ∧
    (after (.basinHoldRelease 9) { base with heldLines := [⟨3, 9, 0⟩, ⟨4, 8, 0⟩], now := 256000 }).heldLines = [⟨4, 8, 0⟩] ∧
    (after (.basinHoldRelease 9) { base with heldLines := [⟨3, 9, 0⟩], now := 255999 }).heldLines = [⟨3, 9, 0⟩] ∧
    bytesAt (after (.globalAck 1) (oneWrite (BitVec.ofNat 64 (2^51)) (2^36))) (2^36) 8 = 5 := by decide +kernel

/-! Atomics, GETR and PUTR. -/

/-- The own scratchpad's first double holds 5. -/
def five : State := withRegs [(1, sp 0), (2, 7), (3, 5)] { base with mem := Memory.writeBytes base.mem (spadKey 0 0) [5] }

theorem test_atomics : bytesAt (after (.amoAdd 3 1 2 .d false) five) (spadKey 0 0) 8 = 12 ∧ (after (.amoAdd 4 1 2 .d false) five).x 4 = 5 ∧
    bytesAt (after (.amoCas 3 1 2 .d false) five) (spadKey 0 0) 8 = 7 ∧ bytesAt (after (.amoMax 4 1 2 .w false) five) (spadKey 0 0) 4 = 7 ∧
    bytesAt (after (.amoXor 4 1 2 .w false) five) (spadKey 0 0) 4 = 2 ∧ (after (.getr 4 1 .d) five).x 4 = 5 := by decide +kernel

/-- AtomicsInScratchpad and GetrPutr: an aligned double of the own scratchpad with nothing under way; a put to HBM of
another die. -/
theorem witness_Atomics : five.me.reply = none ∧ reaches five .amo (five.x 1) 8 (spadKey 0 0) = true ∧ five.me.buffer = [] ∧
    five.overlapBusy five.cur (spadKey 0 0) 8 = false ∧ five.putOverlap five.cur (spadKey 0 0) 8 = false ∧ five.poisoned (spadKey 0 0) 8 = false ∧
    five.ownWatch (five.asWatched .amo) (five.x 1) 8 = none ∧ five.watchers = [] ∧ reaches five .getr (five.x 1) 8 (spadKey 0 0) = true ∧
    five.ownWatch (five.asWatched .getr) (five.x 1) 8 = none ∧ reachesAt five .putr (five.x 1) 8 (spadKey 0 0) = true ∧
    five.vectorOverlap five.cur (spadKey 0 0) 8 = false ∧ five.me.puts.length < 32 ∧
    five.ownWatch (five.asWatched .putr) (five.x 1) 8 = none ∧ (foundState five .putr (five.x 1) 8).watchers = [] := by decide +kernel

/-- RequestsLeave and its responses: an atomic, of a float form too, and a GETR to a home address. -/
theorem witness_RequestsLeave : reachesAt (withRegs [(1, 0x30010)] base) .amo 0x30010 8 0x30010 = true ∧
    reachesAt (withRegs [(1, 0x30010)] base) .getr 0x30010 8 0x30010 = true ∧ base.overlapBusy base.cur 0x30010 8 = false ∧
    (foundState base .amo 0x30010 8).watchers = [] ∧ base.lineBlocked base.cur (0x30010 / 64) true = false ∧
    base.putOverlap base.cur 0x30010 8 = false ∧ (Space.home 8).integerOnly = true ∧ (Space.home 0).integerOnly = false ∧
    reachesAt (withRegs [(1, 0x30010)] base) .amo 0x30010 4 0x30010 = true ∧
    base.ownWatch (base.asWatched .amo) 0x30010 8 = none ∧ base.ownWatch (base.asWatched .getr) 0x30010 8 = none ∧
    (onMe (fun t => { t with reply := some (.value 9) }) base).me.reply = some (.value 9) := by decide +kernel

theorem test_requests : ((after (.amoAdd 3 1 2 .d false) (withRegs [(1, 0x30010)] base)).requests.map (fun e => e.2.stage)) = [.sent] ∧
    (after (.getr 3 1 .d) (onMe (fun t => { t with reply := some (.value 9) }) base)).x 3 = 9 ∧
    ((after (.putr 1 2 .d false) five).me.puts.map (·.data)) = [7] := by decide +kernel

/-- One request for 0x30010, an addition of 4. -/
def oneRequest (st : Stage) (rank : Option Nat) (resends : Nat) : Request :=
  ⟨3, 0, 0x30010, 0x30010, 8, some .add, false, 4, 0, false, 1, .slice 0 0, rank, st, resends, 0, 0, 0⟩

/-- The state with a request. -/
def requesting (r : Request) : State := { base with requests := [(3, r)], nextId := 5 }

/-- The route of node 5 in optical die 0: fibre 0, wavelength 0. -/
def routed : State := { base with routes := [(5, ⟨1, 1 :: List.replicate 15 0⟩)] }

/-- RequestsAreServed: a fresh number, a stored one, one that is older than the window, a GETR, an answer on its way, a request
to rank space whose packet has been ejected, and a request to another die that was sent 200 us ago, below and at the fourth
resend. -/
theorem witness_RequestsAreServed : (requesting (oneRequest .sent none 0)).lineHeldFor 3 0x30010 8 = false ∧
    (requesting (oneRequest .sent none 0)).atomicHeldBack (oneRequest .sent none 0) = false ∧
    (requesting (oneRequest .sent none 0)).poisoned 0x30010 8 = false ∧ (requesting (oneRequest .sent none 0)).pageAt 0x30010 = none ∧
    (requesting (oneRequest .sent none 0)).lookup (.slice 0 0) 0 1 false 0 0 = .fresh ∧
    ({ requesting (oneRequest .sent none 0) with windows := [⟨.slice 0 0, 0, 1, 42, 0⟩] } : State).lookup (.slice 0 0) 0 1 true 0 0 = .stored 42 ∧
    ({ requesting (oneRequest .sent none 0) with windows := [⟨.slice 0 0, 0, 1, 42, 0⟩] } : State).lookup (.slice 0 0) 0 1 false 0 0 = .fresh ∧
    ({ requesting (oneRequest .sent none 0) with windows := [⟨.slice 0 0, 0, 1, 42, 0⟩], now := 1000000 } : State).lookup (.slice 0 0) 0 1 true 0 0
      = .expired ∧
    ({ requesting (oneRequest .sent (some 0) 0) with
        packets := [⟨7, .request 3, 0, 0, 0, 0, 5, false, false, false, true, false, false, 0, 0⟩] } : State).ejected (.request 3) = true ∧
    ({ oneRequest .sent none 0 with agent := .basin } : Request).offDie = true ∧
    (requesting (oneRequest .sent none 0)).Unheld 0 ∧ nodeOf (oneRequest .sent none 0).a = none ∧
    nodeOf (9 * 2^48 + 5 * 2^36) = some 5 ∧ base.nodeReached 5 = false ∧ routed.nodeReached 5 = true := by
  unfold State.Unheld; decide +kernel

theorem test_requests_are_served : bytesAt (after (.remoteAccessRequest 3) (requesting (oneRequest .sent none 0))) 0x30010 8 = 4 ∧
    ((after (.remoteAccessRequest 3) (requesting (oneRequest .sent none 0))).requests.map (fun e => e.2.stage)) = [.executed 0] ∧
    ((after (.remoteAccessRequest 3) { requesting (oneRequest .sent none 1) with windows := [⟨.slice 0 0, 0, 1, 42, 0⟩] }).requests.map
      (fun e => e.2.stage)) = [.executed 42] ∧
    (after (.remoteResponse 3) (requesting (oneRequest (.executed 6) none 0))).me.reply = some (.value 6) ∧
    ((after (.requestResend 3) { requesting { oneRequest .sent none 0 with agent := .basin } with now := 200000 }).requests.map
      (fun e => e.2.resends)) = [1] ∧
    (after (.requestResend 3) { requesting { oneRequest .sent none 4 with agent := .basin } with now := 200000 }).me.reply
      = some (.retryexp 0x30010 1) := by decide +kernel

/-- FabricAccess: an access of a window with no held line. -/
theorem witness_FabricAccess : base.lineHeld 0x40 8 = none ∧ (List.replicate 8 (1 : Byte)).length = 8 ∧
    ({ base with noticed := [1] } : State).lineHeld 0x40 8 = none := by decide +kernel

theorem base_unheld (p : Nat) : base.Unheld p := by
  show (Sparse.get (Sparse.set [] 0 (base.part 0)) p Partition.reset).spore.pages = []
  rw [Sparse.get_set]
  split
  · decide +kernel
  · rfl

theorem test_fabric : bytesAt (after (.fabricDeviceAccess true 0 0x40 2 [1, 2]) base) 0x40 2 = 0x201 ∧
    (after (.fabricDeviceAccess false 0 0x20000 2 []) base).hostReply = some [0, 0] ∧
    (after (.opticalLaneLoss 5) routed).failedLanes = [0] ∧ (after (.opticalLaneLoss 5) routed).nodeReached 5 = false ∧
    (after (.opticalLaneLoss 5) base).failedLanes = [] := by decide +kernel

/-! Copies, messages, the ends of waits. -/

/-- Partition 0 with core 1 beside core 0 at rank 1. -/
def twoCores : State := ({ base with tags := Sparse.set base.tags 1 0, nextId := 5 }).modPart 0
  (fun q => { q with cores := [0, 1], ranks := [(0, .valid 0), (1, .valid 1)] })

/-- A scratchpad address of the core with rank r. -/
def rankAddr (r off : Nat) : Word := BitVec.ofNat 64 (2^63 + r * 2^51 + off)

/-- Thread 0's PUT of n bytes from offset 0 to offset 0 of rank 1, as the engine has it. -/
def onePutCopy (n : Nat) (running : Bool) : Copy := 
  ⟨9, 0, 0, true, 0, true, false, n, sp 0, rankAddr 1 0, 4, running, 0, running, [], [], [], [], [], none⟩

/-- twoCores with a copy command and bytes to move. -/
def copying (running : Bool) : State :=
  { twoCores with copies := [onePutCopy 8 running], mem := Memory.writeBytes twoCores.mem (spadKey 0 0) [1, 2, 3, 4, 5, 6, 7, 8] }

/-- CopyCommands and CopyMovesBytes: a command of no bytes and of 8 bytes; a free engine with one waiting command, a busy die and
one without budget; a refill that is due; a FIFO with and without an entry, with one reserved. -/
theorem witness_Copies : localError (dieOf twoCores.here) (sp 0) 8 = none ∧ twoCores.remoteOk (rankAddr 1 0) 8 = true ∧
    twoCores.me.fifoFull = false ∧ copyScope 8 (sp 0) (rankAddr 1 0) = .pkg ∧ copyScope 0 0 0 = .pkg ∧
    twoCores.released twoCores.cur .pkg true = true ∧ ((copying false).copies.filter (fun c => c.die == 0 && c.running)).length < 8 ∧
    (copying false).hasBudget 0 0 = true ∧ ((copying false).modPart 0 (fun q => { q with refill := 3 })).hasBudget 0 0 = false ∧
    8 ≤ (({ copying true with copies := List.replicate 8 (onePutCopy 8 true) } : State).copies.filter (fun c => c.die == 0 && c.running)).length ∧
    ((copying false).part 0).refill = 0 ∧ base.partExists 0 = true ∧
    Sparse.get (({ base with now := 100000 } : State).part 0).refilled 0 0 + 100000 ≤ 100000 ∧
    (copying true).Unheld 0 ∧ (onePutCopy 8 true).early = [] ∧ (onePutCopy 8 true).written = [] ∧
    ({ base with now := 250000 } : State).refillPeriods 0 0 = 2 ∧
    (copying true).copies.find? (fun x => x.id == 9 && x.running) = some (onePutCopy 8 true) ∧
    (onePutCopy 8 true).writes = [] ∧ (onePutCopy 8 true).lost = none ∧ (copying true).away 0 1 = false ∧ (copying true).away 0 0 = false ∧
    classify (onePutCopy 8 true).loc = .spad 0 ∧ classify (onePutCopy 8 true).rem = .rank 1 0 ∧
    Sparse.get ((copying true).part 0).ranks 1 .invalid = .valid 1 ∧ (copying true).tagOf 1 = 0 ∧ (copying true).tagOf (coreOf 0) = 0 ∧
    (copying true).poisoned (spadKey 0 0) 8 = false ∧ (copying true).watchers = [] ∧ base.me.fifo = [] ∧
    (onMe (fun t => { t with reserved := 1 }) base).me.reserved ≠ 0 := by
  unfold State.Unheld; decide +kernel

theorem test_copies : (after (.put 3 1 2 true) (withRegs [(1, sp 0), (2, rankAddr 1 0), (3, 8)] twoCores)).copies.length = 1 ∧
    (after (.put 3 1 2 true) (withRegs [(1, sp 0), (2, rankAddr 1 0), (3, 8)] twoCores)).x 3 = 0 ∧
    ((after (.copyCommandStart 0) (copying false)).copies.map (·.running)) = [true] ∧
    bytesAt (after (.copyComplete 9) (copying true)) (spadKey 1 0) 8 = 0x0807060504030201 ∧
    (after (.copyComplete 9) (copying true)).me.fifo = [⟨0x0000000800010004, 0⟩] ∧
    ((after (.copyBudgetRefill 0 0) ({ base with now := 100000 }.modPart 0 (fun q => { q with refill := 3 }))).part 0).budget = [(0, 3)] ∧
    ((after (.copyBudgetRefill 0 0) ({ base with now := 99999 }.modPart 0 (fun q => { q with refill := 3 }))).part 0).budget = [] := by decide +kernel

theorem test_cpop : (after (.cpop 3 1) (withRegs [(1, sp 0)] base)).x 3 = 0xFFFFFFFFFFFFFFFF ∧
    (after (.cpop 3 1) (onMe (fun t => { t with fifo := [⟨0x0000000800010004, 0⟩] }) (withRegs [(1, sp 0)] base))).x 3 = 4 ∧
    (after .cwait (onMe (fun t => { t with reserved := 1 }) base)).me.status = .blocked .completion 0 := by decide +kernel

/-- A message of thread 0 of 56 bytes. -/
def oneMessage : Message := ⟨0x10000, List.replicate 56 3, 0⟩

/-- A packet of thread 0 to rank 1. -/
def onePacket (c : Cargo) (ejected : Bool) : Packet := 
  ⟨7, c, 0, 1, 1, 0, 5, true, false, false, ejected, false, false, 0, 0⟩

/-- twoCores with a packet. -/
def sending (c : Cargo) (ejected : Bool) : State := { twoCores with packets := [onePacket c ejected] }

/-- core 0's channel 0 holds a message. -/
def received : State := base.modCore 0 (fun k => k.modChannel 0 (fun c => { c with queue := [oneMessage] }))

/-- Channel 0 of core 1 changed. -/
def onChannel (f : Channel → Channel) : State := twoCores.modCore 1 (fun k => k.modChannel 0 f)

/-- Thread 0's partition with rank 1 IN TRANSIT from core 1. -/
def inTransit : State := twoCores.modPart 0 (fun q => { q with ranks := [(0, .valid 0), (1, .inTransit 1)] })

/-- Messages, the SEND: its lengths, its ranks, a free, a granted and no credit, a channel of a core that holds nothing of the
partition, and the communication phase with a row that it matches and without one. -/
theorem witness_Sends : classify (sp 0) = .spad 0 ∧ 0 + 56 ≤ 0xF8000 ∧ twoCores.rankEntry (twoCores.partOf twoCores.cur) 1 = .valid 1 ∧
    twoCores.rankEntry 0 2 = .invalid ∧ inTransit.rankEntry 0 1 = .inTransit 1 ∧ inTransit.holdFull 0 1 0 = false ∧
    ({ inTransit with packets := List.replicate 16 { onePacket (.wake 0) false with held := true } } : State).holdFull 0 1 0 = true ∧
    (twoCores.coreAt twoCores.here).comm = false ∧ twoCores.poisonedFor 0 (spadKey 0 0) 56 = false ∧
    twoCores.overlapBusy 0 (spadKey 0 0) 56 = false ∧ twoCores.vectorMemoryBusy 0 = false ∧ twoCores.me.inh = false ∧
    ((twoCores.channelFor 0 1 0).map (fun q => (q.granted, q.free, q.asking))) = some ([], 16, []) ∧
    (((onChannel (fun c => { c with granted := [0] })).channelFor 0 1 0).map (fun q => decide (0 ∈ q.granted))) = some true ∧
    (((onChannel (fun c => { c with promised := 16 })).channelFor 0 1 0).map (·.free)) = some 0 ∧
    ({ twoCores with tags := [(0, 0), (1, 5)] } : State).channelFor 0 1 0 = none ∧
    (Core.reset.counted 0) = false ∧ ({ Core.reset with comm := true } : Core).matchRow 1 0 8 = none ∧
    ({ Core.reset with comm := true, rows := [⟨0, 100, 1, 0, 64, 0⟩] } : Core).matchRow 1 0 8 = some 0 ∧
    (twoCores.modCore 0 (fun k => { k with comm := true })).mayLeave 1 0 = false := by decide +kernel

/-- Messages, the rest: a message in the queue, claimed, and none; packets that wait, are ejected, join a spill ring or are
dropped; a message and a wake that arrive; credits that a send or a held message asked for. -/
theorem witness_Messages : (received.channel 0 0).queue = [oneMessage] ∧ (received.channel 0 0).claimed = [] ∧ oneMessage.payload.length = 56 ∧
    received.overlapBusy 0 (spadKey 0 0) 64 = false ∧
    (sending (.wake 0) false).packetOf 7 = some (onePacket (.wake 0) false) ∧ (sending (.wake 0) false).packetSent (onePacket (.wake 0) false) = true ∧
    (sending (.wake 0) false).behindEarlier (onePacket (.wake 0) false) = false ∧
    (sending (.wake 0) false).behindRing (onePacket (.wake 0) false) = false ∧ (sending (.wake 0) false).asks (onePacket (.wake 0) false) = false ∧
    ({ sending (.wake 0) false with tags := [(0, 0), (1, 5)] } : State).tagOf 1 ≠ 0 ∧ (sending (.wake 0) false).savedFor 0 1 = none ∧
    (sending (.wake 0) false).sentHere (onePacket (.wake 0) false) = true ∧ (sending (.wake 0) false).away 0 0 = false ∧
    (({ sending (.wake 0) false with saved := [⟨0, ⟨1, Core.reset, [], [], []⟩, [], [], []⟩] } : State).savedFor 0 1).isSome = true ∧
    (sending (.message 0 oneMessage) true).reaches (onePacket (.message 0 oneMessage) true) = true ∧
    (sending (.message 0 oneMessage) true).heldForCut (onePacket (.message 0 oneMessage) true) = false ∧
    ((sending (.message 0 oneMessage) true).part 0).spore.state = .idle ∧
    ((sending (.message 0 oneMessage) true).channel 1 0).waiting = [] ∧
    (sending (.wake 0) true).reaches (onePacket (.wake 0) true) = true ∧
    (((sending (.wake 0) true).modThread 4 (fun t => { t with status := .ready })).thread 4).status = .ready ∧
    ((onChannel (fun c => { c with asking := [.thread 3] })).channel 1 0).asking = [.thread 3] ∧
    ((onChannel (fun c => { c with asking := [.thread 3] })).channel 1 0).free = 16 ∧
    ((onChannel (fun c => { c with promised := 16 })).channel 1 0).free = 0 ∧ (base.coreAt 0).comm = false := by decide +kernel

theorem test_messages : ((after (.send 2 1 0) (withRegs [(1, 0x80001), (2, sp 0)] twoCores)).packets.map (fun k => k.rank)) = [1] ∧
    ((after (.send 2 1 0) (withRegs [(1, 0x80001), (2, sp 0)] twoCores)).channel 1 0).promised = 1 ∧
    (after (.recv 3 1 0) (withRegs [(1, sp 0)] received)).x 3 = 0x10000 ∧
    bytesAt (after (.recv 3 1 0) (withRegs [(1, sp 0)] received)) (spadKey 0 8) 2 = 0x303 ∧
    (after (.rpoll 3 1 0) (withRegs [(1, sp 0), (3, 9)] base)).x 3 = 0 ∧
    ((after (.packetEjection 7) (sending (.wake 0) false)).packets.map (·.ejected)) = [true] ∧
    ((after (.packetEjection 7) { sending (.wake 0) false with tags := [(0, 0), (1, 5)] }).me.pending) = [⟨.tag, 0, 1, .none⟩] ∧
    ((after (.messageArrival 7) (sending (.message 0 oneMessage) true)).channel 1 0).queue = [oneMessage] ∧
    ((after (.wakeDelivery 7) ((sending (.wake 0) true).modThread 4 (fun t => { t with status := .ready }))).thread 4).wake = true ∧
    ((after (.creditGrant 1 0) ((onChannel (fun c => { c with asking := [.thread 3] })).modThread 3 (fun t =>
      { t with status := .blocked (.credit 1 0 1 8 none) 0 }))).channel 1 0).granted = [3] := by decide +kernel

/-- A SEND without a credit asks for one and waits; a second one past its row's bytes raises SLOT in the communication phase. -/
theorem test_send_waits : (after (.send 2 1 0) (withRegs [(1, 0x80001), (2, sp 0)] (onChannel (fun c => { c with promised := 16 })))).me.status
      = .blocked (.credit 1 0 1 8 none) 0 ∧
    ((after (.send 2 1 0) (withRegs [(1, 0x80001), (2, sp 0)] (onChannel (fun c => { c with promised := 16 })))).channel 1 0).asking
      = [.thread 0] ∧
    (trapOf (.send 2 1 0) ((withRegs [(1, 0x80001), (2, sp 0)] twoCores).modCore 0 (fun k =>
      { k with comm := true, rows := [⟨0, 100, 1, 0, 15, 8⟩] }))).2.1 = 0x80001 ∧
    ((after (.send 2 1 0) ((withRegs [(1, 0x80001), (2, sp 0)] twoCores).modCore 0 (fun k =>
      { k with comm := true, rows := [⟨0, 100, 1, 0, 16, 8⟩] }))).coreAt 0).rows.map (·.sent) = [16] ∧
    ((after (.send 2 1 0) (withRegs [(1, 0x80001), (2, sp 0)] inTransit)).packets.map (·.held)) = [true] := by decide +kernel

/-- Thread 0 waits. -/
def waiting (w : Wait) : State := onMe (fun t => { t with status := .blocked w 0 }) base

/-- A sluice entry of thread 0 for 2 units. -/
def sluicing (assisted : Bool) : State :=
  { (waiting .reservation).modPart 0 (fun q => { q with pcap := 8 }) with
    sluice := [⟨0, 0, 2, false, true, 0, 0, assisted⟩], modes := if assisted then 8 else 0 }

/-- A SEND of thread 0 that waits for a credit of core 1 in the communication phase, and whose row's window has closed, though
another row's is open. -/
def closing : State := (onMe (fun t => { t with status := .blocked (.credit 1 0 1 8 (some 0)) 0 })
  (onChannel (fun c => { c with asking := [.thread 0] }))).modCore 0 (fun k => { k with
    comm := true, cycle := k.phaseStart + 200, rows := [⟨0, 100, 1, 0, 64, 0⟩, ⟨150, 300, 1, 0, 64, 0⟩] })

/-- WaitsEnd: a sleep whose limit is the core's cycle, each of the other waits, a request that finds no room, and a READY thread
with one pending cause. -/
theorem witness_WaitsEnd : 0 ≤ (base.coreAt (coreOf 0)).cycle ∧ base.pageHeld (base.partOf 0) 0x30000 = false ∧
    base.fillOf (base.partOf 0) ≤ 0 ∧ ((sluicing false).sluice.find? (fun x => x.thread == 0)).isSome = true ∧
    (sluicing false).grantFor ⟨0, 0, 2, false, true, 0, 0, false⟩ = 2 ∧ (sluicing false).monitorGrants 0 = false ∧
    (sluicing true).monitorGrants 0 = true ∧ (sluicing true).grantFor ⟨0, 0, 2, false, true, 0, 0, true⟩ = 2 ∧
    ((sluicing false).modPart 0 (fun q => { q with pcap := 0 })).grantFor ⟨0, 0, 2, false, true, 0, 0, false⟩ = 0 ∧
    (closing.coreAt (coreOf 0)).comm = true ∧ (closing.coreAt 0).counted 0 = false ∧ (closing.coreAt 0).matchRow 1 0 8 = some 1 ∧
    ((closing.coreAt 0).rows.map (fun w => w.inWindow 1 0 (closing.coreAt 0).phaseCyc)) = [false, true] ∧
    ((closing.channelFor (closing.partOf 0) 1 0).map (·.asking)) = some [.thread 0] := by decide +kernel

theorem witness_AsyncDelivery : base.me.status = .ready ∧ base.me.woke = none ∧ base.me.inh = false ∧
    (onMe (fun t => { t with pending := [⟨.acklost, 0x40, 0, .none⟩] }) base).me.pending = [⟨.acklost, 0x40, 0, .none⟩] ∧
    Cause.acklost.handled = true := by decide +kernel

theorem test_waits_end : (after (.tsleepTimeout 0) (waiting (.sleep (some 0)))).me.status = .ready ∧
    (after (.instructionFetchReturn 0) (waiting .fetch)).me.status = .ready ∧
    (after (.storeMissReturn 0) (waiting (.storeMiss 0x30000))).me.status = .ready ∧
    (after (.hostWalkReply 0) (waiting (.walk 0x30000))).me.permits = [0x30000] ∧
    (after (.rwaitRelease 0) (waiting (.fill 0))).me.status = .ready ∧
    (after (.reservationGrant 0) (sluicing false)).me.reply = some (.value 2) ∧
    (after (.monitorSluiceGrant 0) (sluicing true)).me.reply = some (.value 2) ∧
    (after (.slotWindowClose 0) closing).me.status = .ready := by decide +kernel

theorem test_async : (after (.asyncTrapDelivery 0) (onMe (fun t => { t with pending := [⟨.acklost, 0x40, 0, .none⟩] }) base)).me.tcause = 8 ∧
    (after (.asyncTrapDelivery 0) (onMe (fun t => { t with pending := [⟨.acklost, 0x40, 0, .none⟩] }) base)).me.tepc = 0x30004 := by decide +kernel

/-- A closed launch of n indexes with one core, of which k have been handed out. -/
def halting (k n : Nat) : Launch :=
  { launchOf 4 0 0 [1, 0x30000, 0, 0, BitVec.ofNat 64 n] with
    closed := true, leader := some 0, counter := k, block := (k, k), members := [0] }

/-- An MXU command of thread 0 that has headed its queue for too long. -/
def late : State := { base.modCore 0 (fun k => { k with
  mxqueue := [⟨6, false, false, 0, 0, 0, 0, 0, 0, 0, 1, 0, 0, 0, 0, 12, 0, 0, 0, false, 0, 0, 0, false, 0, false, 0⟩] }) with
    now := (2 * 1000000 + 10000) * 1000 + 1 }

/-- HaltCompletes: a thread that is done, one with a store still buffered, a launch with an index left, with none and with its
last; for WATCHDOG and UE, an entry that waits for the SFU, an MXU command that is too old, and a FREE thread. -/
theorem witness_HaltCompletes : (waiting .halt).haltReady 0 = true ∧ (waiting .halt).me.pending = [] ∧ (waiting .halt).me.launch = none ∧
    ({ storing 1 with cur := 0 } : State).haltReady 0 = false ∧ (base.thread 9).status = .free ∧ base.waitExpired 0 = false ∧
    base.expires 0 = false ∧ (halting 0 5).takeIndex.isSome = true ∧ (halting 5 5).takeIndex = none ∧
    (halting 0 5).halted + 1 + (halting 0 5).abandoned.length ≠ (halting 0 5).count ∧
    ({ halting 5 5 with halted := 4 } : Launch).halted + 1 + (halting 5 5).abandoned.length = (halting 5 5).count ∧
    base.captureHolds (halting 5 5) = false ∧ base.storesOut (halting 5 5) = false ∧ base.away 0 0 = false ∧
    (late.coreAt 0).mxqueue.map (·.thread) = [0] ∧ late.waitExpired 0 = false ∧ late.entryExpired 0 = false := by decide +kernel

theorem test_halt : (after (.haltComplete 0) (waiting .halt)).me.status = .free ∧
    ((after (.linkRetryFail 9 0x40) base).thread 9).pending = [⟨.ue, 0x40, 0, .link⟩] ∧ (after .halt base).me.status = .blocked .halt 0 := by decide +kernel

/-! Barriers, the Weir, flumes, the reservoir. -/

/-- Domain 0 of die 0: level 2, or 3 at Weir barrier 0 of partition 0, thread 0 of core 0 its only member, generation 3. -/
def domain0 (level : Nat) (arrived : List Nat) : Domain := ⟨level, 1, 0, 1, 1, some 0, none, 3, 3, arrived, [], []⟩

/-- base with domain 0. -/
def barring (level : Nat) (arrived : List Nat) : State :=
  { base with domains := [(0, domain0 level arrived)], weirBars := [(0, ⟨2, 0, 0⟩)] }

/-- A package domain that thread 0 has left for generation 4 before its generation 3 has advanced, with early arrivals. -/
def early (l : List (Nat × Nat)) : State :=
  { barring 3 [] with domains := [(0, { domain0 3 [] with left := [(0, 4)], early := l })], weirBars := [(0, ⟨2, 2, 3⟩)] }

/-- Barriers: a member that has not arrived, in a die and in a package domain below its barrier's count; one that its
generation has resumed; one that has arrived; a thread that is no member; a generation that can complete and one that cannot;
STEP at the launch's step domain. -/
theorem witness_Barriers : (domain0 2 []).member 0 = true ∧ (barring 2 []).me.woke = none ∧
    (barring 2 []).released 0 (domain0 2 []).scope true = true ∧ (barring 3 []).released 0 (domain0 3 []).scope true = true ∧
    (domain0 3 []).gen ≤ (domain0 3 []).nextOf 0 ∧ ((barring 3 []).weirBar ((barring 3 []).weirOf (domain0 3 []))).arrived
      < ((barring 3 []).weirBar ((barring 3 []).weirOf (domain0 3 []))).count ∧
    (onMe (fun t => { t with woke := some (.barrier 0 2) }) (barring 2 [])).me.woke = some (.barrier 0 2) ∧
    (domain0 0 []).member 0 = false ∧ (barring 0 []).wokeFromBarrier 0 = none ∧ 0 ∈ (domain0 2 [0]).arrived ∧ (barring 2 [0]).generationReady 0 = true ∧
    (barring 2 []).generationReady 0 = false ∧ ((barring 2 [0]).domain 0).level ≠ 3 ∧ base.stepDomain 0 = none ∧
    ({ barring 3 [0] with weirBars := [(0, ⟨1, 1, 0⟩)] } : State).generationReady 0 = true ∧
    (({ barring 3 [0] with weirBars := [(0, ⟨1, 1, 0⟩)] } : State).completing 0).Nodup ∧
    ({ domain0 3 [] with left := [(0, 4)] } : Domain).nextOf 0 = 4 ∧ (early []).earlyArrivals (some 0) 0 4 = 0 ∧
    (early [(4, 1), (4, 2)]).earlyArrivals (some 0) 0 4 = 2 ∧ ((early []).weirBar 0).count = 2 ∧
    (domain0 3 []).nextOf 0 = 3 ∧ ({ domain0 3 [] with gen := 4, left := [(0, 3)] } : Domain).nextOf 0 = 3 := by decide +kernel

theorem test_barriers : (after (.bar 0) (barring 2 [])).me.status = .blocked (.barrier 0 3) 0 ∧
    ((after (.bar 0) (barring 3 [])).weirBar 0).arrived = 1 ∧ ((after (.generationComplete 0 0) (barring 2 [0])).domain 0).gen = 4 ∧
    ((after (.bar 0) (onMe (fun t => { t with woke := some (.barrier 0 2) }) (barring 2 []))).domain 0).left = [(0, 3)] ∧
    ((after (.bar 0) (early [])).domain 0).early = [(4, 0)] ∧ ((after (.bar 0) (early [])).domain 0).arrived = [] ∧
    trapOf (.bar 0) (early [(4, 1), (4, 2)]) = (0xF, 0, 0) ∧ trapOf (.bar 0) base = (0xD, 0, 0) ∧ trapOf (.bar 0) (barring 2 [0]) = (0xE, 0, 0) := by decide +kernel

/-- Partition 0 with 4 counters from 8, 2 semaphores from 3, 1 barrier. -/
def weiring : State := { base.modPart 0 (fun q => { q with counters := (8, 4), semaphores := (3, 2), barriers := (0, 1) }) with
  counters := [(11, 5)], sems := [(4, ⟨1, [], []⟩), (3, ⟨0, [9], []⟩)] }

/-- WeirAndDomainWords: the highest index of each allotment and the first one above it; a fresh number; a unit and none; a
waiter; an image of 64 zero bytes at the end of the scratchpad's open part. -/
theorem witness_Weir : (withRegs [(1, 3)] weiring).lookup .weir 0 0 false 0 0 = .fresh ∧
    ({ weiring with windows := [⟨.weir, 0, 0, 7, 0⟩] } : State).lookup .weir weiring.cur weiring.me.reqno false
      (onMe (fun t => { t with again := 1 }) weiring).me.again weiring.now = .stored 7 ∧ weiring.released 0 .pkg true = true ∧
    3 < (weiring.part 0).counters.2 ∧ (weiring.part 0).counters.2 ≤ 4 ∧ 1 < (weiring.part 0).semaphores.2 ∧ 0 < (weiring.sem 4).value ∧
    (weiring.sem 3).value = 0 ∧ (weiring.sem 3).waiting = [9] ∧ (weiring.sem 4).waiting = [] ∧ (weiring.sem 4).value < 2^32 - 1 ∧
    (({ weiring with sems := [(4, ⟨2^32 - 1, [], []⟩)] } : State).sem 4).value = 2^32 - 1 ∧ 0 ∉ (weiring.sem 4).granted ∧ 0 ∉ (weiring.sem 3).waiting ∧ classify (sp 0xF7FC0) = .spad 0xF7FC0 ∧ 0xF7FC0 + 64 ≤ 0xF8000 ∧
    (sp 0xF7FC0).toNat % 8 = 0 ∧ base.poisonedFor 0 (spadKey 0 0xF7FC0) 64 = false ∧ base.overlapBusy 0 (spadKey 0 0xF7FC0) 64 = false ∧
    base.memberWaits 0 = false ∧ (barring 2 [0]).memberWaits 0 = true ∧
    imageOk 0 (3 :: List.replicate 63 0) = false ∧ imageOk (base.part 0).barriers.2 (Memory.readBytes base.mem (spadKey 0 0xF7FC0) 64) = true ∧
    app.me.inh = false := by decide +kernel

theorem test_weir : (after (.weirCadd 3 1 2) (withRegs [(1, 3), (2, 2)] weiring)).x 3 = 5 ∧
    (after (.weirCadd 3 1 2) (withRegs [(1, 3), (2, 2)] weiring)).counter 11 = 7 ∧
    (after (.weirCswap 3 1 2) (withRegs [(1, 3), (2, 2), (3, 5)] weiring)).counter 11 = 2 ∧
    (after (.weirCread 3 1) (withRegs [(1, 3)] weiring)).x 3 = 5 ∧ trapOf (.weirCread 3 1) (withRegs [(1, 4)] weiring) = (5, 4, 0) ∧
    ((after (.weirSwait 1) (withRegs [(1, 1)] weiring)).sem 4).value = 0 ∧
    (after (.weirSwait 1) (withRegs [(1, 0)] weiring)).me.status = .blocked (.semaphore 3) 0 ∧
    ((after (.weirSpost 1) (withRegs [(1, 0)] weiring)).sem 3).granted = [9] ∧ (after (.weirStry 3 1) (withRegs [(1, 1)] weiring)).x 3 = 1 := by
  decide +kernel

theorem test_bdom : (after (.bdom 3 1 0) (barring 2 [0])).x 3 = 0x0002000300000001 ∧
    trapOf (.bdom 3 1 0) (withRegs [(1, sp 0)] app) = (5, sp 0, 0) := by decide +kernel

/-- Core 0's flume 3: 4 slots of 64 bytes at 0x1000, two of them filled from slot 1 on. -/
def fluming : State := base.modCore 0 (fun k => { k with flumes := k.flumes.set 3 ⟨0x1000, 2, 64, 1, 3, 2, true, none⟩ })

/-- A good FCFG record at offset 0: base 0x1000, 2^12 slots of 8 bytes. -/
def configuring : State := { withRegs [(1, sp 0)] base with
  mem := Memory.writeBytes base.mem (spadKey 0 0) [0, 0x10, 0, 0, 12, 0, 8, 0] }

/-- Flumes: all of the filled and of the free slots, one more of each, an unconfigured flume, a record with the largest
number of slots. -/
theorem witness_Flumes : (fluming.flume 3).configured = true ∧ (base.flume 3).configured = false ∧ fluming.released 0 .core true = true ∧
    fluming.vectorMemoryBusy 0 = false ∧ 2 ≤ (fluming.flume 3).filled ∧ (fluming.flume 3).filled < 3 ∧ 3 ≤ 2^(fluming.flume 3).k ∧
    2 ≤ 2^(fluming.flume 3).k - (fluming.flume 3).filled ∧ configuring.poisonedFor 0 (spadKey 0 0) 16 = false ∧
    configuring.overlapBusy 0 (spadKey 0 0) 16 = false ∧ (configuring.coreAt 0).bound 3 = false ∧ (configuring.coreAt 0).mxqueue = [] ∧
    bytesAt configuring (spadKey 0 0) 4 = 0x1000 ∧ bytesAt configuring (spadKey 0 0 + 4) 1 = 12 ∧ bytesAt configuring (spadKey 0 0 + 6) 2 = 8 ∧
    bytesAt configuring (spadKey 0 0 + 8) 8 = 0 ∧ 0x1000 + 2^12 * 8 ≤ 0xF8000 := by decide +kernel

theorem test_flumes : (after (.frd 3 3) fluming).x 3 = 0x8002000200030001 ∧ (after (.fcfg 1 3) configuring).flume 3 = ⟨0x1000, 12, 8, 0, 0, 0, true, none⟩ ∧
    ((after (.fprod 1 3) (withRegs [(1, 2)] fluming)).flume 3).tail = 1 ∧ ((after (.fcons 1 3) (withRegs [(1, 2)] fluming)).flume 3).filled = 0 ∧
    (after (.fwaitf 1 3) (withRegs [(1, 3)] fluming)).me.status = .blocked (.filled 3 3) 0 ∧
    (after (.fwaite 1 3) (withRegs [(1, 2)] fluming)).me.status = .ready ∧ trapOf (.fprod 1 3) base = (0x10, 3, 0) ∧
    trapOf (.fwaitf 1 3) (withRegs [(1, 5)] fluming) = (0x10, 3, 5) ∧ trapOf (.fcons 1 3) (withRegs [(1, 3)] fluming) = (0x10, 3, 3) ∧
    trapOf (.fprod 1 3) (withRegs [(1, 3)] fluming) = (0x10, 3, 3) := by decide +kernel

/-- Partition 0 with a capacity of 8 units, 3 of them outstanding in thread 0. -/
def reserving : State := onMe (fun t => { t with resv := 3 })
  (base.modPart 0 (fun q => { q with pcap := 8, po := 3, pf := 0x8000, share := 0x10000 }))

/-- ReservoirAndPower: what fits, what does not, SPND of the whole reservation and of one unit more, metered mode, a fill at
and above RWAIT's bound, SPRINT with and without a reservation; the reserve's and the sluice's bounds; core-array domain 1. -/
theorem witness_Reservoir : reserving.me.reply = none ∧ reserving.partExists 0 = true ∧ reserving.sluiceAssisted = false ∧
    reserving.sluice = [] ∧ 8 ≤ (reserving.part 0).pcap ∧ reserving.available 0 = 4 ∧ reserving.me.met = false ∧ 3 ≤ reserving.me.resv ∧
    reserving.me.resv < 4 ∧ (onMe (fun t => { t with met := true }) base).me.met = true ∧ (reserving.coreAt 0).residue < 2^16 ∧
    (reserving.part 0).pf / 2^16 ≤ 0 ∧ 0 < ((reserving.modPart 0 (fun q => { q with pf := 0x10000 })).part 0).pf / 2^16 ∧
    (reserving.part 0).pf < (reserving.part 0).pcap * 2^16 ∧ base.me.resv = 0 ∧ base.me.inh = false ∧ coreArray 1 = true ∧
    (base.coreAt 0).level = 0 ∧ ((base.modCore 0 (fun k => { k with level := 1 })).coreAt 0).level ≠ 0 := by decide +kernel

theorem test_reservoir : (after (.rsv 3 1) (withRegs [(1, 4)] reserving)).x 3 = 4 ∧ (after (.rsv 3 1) (withRegs [(1, 5)] reserving)).x 3 = 0 ∧
    (after (.rsvP 3 1) (withRegs [(1, 5)] reserving)).me.resv = 7 ∧
    (after (.rsvWP 3 1) (withRegs [(1, 5)] reserving)).x 3 = 4 ∧
    (after (.rsvW 3 1) (withRegs [(1, 5)] reserving)).me.status = .blocked .reservation 0 ∧
    ((after (.spnd 1) (withRegs [(1, 3)] reserving)).part 0).pf = 0x38000 ∧ trapOf (.spnd 1) (withRegs [(1, 4)] reserving) = (0x12, 4, 3) ∧
    (after (.rrel 3) reserving).x 3 = 3 ∧ (after (.rfill 3) (reserving.modPart 0 (fun q => { q with pf := 0x20000 }))).x 3 = 2 ∧
    (after (.rwait 1) (reserving.modPart 0 (fun q => { q with pf := 0x20000 }))).me.status = .blocked (.fill 0) 0 ∧
    (after (.sprint 2) reserving).me.req = 2 ∧ trapOf (.sprint 2) base = (0x14, 2, 0) := by decide +kernel

/-- Core 0 is to rise to level 3, with its domain's regulator at v mV. -/
def rising (v : Nat) : State :=
  let s := base.modCore 0 (fun k => { k with level := 3 })
  { s with voltages := [(s.domainOf 0, v)] }

theorem test_power : (after .drainStep { reserving.modPart 0 (fun q => { q with rate := 0x3000 }) with fill := 9, drain := 10 }).fill = 0 ∧
    ((after .drainStep (reserving.modPart 0 (fun q => { q with rate := 0x3000 }))).part 0).pf = 0x5000 ∧
    ((after (.drainMeasure 0) reserving).part 0).rate = 0 ∧ (after .sluiceEvaluation { base with fill := 15 * 2^36 }).sluiceClosed = true ∧
    (after .sluiceEvaluation { base with fill := 7 * 2^37 - 1, sluiceClosed := true }).sluiceClosed = false ∧
    ((after (.levelSwitch 0) (rising 880)).coreAt 0).clock = 3 ∧ ((after (.levelSwitch 0) (rising 700)).coreAt 0).clock = 0 ∧
    (after (.levelSwitch 0) (rising 700)).voltage ((rising 700).domainOf 0) = 880 ∧
    (after (.voltageDroop 1) base).droop = [1] ∧ (after (.voltageRecovery 1) { base with droop := [1] }).droop = [] ∧
    (after (.currentLimit 46) base).limited = [46] ∧ (after (.currentLimitRelease 46) { base with limited := [46] }).limited = [] ∧
    (after .ptpInputLock base).ptpLocked = true ∧ (after .ptpInputLoss { base with ptpLocked := true }).errorCount = base.errorCount + 1 ∧
    ((after (.meterTick 0 9) (base.modCore 0 (fun k => { k with meterRate := 5 }))).coreAt 0).meterRate = 0 ∧
    (after (.powerLimitCut 3200000) base).errorCount = base.errorCount := by decide +kernel

theorem witness_telemetry : Sparse.find? ({ base with telemetry := [(0, (0x200000, 4))] } : State).telemetry 0 = some (0x200000, 4) ∧
    (3200000 : Nat) < 3200001 ∧ base.sprintSum < ((3200001 - 3200000) * 2^16 + 1999999) / 2000000 - base.cutNow ∧
    ((rising 700).coreAt 0).clock ≠ ((rising 700).coreAt 0).level ∧ (rising 700).voltage ((rising 700).domainOf 0) < 700 + 60 * 3 ∧
    700 + 60 * 3 ≤ (rising 880).voltage ((rising 880).domainOf 0) ∧ (base.coreAt 0).clock = (base.coreAt 0).level := by decide +kernel

/-! The vector unit and the MXU. -/

/-- An entry of thread 0 at the head of core 0's queue. -/
def item (i : Instr) (len : Nat) (xa xb : Word) (addrs : List Nat) (done : Bool) : VItem :=
  ⟨[⟨i, 0, len, xa, xb, addrs, [none, none, none, none], none, none, [], [], false⟩], false, 1, 0, false, done, false, 0, 2, 0, 0⟩

/-- n entries that are done in core 0's queue, and v1, v2 and v3 with lanes. -/
def vectoring (n : Nat) : State := base.modCore 0 (fun k => { k with
  vqueue := List.replicate n (item (.vbcast 1 2 false .w) 1 0 0 [] true)
  vregs := ((k.vregs.set 1 0x0000000240000000).set 2 0x000000013F800000).set 3 0xFF })

/-- Core 0's queue holds one entry. -/
def queued (q : VItem) : State := (vectoring 0).modCore 0 (fun k => { k with vqueue := [q] })

/-- v28 of core 0 bound to flume 3 with a bound of 2. -/
def bound : State := fluming.modCore 0 (fun k => { k with binds := k.binds.set 0 (some ⟨3, 2, 0, 0, none⟩) })

/-- HaltCompletes: an SFU entry at the head that the SFU has accepted, too old, while its thread runs. -/
theorem witness_EntryWait :
    ({ queued { item (.vrcp 1 2 false) 1 0 0 [] false with sent := true } with now := (2 * 1000000 + 10000) * 1000 + 1 } : State).streamOrSfuWait 0
      { item (.vrcp 1 2 false) 1 0 0 [] false with sent := true } = true ∧
    (item (.vrcp 1 2 false) 1 0 0 [] false).done = false ∧
    ({ queued { item (.vrcp 1 2 false) 1 0 0 [] false with sent := true } with now := (2 * 1000000 + 10000) * 1000 + 1 } : State).waitExpired 0
      = false := by decide +kernel

/-- VectorWordsQueue, VectorMemoryWords, VectorControl: room for one entry and none, no binding and one; elements at the last
aligned place of the scratchpad's open part and past it; a writer queued before and none. -/
theorem witness_VectorWords : (Instr.vrcp 1 2 false).vshape.isSome = true ∧ (Instr.vrcp 1 2 false).vectorMemory = none ∧
    ((vectoring 15).coreAt 0).vqueue.length < 16 ∧ 16 ≤ ((vectoring 16).coreAt 0).vqueue.length ∧
    bindOf base.bindsNow.toList 28 = none ∧ (bindOf bound.bindsNow.toList 28).isSome = true ∧
    lengthInForce base.vlNow base.bindsNow.toList [1] = 32 ∧ classify (sp 0xF7FFC) = .spad 0xF7FFC ∧ 0xF7FFC + 4 ≤ 0xF8000 ∧
    (sp 0xF7FFC).toNat % 4 = 0 ∧ base.ownWatch ⟨0, false, true, false, true⟩ (sp 0xF7FFC) 4 = none ∧ (classify (sp 0xF8000) = .refused ∧ isRankForm (sp 0xF8000) = false) ∧
    isRankForm (rankAddr 1 0xF8000) = true ∧
    classify (sp 2) = .spad 2 ∧ (sp 2).toNat % 4 ≠ 0 ∧ classify 0x30000 = .home 0 ∧ (0x30000 : Word).toNat % 4 = 0 ∧ base.me.inh = false ∧
    (fluming.flume 3).configured = true ∧ 32 + 8 * 4 ≤ (fluming.flume 3).size ∧ (fluming.flume 3).size < 36 + 8 * 4 ∧
    (base.flume 3).configured = false ∧ base.writerBefore 0 1 base.nextId = false ∧
    ({ queued (item (.vbcast 1 2 false .w) 1 0 0 [] false) with nextId := 5 } : State).writerBefore 0 1 5 = true := by decide +kernel

theorem test_vector_words : ((after (.vrcp 1 2 false) base).coreAt 0).vqueue.length = 1 ∧
    (after (.vrcp 1 2 false) (vectoring 16)).me.status = .blocked (.queueRoom 1) 0 ∧
    ((after (.vld 1 1 2 .w) (withRegs [(1, sp 0x100)] (onMe (fun t => { t with vl := 2 }) base))).coreAt 0).vqueue.map
      (fun q => q.body.map (·.addrs)) = [[[spadKey 0 0x100, spadKey 0 0x104]]] ∧
    trapOf (.vld 1 1 2 .w) (withRegs [(1, sp 0xF7FC0)] base) = (5, sp 0xF8000, 0) ∧
    (after (.vld 1 1 2 .w) (withRegs [(1, sp 0xF7FC0)] base)).me.tstat.toNat / 2^16 % 256 = 16 ∧
    (after (.vsetl 3 1) (withRegs [(1, 99)] base)).x 3 = 32 ∧ (after (.vmovxXv 3 1 2) (withRegs [(1, 1)] (vectoring 0))).x 3 = 1 ∧
    ((after (.vloop 1 1) (withRegs [(1, 7)] (after (.vrcp 1 2 false) base))).coreAt 0).vqueue.map (·.passes) = [1, 7] := by
  decide +kernel

/-- VectorControl (streams): a bound stream with nothing queued, a flume of whole multiples, a bound of 32 at most. -/
theorem witness_StreamBindings : (28 : VReg).toNat = 28 + (0 : BitVec 2).toNat ∧ (fluming.flume 3).size % (4 * 16) = 0 ∧
    bindOf (fluming.coreAt 0).binds.toList 28 = none ∧ fluming.namedInQueue 0 28 = false ∧ (0 : Nat) < 16 ∧ 16 ≤ 32 ∧
    (bindOf (bound.coreAt 0).binds.toList 28).isSome = true ∧ bound.namedInQueue 0 28 = false ∧ 0 < (bound.flume 3).filled ∧
    (bound.flume 3).filled < 2^(bound.flume 3).k ∧ base.me.inh = false ∧ (base.flume 3).configured = false := by decide +kernel

theorem test_streams : bindOf ((after (.sbind 0 1 3) (withRegs [(1, 16)] fluming)).coreAt 0).binds.toList 28 = some ⟨3, 16, 0, 0, none⟩ ∧
    trapOf (.sbind 0 1 3) (withRegs [(1, 33)] fluming) = (0x10, 3, 33) ∧
    bindOf ((after (.sunbind 0) bound).coreAt 0).binds.toList 28 = none ∧
    (after (.sunbind 0) (bound.modCore 0 (fun k => { k with binds := k.binds.set 0 (some ⟨3, 2, 8, 0, none⟩) }))).flume 3
      = ⟨0x1000, 2, 64, 2, 3, 1, true, none⟩ := by decide +kernel

/-- Core 0 with v28 bound to flume 3, whose slots hold bytes, and an entry of thread 0 at the head of its queue. -/
def streaming (i : Instr) (filled : Nat) : State :=
  { bound.modCore 0 (fun k => { k with
      flumes := k.flumes.set 3 ⟨0x1000, 2, 64, 1, 3, filled, true, none⟩
      vqueue := [{ item i 2 0 0 [] false with
        body := [⟨i, 0, 2, 0, 0, [], [some ⟨3, 2, 0, 0, none⟩, none, none, none], none, none, [], [], false⟩] }]
      vregs := k.vregs.set 1 0x0000000280000001 }) with
    mem := Memory.writeBytes base.mem (spadKey 0 0x1040) [1, 0, 0, 0x80, 2, 0, 0, 0] }

/-- A loop of two passes over one entry. -/
def twoPasses : VItem := { item (.vintVadd 1 1 2 false false .i32) 2 0 0 [] false with isLoop := true, passes := 2 }

/-- VectorEntries (streams): a pop with and without a filled slot, a push with and without a free one; a loop's last pass and
the one before. -/
theorem witness_StreamEntries : (Instr.varithVabs 3 28 false .f32).vshape = some ⟨some 3, none, some (28, false), none⟩ ∧
    (Instr.varithVabs 28 1 false .f32).vshape = some ⟨some 28, none, some (1, false), none⟩ ∧
    (Instr.varithVabs 3 28 false .f32).isSfu = false ∧ (Instr.varithVabs 3 28 false .f32).vectorMemory = none ∧
    ((streaming (.varithVabs 3 28 false .f32) 2).coreAt 0).holds = [] ∧
    (∀ x : VReg, bindOf [some ⟨3, 2, 0, 0, none⟩, none, none, none] x
      = bindOf ((streaming (.varithVabs 3 28 false .f32) 2).coreAt 0).binds.toList x) ∧
    (flumeOf ((streaming (.varithVabs 3 28 false .f32) 0).coreAt 0).flumes 3).filled = 0 ∧
    (flumeOf ((streaming (.varithVabs 28 1 false .f32) 4).coreAt 0).flumes 3).filled = 2^2 ∧
    (streaming (.varithVabs 3 28 false .f32) 2).poisoned (spadKey 0 0x1040) 4 = false ∧ twoPasses.passes = 2 := by decide +kernel

theorem test_stream_entries : (after (.vectorEntryExecute 0) (streaming (.varithVabs 3 28 false .f32) 2)).vreg 0 3 % 2^64 = 0x0000000200000001 ∧
    bindOf ((after (.vectorEntryExecute 0) (streaming (.varithVabs 3 28 false .f32) 2)).coreAt 0).binds.toList 28 = some ⟨3, 2, 8, 0, none⟩ ∧
    bytesAt (after (.vectorEntryExecute 0) (streaming (.varithVabs 28 1 false .f32) 2)) (spadKey 0 0x10C0) 8 = 0x0000000200000001 ∧
    ((after (.vectorEntryExecute 0) (queued twoPasses)).coreAt 0).vqueue.map (fun q => (q.pos, q.passes, q.done)) = [(0, 1, false)] := by
  decide +kernel

/-- VectorEntries: a computing entry, a load of two aligned words, a store, an SFU entry before and after its request, one
that is done. -/
theorem witness_VectorEntries : ((queued (item (.vintVadd 3 1 2 false false .i32) 2 0 0 [] false)).coreAt 0).vqueue.length = 1 ∧
    (Instr.vintVadd 3 1 2 false false .i32).vshape = some ⟨some 3, none, some (1, false), some (2, false)⟩ ∧
    (∀ v : VReg, bindOf [none, none, none, none] v = none) ∧ (Instr.vrcp 1 2 false).isSfu = true ∧
    (queued (item (.vld 3 1 2 .w) 2 0 0 [spadKey 0 0, spadKey 0 4] false)).accessWaits
      ⟨.vld 3 1 2 .w, 0, 2, 0, 0, [spadKey 0 0, spadKey 0 4], [none, none, none, none], none, none, [], [], false⟩ 2 = false ∧
    (vectoring 0).watchers = [] ∧ (vectoring 0).poisoned (spadKey 0 0) 4 = false ∧ (Instr.vld 3 1 2 .w).vectorMemory = some (4, false) ∧
    (Instr.vst 3 1 2 .w).vectorMemory = some (4, true) := by decide +kernel

theorem test_vector_entries : (after (.vectorEntryExecute 0) (queued (item (.vintVadd 3 1 2 false false .i32) 2 0 0 [] false))).vreg 0 3
      = 0x000000037F800000 ∧
    (after (.vectorEntryExecute 0) (queued (item (.varithVadd 3 1 2 false false .f32) 1 0 0 [] false))).vreg 0 3 = 0x40400000 ∧
    (after (.vectorEntryExecute 0) (queued (item (.vmovxVx 3 1 2) 1 9 1 [] false))).vreg 0 3 = 0x9000000FF ∧
    bytesAt (after (.vectorEntryExecute 0) (queued (item (.vst 1 1 2 .w) 2 0 0 [spadKey 0 0, spadKey 0 4] false))) (spadKey 0 0) 8
      = 0x0000000240000000 ∧
    ((after (.vectorEntryRetire 0) (queued (item (.vrcp 1 2 false) 1 0 0 [] true))).coreAt 0).vqueue = [] ∧
    (after (.sfuRequest 0) (queued (item (.vrcp 1 2 false) 1 0 0 [] false))).sfu = [(0, 0)] := by decide +kernel

/-- Lanes by the tables of R241 to R249: saturation, a shift by the width, a shuffle, a special operand. -/
theorem test_lanes : ((Instr.vintVadds 3 1 2 false false .i8).vcompute ⟨1, 0x7F80, 0x01FF, 0, 1⟩).map (fun o => o.lanes.take 2) = some [0x80, 0x7F] ∧
    ((Instr.vintVsll 3 1 2 false false .i16).vcompute ⟨1, 1, 17, 0, 1⟩).map (fun o => o.lanes) = some [2, 0] ∧
    ((Instr.vrsum 3 1 false .i32).vcompute ⟨3, 0x00000003FFFFFFFF00000001, 0, 0, 1⟩).map (fun o => o.lanes) = some [3] ∧
    ((Instr.vcmplt 3 1 2 false false .i32).vcompute ⟨1, 0xFFFFFFFF, 0, 0, 1⟩).map (fun o => o.lanes) = some [0xFFFFFFFF] ∧
    ((Instr.vrcp 3 1 false).vcompute ⟨1, 0, 0, 0, 1⟩).map (fun o => (o.lanes, o.flags)) = some ([0x7F800000], 2) ∧
    ((Instr.vcvtBf16F32 3 1 2 false false false).vcompute ⟨1, 0x3F808000, 0, 0, 1⟩).map (fun o => o.lanes) = some [0x3F80, 0] := by decide +kernel

/-- VectorFloatLanes: a length of 0, of 1 and of 32 lanes. -/
theorem witness_VectorFloatLanes : (⟨0, 0, 0, 0, 1⟩ : VIn).len ≤ 32 ∧ 0 < (⟨1, 0, 0, 0, 1⟩ : VIn).len ∧ (⟨32, 0, 0, 0, 1⟩ : VIn).len ≤ 32 := by
  decide +kernel

/-- The staging buffer holds the record of an MX_ZERO of accumulator 1, tag 7. -/
def staged : State := onMe (fun t => { t with staging := (t.staging.set 0 0x0000000100070003) }) (withRegs [(1, sp 0x100000)] base)

/-- EnqueuingStores: a record that passes, at the last free place of the queue and of the FIFO; one with a bad code. -/
theorem witness_EnqueuingStores : classify (BitVec.ofInt 64 ((staged.x 1).toInt + (7 : BitVec 9).toInt * 8)) = .slot 0x38 ∧
    staged.me.buffer = [] ∧ staged.vectorMemoryBusy 0 = false ∧ (parseMx (staged.me.stagingImage 0)).firstBad staged.mxView = none ∧
    (staged.coreAt 0).mxqueue.length < 8 ∧ staged.me.fifo.length + 63 < 64 ∧
    staged.ownWatch (staged.asWatched .store) (sp 0x100038) 8 = none ∧ staged.watchers = [] ∧
    (parseMx (base.me.stagingImage 0)).firstBad base.mxView = some 0 ∧ base.me.inh = false := by decide +kernel

theorem test_enqueue : ((after (.store 0 1 7 .d false false) staged).coreAt 0).mxqueue.map (fun q => (q.code, q.tag, q.acc)) = [(3, 7, 1)] ∧
    (after (.store 0 1 7 .d false false) staged).me.ticket = 1 ∧
    trapOf (.store 0 1 7 .d false false) (withRegs [(1, sp 0x100000)] base) = (0x11, sp 0x100038, 0) := by decide +kernel

/-- A command at the head of core 0's MXU queue. -/
def mxCmd (code : Nat) (fl : Bool) (rows : Nat) (begun : Bool) (step : Nat) : MxCmd :=
  ⟨code, false, fl, 7, 0, 3, 4, 1, 0, 0, rows, 0, 0, 0, 0, 12, 0, 0, 5, begun, 0, 0, step, false, 0, false, 0⟩

/-- Core 0 with one command; its flumes 3 and 4 hold `filled` slots of 128 * 128 bytes. -/
def mxing (q : MxCmd) (filled : Nat) : State := base.modCore 0 (fun k => { k with
  mxqueue := [q]
  flumes := (k.flumes.set 3 ⟨0x1000, 0, 0x4000, 0, 0, filled, true, none⟩).set 4 ⟨0x5000, 0, 0x4000, 0, 0, filled, true, none⟩
  accs := [(0, 0x3F800000)] })

/-- Flumes: a store to the scratchpad that is not performed; n above the slots. -/
theorem witness_Flumes_waits : (onMe (fun t => { t with buffer := [⟨0, sp 0, .mem (spadKey 0 0), 8, 0, true, false, 0, false⟩] }) { fluming with nextId := 1 }).released 0 .core true = false ∧
    (queued (item (.vst 1 1 2 .w) 1 0 0 [spadKey 0 0] false)).vectorMemoryBusy 0 = true ∧ (bound.coreAt 0).bound 3 = true ∧
    (((mxing (mxCmd 4 true 1 false 0) 0).coreAt 0).mxqueue.any (fun q => q.uses 3)) = true ∧
    (onMe (fun t => { t with buffer := [⟨1, sp 0, .mem (spadKey 0 0), 8, 0, false, false, 0, false⟩] }) configuring).overlapBusy 0 (spadKey 0 0) 16 = true ∧
    2^(fluming.flume 3).k < 5 ∧ 2^(fluming.flume 3).k - (fluming.flume 3).filled < 3 := by decide +kernel

/-- MatrixCommands and MatrixMultiplies: each code at the head; rows at the end of an accumulator; a flume with the slot and
without it. -/
theorem witness_Matrix : ((mxing (mxCmd 3 false 1 false 0) 0).coreAt 0).mxqueue = [mxCmd 3 false 1 false 0] ∧
    (mxing (mxCmd 4 false 1 false 0) 0).poisoned (spadKey 0 0) 512 = false ∧ base.watchers = [] ∧ 127 + 1 ≤ 128 ∧
    (flumeOf ((mxing (mxCmd 4 true 1 false 0) 0).coreAt 0).flumes 3).filled = 0 ∧ (mxCmd 5 false 1 false 0).out = 12 ∧
    (mxCmd 7 false 1 false 0).bandA.getLsbD 63 = false ∧ (mxCmd 1 false 1 true 1).step = (mxCmd 1 false 1 true 1).ks ∧
    (mxCmd 1 false 1 true 1).ks ≤ (flumeOf ((mxing (mxCmd 1 false 1 true 1) 1).coreAt 0).flumes 3).filled ∧
    (mxCmd 1 false 1 true 0).step < (flumeOf ((mxing (mxCmd 1 false 1 true 0) 1).coreAt 0).flumes 4).filled ∧
    (mxing (mxCmd 1 false 1 true 0) 1).stepError 0 (mxCmd 1 false 1 true 0) (spadKey 0 0x1000) (spadKey 0 0x5000) = none := by decide +kernel

theorem test_matrix : ((after (.mxZero 0) (mxing (mxCmd 3 false 1 false 0) 0)).coreAt 0).acc 0 0 0 = 0 ∧
    ((mxing (mxCmd 3 false 1 false 0) 0).coreAt 0).acc 0 0 0 = 0x3F800000 ∧
    (after (.mxZero 0) (mxing (mxCmd 3 false 1 false 0) 0)).me.fifo = [⟨0x0007030000020005, 1⟩] ∧
    ((after (.mxFence 0) (mxing (mxCmd 6 false 1 false 0) 0)).coreAt 0).mxqueue = [] ∧
    ((after (.mxMma 0) (mxing (mxCmd 1 false 1 false 0) 1)).coreAt 0).mxqueue.map (·.begun) = [true] ∧
    (flumeOf ((after (.mxMma 0) (mxing (mxCmd 1 false 1 true 1) 1)).coreAt 0).flumes 3).filled = 0 ∧
    (after (.mxKstep 0) (mxing (mxCmd 1 false 1 true 0) 0)).nextId = base.nextId := by decide +kernel

/-! Launches. -/

/-- A valid record: priority 1, one thread a core, count 2, completion at 0x30040, core 0 of die 0 and core 128 of die 1. -/
def recordWords (dies2 : Bool) : List Word :=
  [5, 0x30000, 0, 9, 2, 0, 0, 0x30040, 1, 0, (if dies2 then 1 else 0)] ++ List.replicate 21 0

/-- Partition 0 holds cores 0 and 128 and the record as record 1. -/
def pooled (c : Word) : State := ({ base with tags := [(0, 0), (136, 0)] }).modPart 0 (fun q => { q with
  cores := [0, 128]
  ranks := [(0, .valid 0), (128, .valid 128)]
  pool := [(32, c), (33, 0x30000), (35, 9), (36, 2), (39, 0x30040), (40, 1)] })

/-- LaunchWords: a record that arms, one out of range, one that is not valid, one that is armed, one whose range is bad; each
patch at both ends of its range. -/
theorem witness_LaunchWords : (pooled 5).partExists 0 = true ∧ (pooled 5).partOf 0 = 0 ∧ (pooled 5).armStatus 0 1 = 0 ∧
    (pooled 5).released 0 .pkg false = true ∧ (pooled 5).armStatus 0 256 = 1 ∧ (pooled 4).armStatus 0 1 = 1 ∧
    (pooled 7).armStatus 0 1 = 2 ∧ (pooled 0x10005).armStatus 0 1 = 3 ∧ recordValid ((pooled 5).record 0 1) = true ∧
    recordArmed ((pooled 5).record 0 1) = false ∧ recordArmed ((pooled 7).record 0 1) = true ∧ (7 : Word).toNat ≤ 7 ∧
    ¬ (8 : Word).toNat ≤ 7 ∧ 1 ≤ (0x100000000 : Word).toNat ∧ (0x100000000 : Word).toNat ≤ 2^32 ∧ ¬ 1 ≤ (0 : Word).toNat ∧
    classify 0x3FFFFFFFFFFFC0 = .home 7 ∧ (0x3FFFFFFFFFFFC0 : Word).toNat % 64 = 0 ∧ classify 0x40000000000000 = .home 8 := by
  decide +kernel

/-- The record with a slot-table directory at 0x30100, of which the Basin holds the first line. -/
def directed : State := { (pooled 5).modPart 0 (fun q => { q with pool := q.pool ++ [(37, 0x30100)] }) with
  heldLines := [⟨0x30100 / 64, 7, 0⟩] }

/-- What LARM's checks end with. -/
def arming (s : State) : Option Nat := match (s.armCheck (some 0) 0 1).2 with
  | .ok st => some st
  | .error _ => none

/-- LaunchWords: the checks pass, fail, and wait for a line; a store that is under way. -/
theorem witness_ArmChecks : (pooled 5).recordStatus 0 1 = 0 ∧ (pooled 7).recordStatus 0 1 = 2 ∧ (pooled 5).writesBusy 0 = false ∧
    arming (pooled 5) = some 0 ∧ arming (pooled 0x10005) = some 3 ∧ arming directed = none ∧
    (onMe (fun t => { t with buffer := [⟨1, 0x30010, .mem 0x30010, 8, 0, false, false, 0, false⟩] }) (pooled 5)).writesBusy 0 = true := by
  decide +kernel

theorem test_launch_words : (after (.larm 3 1) (withRegs [(1, 1)] (pooled 5))).launches.map (·.1) = [base.nextId] ∧
    recordArmed ((after (.larm 3 1) (withRegs [(1, 1)] (pooled 5))).record 0 1) = true ∧
    (after (.larm 3 1) (withRegs [(1, 1)] (pooled 7))).x 3 = 2 ∧
    recordWord ((after (.lpatchPrio 3 1 2) (withRegs [(1, 1), (2, 6)] (pooled 5))).record 0 1) 0 = 0x19 ∧
    recordWord ((after (.lpatchArg 3 1 2) (withRegs [(1, 1), (2, 6)] (pooled 5))).record 0 1) 3 = 6 ∧
    recordWord ((after (.lpatchCount 3 1 2) (withRegs [(1, 1), (2, 6)] (pooled 5))).record 0 1) 4 = 6 ∧
    (after (.lpatchDone 3 1 2) (withRegs [(1, 1), (2, 6)] (pooled 5))).x 3 = 3 ∧
    recordWord ((after (.lpatchDone 3 1 2) (withRegs [(1, 1), (2, 0x30080)] (pooled 5))).record 0 1) 7 = 0x30080 := by decide +kernel

/-- Launch 5 of that record, with thread 0 of core 0 FREE, at a time. -/
def launching (dies2 : Bool) (now : Nat) (f : Launch → Launch) : State :=
  let s := onMe (fun t => { t with status := .free }) (pooled 7)
  { s with now := now, nextId := 9, launches := [(5, f (launchOf 5 0 1 (recordWords dies2)))] }

/-- The launch's gang once both dies have started. -/
def gang (ballots : List (Nat × Bool)) (l : Launch) : Launch :=
  { l with dies := [0, 1], installed := [0, 1], members := [0, 512], ballots := ballots, firstBallot := some 0 }

/-- The launch whose election the monitor decides. -/
def assistedGang (l : Launch) : Launch := { gang [(0, true), (1, true)] l with assisted := true }

/-- The launch with a leader that posted at time 7. -/
def led (l : Launch) : Launch := { gang [(0, true), (1, true)] l with leader := some 0, closed := true, postedAt := 7 }

/-- The launch on die 0 alone, led since time 7, with thread 0 running its index 0. -/
def alone (now : Nat) : State := (launching false now (fun l => { l with
  dies := [0], installed := [0], members := [0], ballots := [(0, true)], firstBallot := some 0, leader := some 0
  closed := true, postedAt := 7, counter := 2, block := (1, 2) })).modThread 0
    (fun t => { t with status := .ready, launch := some 5 })

/-- LaunchesStart, on a die: a thread that is not FREE; all FREE with die 1 still to post; one side of the 10 µs and the
other; with and without every ballot; the monitor's choice. -/
theorem witness_LaunchesStart :
    ((onMe (fun t => { t with status := .ready }) (launching true 0 id)).headLaunch 0 0).isSome = true ∧
    (onMe (fun t => { t with status := .ready }) (launching true 0 id)).launchReady (launchOf 5 0 1 (recordWords true)) 0 = false ∧
    (launching true 0 id).headLaunch 0 0 = some (launchOf 5 0 1 (recordWords true)) ∧
    (launching true 0 id).launchReady (launchOf 5 0 1 (recordWords true)) 0 = true ∧
    1 ∈ (launchOf 5 0 1 (recordWords true)).maskDies ∧ (launching true 0 id).modes.getLsbD 4 = false ∧
    Sparse.find? (launching true 10000 (gang [(0, true), (1, true)])).launches 5
      = some (gang [(0, true), (1, true)] (launchOf 5 0 1 (recordWords true))) ∧
    (gang [(0, true)] (launchOf 5 0 1 (recordWords true))).word 0 / 2^10 % 2 = 0 ∧
    (launching true 10000 (gang [(0, true)])).electionAssisted (gang [(0, true)] (launchOf 5 0 1 (recordWords true))) = false ∧
    (gang [(0, true)] (launchOf 5 0 1 (recordWords true))).assisted = false ∧
    (gang [(0, true)] (launchOf 5 0 1 (recordWords true))).ending = none ∧
    (gang [(0, true)] (launchOf 5 0 1 (recordWords true))).waiting = [] ∧
    (gang [(0, true)] (launchOf 5 0 1 (recordWords true))).counter = 0 ∧
    (assistedGang (launchOf 5 0 1 (recordWords true))).assisted = true ∧
    (assistedGang (launchOf 5 0 1 (recordWords true))).leader = none ∧ (launching true 0 id).away 0 0 = false ∧
    (gang [(0, true), (1, true)] (launchOf 5 0 1 (recordWords true))).allPosted = true ∧
    (gang [] (launchOf 5 0 1 (recordWords true))).count = 2 := by decide +kernel

/-- LaunchesStart, the leader: one nanosecond short of 20 µs and 20 µs, with a survivor and with none; spares. -/
theorem witness_Leader : Sparse.find? (launching true 20006 led).launches 5 = some (led (launchOf 5 0 1 (recordWords true))) ∧
    (launching true 20006 led).now < 7 + 20000 ∧ 7 + 20000 ≤ (launching true 20007 led).now ∧
    (launching true 20007 led).electionAssisted (led (launchOf 5 0 1 (recordWords true))) = false ∧
    (launching true 20007 led).captureHolds (led (launchOf 5 0 1 (recordWords true))) = false ∧
    (launching true 20007 led).storesOut (led (launchOf 5 0 1 (recordWords true))) = false ∧
    ((alone 20007).thread 0).launch = some 5 ∧ (alone 20007).away 0 0 = false ∧ base.launches = [] ∧
    ({ base with pendingSpare := [⟨1, 4, 16, 0, false, false⟩] } : State).pendingSpare.find? (fun e => e.key == 1) = some ⟨1, 4, 16, 0, false, false⟩ ∧
    (⟨1, 4, 16, 0, false, false⟩ : SpareWait).healthy.all base.drained = true ∧
    (⟨1, 4, 16, 0, false, false⟩ : SpareWait).healthy.all (({ base.modThread 20 (fun t => { t with buffer :=
      [⟨1, 0x30010, .mem 0x30010, 8, 0, false, false, 0, false⟩] }) with nextId := 5 } : State).drained) = false ∧
    (∀ e ∈ ({ base with pendingSpare := [⟨1, 4, 16, 0, false, true⟩] } : State).pendingSpare, e.key = 1 → e.named = true) ∧
    1 ∉ base.usedSpares ∧ base.pendingSpare = [] := by decide +kernel

theorem get_idle (m : Sparse Partition) (h : ∀ e ∈ m, e.2.spore.state = .idle) (q : Nat) :
    (Sparse.get m q Partition.reset).spore.state = .idle := by
  induction m with
  | nil => rfl
  | cons e r ih =>
    unfold Sparse.get
    rw [Sparse.find_cons]
    split
    · exact h e List.mem_cons_self
    · exact ih (fun x hx => h x (List.mem_cons_of_mem _ hx))

theorem base_capturing (c : Nat) : base.capturing c = false := by
  simp [State.capturing, State.part, get_idle base.parts (by decide +kernel)]

theorem base_physical (c : Nat) : base.physicalOf c < 136 := by
  show c % 128 < 136
  omega

/-- Distinct cores have distinct tag keys where no spare is in use. -/
theorem base_tagKey (a b : Nat) (h : base.tagKey a = base.tagKey b) : a = b := by
  have e : ∀ c, base.tagKey c = c / 128 * 136 + c % 128 := fun _ => rfl
  rw [e, e] at h
  omega

theorem test_launch_start : ((after (.launchStart 0 0) (launching true 0 id)).thread 0).status = .halted ∧
    ((after (.launchStart 0 0) (launching false 0 id)).thread 0).status = .ready ∧
    ((after (.launchStart 0 0) (launching false 0 id)).thread 0).regs.get (11 : Fin 64) = 9 ∧
    ((after (.launchStart 0 0) (launching false 0 id)).thread 0).regs.get (12 : Fin 64) = 2 ∧
    (after (.launchStart 0 1) (launching false 0 id)).launches = (launching false 0 id).launches := by decide +kernel

theorem test_elections :
    ((after (.electionTimeout 5) (launching true 10000 (gang [(0, true), (1, true)]))).launches.map (·.2.leader)) = [some 0] ∧
    (after (.electionTimeout 5) (launching true 9999 (gang [(0, true), (1, true)]))).launches.map (·.2.leader) = [none] ∧
    (after (.electionTimeout 5) (launching true 10000 (gang [(0, true)]))).launches = [] ∧
    bytesAt (after (.electionTimeout 5) (launching true 10000 (gang [(0, true)]))) 0x30040 4 = 2 ∧
    (after (.monitorNamesLeader 5 1) (launching true 0 assistedGang)).launches.map
      (·.2.leader) = [some 1] ∧
    (after (.leaderPost 5) (launching true 9 led)).launches.map (·.2.postedAt) = [9] ∧
    (after (.leaderFail 5) (launching true 20007 led)).launches.map (·.2.leader) = [some 1] ∧
    (after (.leaderFail 5) (alone 20007)).launches = [] ∧ bytesAt (after (.leaderFail 5) (alone 20007)) 0x30040 4 = 3 := by
  decide +kernel

theorem test_quarantine : (base.killCores [0]).tagOf 0 = 63 ∧ ((base.killCores [0]).thread 0).status = .free ∧
    (after (.monitorNamesSpare 0 1) { base with pendingSpare := [⟨1, 4, 16, 0, false, false⟩] }).physicalOf 5 = 133 ∧
    (after (.monitorNamesSpare 0 1) { base with pendingSpare := [⟨1, 4, 16, 0, false, false⟩] }).usedSpares = [1] := by decide +kernel

/-! Spores. -/

/-- A descriptor of cut domain 0: areas at 0x100000 and 0x200000. -/
def descriptorBytes : List Byte :=
  leBytes 0 8 ++ leBytes 0x100000 8 ++ leBytes 0x10000 8 ++ leBytes 0x200000 8 ++ leBytes 0x100000 8 ++ zeros 24

/-- Thread 0 runs launch 5, whose domain 0 it is the only member of, with the descriptor at offset 0. -/
def sporing (f : Spore → Spore) : State :=
  let s := (alone 0).modSpore 0 f
  { withRegs [(1, sp 0)] s with
    mem := Memory.writeBytes s.mem (spadKey 0 0) descriptorBytes
    domains := [(0, ⟨3, 1, 0, 1, 1, some 0, some 5, 3, 3, [], [], []⟩)] }

/-- The spore of epoch 1 in a state, its manifest in the page at 0x30000 and its image area of 16 MiB there too. -/
def under (st : SporeState) (x : Spore) : Spore :=
  { x with state := st, cur := 1, epoch := 1, issued := 1, manifest := 0x30000, manifestLen := 0x10000, image := 0x30000
           imageLen := 0x1000000, launch := some 5 }

/-- SporeWordAndSteps: a descriptor that passes, one that is malformed, a spore under way; the start, with the launch and
without; a marker; each condition of the seal. -/
theorem witness_SporeWord : classify ((sporing id).x 1) = .spad 0 ∧ (sporing id).poisonedFor 0 (spadKey 0 0) 64 = false ∧
    (sporing id).released 0 .pkg false = true ∧
    (sporing id).me.reply = none ∧ ((sporing id).part 0).spore.pkg = 0 ∧ ((sporing id).part 0).spore.packages = 1 ∧
    ((sporing (fun x => { x with pkg := 1, packages := 2 })).part 0).spore.packages ≠ 1 ∧
    (onMe (fun t => { t with reply := some (.value 7) }) (sporing id)).me.reply = some (.value 7) ∧
    (sporing id).sporeRefusal 0 (sporing id).me.launch (parseDescriptor (Memory.readBytes (sporing id).mem (spadKey 0 0) 64)) = 0 ∧
    (parseDescriptor (List.replicate 64 0)).ok = false ∧ ((sporing id).part 0).spore.started = false ∧
    ((sporing (under .armed)).part 0).spore.busy = true ∧ 0 + 64 ≤ 0xF8000 ∧ (sp 0xF7FC0).toNat % 8 = 0 := by decide +kernel

theorem witness_SporeSteps : ((sporing (fun x => { under .idle x with cur := 0 })).part 0).spore.cur
      ≠ ((sporing (fun x => { under .idle x with cur := 0 })).part 0).spore.epoch ∧
    (Sparse.find? (sporing (under .idle)).launches 5).isSome = true ∧ (sporing (under .capture)).tagOf 0 = 0 ∧
    (∀ v ∈ (sporing (under .capture)).saved, v.snapshot.core ≠ 0) ∧ ((sporing (under .capture)).part 0).spore.started = true ∧
    ((sporing (under .idle)).part 0).spore.started = false ∧ (0, 3, 0) ∉ ((sporing (under .capture)).part 0).spore.markers ∧
    (sporing (under .capture)).uncutTo 0 (some (0, 3)) 0 = false ∧ (sporing (under .capture)).underWay 0 1 3 0 = false ∧
    (sporing (under .capture)).sealReady 0 = true ∧ (sporing (under .capture)).modes.getLsbD 5 = false ∧
    ({ sporing (under .capture) with modes := 32 } : State).sealReady 0 = true ∧ (sporing (under .armed)).sealReady 0 = false ∧
    (((sporing (under .capture)).part 0).spore.manifestBytes 0 1 0).length = 256 ∧
    ((sporing (fun x => { under .capture x with manifestLen := 255 })).part 0).spore.manifestLen.toNat < 256 ∧
    (((sporing (under .capture)).modSpore 0 (fun y => { y with state := .sealing, ready := true, byHost := false })).areaPut 0 0x30000
      (((sporing (under .capture)).part 0).spore.manifestBytes 0 1 0)).isSome = true := by decide +kernel

/-- SporeWordAndSteps: a descriptor that holds an error; a refusal of package 0 that the others' answer may still change; a header
that cannot be written. -/
theorem witness_SporeOpen : ({ sporing id with poison := [spadKey 0 8] } : State).poisonedFor 0 (spadKey 0 0) 64 = true ∧
    ({ sporing id with poison := [spadKey 0 8] } : State).released 0 .pkg false = true ∧
    (let s := sporing (fun x => { x with packages := 2 })
     (s.part 0).spore.pkg = 0 ∧ (s.part 0).spore.packages ≠ 1) ∧
    (sporing (fun x => { under .sealing x with ready := true, manifest := 0x10000000 })).finishManifest 0 1 = none ∧
    ((sporing (fun x => { under .sealing x with ready := true })).finishManifest 0 1).isSome = true := by decide +kernel

theorem test_spore_word : (after (.spore 3 1) (sporing id)).x 3 = 1 ∧ ((after (.spore 3 1) (sporing id)).part 0).spore.epoch = 1 ∧
    (after (.spore 3 1) (sporing (under .armed))).x 3 = 0x8000000000000001 ∧
    (after (.spore 3 1) { sporing id with mem := base.mem }).x 3 = 0x8000000000000002 ∧
    (after (.spore 3 1) { sporing id with domains := [] }).x 3 = 0x8000000000000003 := by decide +kernel

theorem test_spore_open :
    ((after (.sporeCommit 0) (sporing (fun x => { under .sealing x with ready := true, manifest := 0x10000000 }))).part 0).spore.fail = 2 := by
  decide +kernel

theorem test_spore_steps :
    ((after (.sporeArm 0) (sporing (fun x => { under .idle x with cur := 0 }))).part 0).spore.state = .armed ∧
    ((after (.markerArrival 0 3 0) (sporing (under .capture))).part 0).spore.markers = [(0, 3, 0)] ∧
    ((after (.sporeSeal 0) (sporing (under .capture))).part 0).spore.state = .sealing ∧
    ((after (.sporeCommit 0) (sporing (fun x => { under .sealing x with ready := true }))).part 0).spore.last = 1 ∧
    ((after (.sporeFail 0 6) (sporing (under .sealing))).part 0).spore.fail = 6 ∧
    ((after (.sporeFail 0 6) (sporing (under .idle))).part 0).spore.fail = 0 := by decide +kernel

/-- A capture under way of core 0, whose threads have all left the cut. -/
def capture (x : Spore) : Spore :=
  { under .capture x with capturing := [0], snaps := [⟨0, Core.reset, [(0, Thread.reset)], [], []⟩], launch := none }

/-- A held page at 0x30000 of the leaf at 0x20018. -/
def heldPage : HeldPage := ⟨0x30000, 0x20018, 0x3003F, false, false, 0, false, [], false⟩

/-- SporeCaptures: the core still to be captured and not; poison; the area's last free byte; a held page, copied and not. -/
theorem witness_SporeCaptures : (sporing capture).tagOf 0 = 0 ∧ ((sporing capture).part 0).spore.state = .capture ∧
    0 ∈ ((sporing capture).part 0).spore.capturing ∧ (⟨0, Core.reset, [(0, Thread.reset)], [], []⟩ : Snapshot).leavesAt 0 = false ∧ (sporing capture).poison = [] ∧
    ({ sporing capture with poison := [spadKey 0 8], blocks := [spadKey 0 8 / 256] } : State).poison.all
      (fun a => isSpad a && spadCore a == 0 && ({ sporing capture with blocks := [spadKey 0 8 / 256] } : State).blocks.contains (a / 256)) = true ∧
    (∃ a ∈ ({ sporing capture with poison := [spadKey 0 8] } : State).poison, isSpad a = true ∧ spadCore a = 0 ∧
      a / 256 ∉ (sporing capture).blocks) ∧
    (∀ v ∈ (sporing capture).saved, v.snapshot.core ≠ 0) ∧ ((sporing capture).part 0).spore.launch = none ∧
    ((sporing capture).part 0).spore.used = 0 ∧ 0x143200 ≤ ((sporing capture).part 0).spore.imageLen.toNat ∧
    ((sporing (fun x => { capture x with imageLen := 0x143100 })).part 0).spore.imageLen.toNat < 0x143200 ∧
    (Sparse.get ((sporing capture).part 0).s2 (heldPage.entry.toNat / 2^16 % 2^24 * 2^16 / 2^21) 0).toNat % 4 = 3 ∧
    (sporing capture).frameAt (s2address 0xF 0x30000) = .assigned 0 ∧ heldPage.copied = false ∧ heldPage.refused = false ∧
    (0x30FFF : Word).toNat / 65536 * 65536 = heldPage.va := by decide +kernel

/-- The block of that capture has the size of R384. -/
theorem witness_SporeCaptures_size : (contextBlock ⟨0, Core.reset, [(0, Thread.reset)], [], []⟩ 0).length = 0x143200 :=
  contextBlock_length _ _

/-- Bytes of empty memory are zero. -/
theorem witness_SporeCaptures_zero (n : Nat) : ∀ a, ∀ b ∈ Memory.readBytes [] a n, b = 0 := by
  induction n with
  | zero => intro a b h; cases h
  | succ k ih =>
    intro a b h
    cases h with
    | head => rfl
    | tail _ h => exact ih (a + 1) b h

theorem test_spore_captures :
    ((after (.coreCaptureDone 0) { sporing capture with poison := [spadKey 0 8] }).part 0).spore.fail = 3 ∧
    ((after (.coreCaptureDone 1) (sporing capture)).part 0).spore.state = .capture ∧
    ((after (.backgroundPageCopy 0 0x30FFF) { sporing (fun x => { capture x with pages := [heldPage] }) with
      poison := [0x30020] }).part 0).spore.fail = 3 := by decide +kernel

/-! Leaf permissions. -/

/-- The leaf of 0x30000 with R alone, without U. -/
def readOnly : State := { base with mem := Memory.writeBytes base.mem 0x20018 [0x07] }

/-- What a walk of 0x30000 ends with: its leaf's entry, or a cause and SUB. -/
def walked (s : State) (k : Access) (sup : Bool) : Word ⊕ (Cause × BitVec 8) :=
  match s.walk 0 0x30000 k sup 0 with
  | .ok w => .inl w.entry
  | .error t => .inr (t.cause, t.sub)

/-- The leaf of 0x30000 with U and X alone. -/
def executeOnly : State := { base with mem := Memory.writeBytes base.mem 0x20018 [0x33] }

/-- LeafPermissions: leaves with and without R, which every kind of access reaches. -/
theorem witness_Leaves : ([base, readOnly, executeOnly].map (fun s => match s.leafOf 0 0x30000 .load with
      | .ok (leaf, e, big) => (leaf, e, big)
      | .error _ => (0, 0, true))) = [(0x20018, 0x3003F, false), (0x20018, 0x30007, false), (0x20018, 0x30033, false)] ∧
    walked executeOnly .fetch false = .inl 0x30033 ∧ walked executeOnly .store true = .inr (.page1, 2) ∧ walked executeOnly .load true = .inr (.page1, 1) ∧
    walked executeOnly .atomic false = .inr (.page1, 3) := by decide +kernel

/-- LeafPermissions: a supervisor's read passes; each other kind passes or lacks what it needs. -/
theorem witness_LeafPermissions : walked base .load true = .inl 0x3003F ∧ walked base .fetch false = .inl 0x3003F ∧
    walked base .atomic false = .inl 0x3003F ∧ walked readOnly .load true = .inl 0x30007 ∧ walked readOnly .getr true = .inl 0x30007 ∧
    walked readOnly .load false = .inr (.page1, 1) ∧ walked readOnly .store true = .inr (.page1, 2) ∧
    walked readOnly .fetch true = .inr (.page1, 0) ∧ walked readOnly .atomic true = .inr (.page1, 3) ∧
    walked readOnly .putr true = .inr (.page1, 4) := by decide +kernel

/-! Scheduling and partitions. -/

/-- Partition 0 on core 0 shares it with partition 1; slices of 2 µs; partition 1 has a launch that waits, or not. -/
def sharing (ended : Option Nat) (now : Nat) (other : Bool) : State :=
  let q : Partition := { Partition.reset with cores := [0], slice := 2, next := some 0, s1root := some 0 }
  { base with
    now := now
    parts := [(0, { q with next := some 1, sliceEnded := ended, sliceUntil := 2000, s2 := [(0, 0xF)], ranks := [(0, .valid 0)] }), (1, q)]
    launches := if other then [(5, launchOf 5 1 1 (recordWords false))] else [] }

/-- Slices: a slice one nanosecond short and over; with and without another partition to run; the boundary reached and
not; a core that can be saved, SLICE µs after the slice's end. -/
theorem witness_Slices : (sharing none 2000 true).running 0 = true ∧ ((sharing none 2000 true).part 0).next ≠ none ∧
    ((sharing none 2000 true).part 0).sliceUntil ≤ 2000 ∧ 1999 < ((sharing none 1999 true).part 0).sliceUntil ∧
    (∃ y ∈ (sharing none 2000 true).ring 0, (sharing none 2000 true).eligible y = true) ∧
    (∀ y ∈ (sharing none 2000 false).ring 0, (sharing none 2000 false).eligible y = false) ∧
    (sharing (some 5) 2005 true).ring 0 = 1 :: [] ∧ (sharing (some 5) 2005 true).partExists 1 = true ∧
    ((sharing (some 5) 2005 true).part 1).debt < ((sharing (some 5) 2005 true).part 1).slice ∧
    (sharing (some 5) 2005 true).boundaryReady 0 = true ∧ (sharing (some 5) 2005 true).tagOf 0 = 0 ∧
    (sharing (some 5) 2005 true).saveReady 0 = true ∧ (sharing (some 5) 2005 true).switchingTo 0 = none ∧
    (sharing (some 5) 2005 true).urgentPart 0 = none ∧ 5 + ((sharing (some 5) 2005 true).part 0).slice * 1000 ≤ 2005 ∧
    (∀ y ∈ (sharing (some 5) 2005 false).ring 0, (sharing (some 5) 2005 false).eligible y = false) ∧
    ((sharing (some 5) 2005 false).part 0).debt < ((sharing (some 5) 2005 false).part 0).slice ∧
    ((sharing (some 5) 2005 false).part 0).sliceEnded ≠ none ∧ (sharing (some 5) 2005 false).running 0 = true ∧
    (sharing (some 5) 2005 false).boundaryReady 0 = true ∧
    ((sharing (some 5) 2005 true).modPart 0 (fun q => { q with regions := [(0, 0)] })).boundaryReady 0 = false := by decide +kernel

/-- The set of partitions 0 and 1 on cores 0 and 1 is being handed from `p` to the other. -/
def handing (p : Nat) : State := { (sharing (if p = 0 then some 5 else none) 9000 true).modPart p (fun q => { q with handsTo := some (1 - p) }) with
  tags := [(0, 0), (1, 1)] }

/-- Slices: a set that is being handed over, to partition 1 and back from it. -/
theorem witness_Handing : (handing 0).switchingTo 0 = some 1 ∧ (handing 1).takingOver 0 = true ∧ (handing 1).switchingTo 0 = none ∧
    1 ∈ (handing 0).ring 0 ∧ ((handing 0).part 0).handsTo = some 1 ∧ (handing 0).saveReady 0 = true ∧
    (sharing none 2000 true).takingOver 0 = false ∧ (sharing (some 5) 2005 true).takingOver 0 = false := by decide +kernel

theorem test_handing : (after (.forcedPreemption 0) (handing 0)).tagOf 0 = 1 ∧ (after (.forcedPreemption 0) (handing 1)).tagOf 0 = 0 ∧
    ((after (.sliceEnd 0) (handing 1)).part 0).sliceEnded = none := by decide +kernel

/-- Slices and CoresMove: no two cores share a tag key. -/
theorem witness_tagKey (a b : Nat) (h : (sharing (some 5) 2005 true).tagKey a = (sharing (some 5) 2005 true).tagKey b) : a = b :=
  base_tagKey a b h

theorem test_slices : ((after (.sliceEnd 0) (sharing none 2000 true)).part 0).sliceEnded = some 2000 ∧
    ((after (.sliceEnd 0) (sharing none 2000 false)).part 0).sliceUntil = 4000 ∧
    (after (.superstepSwitch 0) (sharing (some 5) 2005 true)).tagOf 0 = 1 ∧
    (after (.superstepSwitch 0) (sharing (some 5) 2005 true)).saved.map (·.tag) = [0] ∧
    (after (.forcedPreemption 0) (sharing (some 5) 2005 true)).tagOf 0 = 1 ∧
    (after (.forcedPreemption 0) (sharing none 2005 true)).tagOf 0 = 0 := by decide +kernel

/-- Core 0 saved for partition 0, thread 0 with 7 in x1, and one byte of its scratchpad. -/
def awaiting : State := { base with saved := [⟨0, ⟨0, Core.reset,
  [(0, { Thread.reset with status := .ready, regs := Thread.reset.regs.set 1 7 }), (1, Thread.reset), (2, Thread.reset), (3, Thread.reset)],
  [(spadKey 0 16, 9)], []⟩, [], [], []⟩] }

/-- A region of core 0 open since time 0, at a time; its threads 1 to 3 are FREE. -/
def regional (now : Nat) : State := { base.modPart 0 (fun q => { q with regions := [(0, 0)], slice := 1000 }) with now := now }

/-- The status of the newest event of function 0, which holds its events. -/
def answerTo (i : Instr) (s : State) : Nat := match ((after i s).fn 0).held.head? with
  | some e => e.status.toNat
  | none => 99

/-- A resize to cores 0 and 1. -/
def resizing (tag1 : Nat) : State := { base.modPart 0 (fun q => { q with resize := some ([0, 1], 3) }) with tags := [(0, 0), (1, tag1)] }

/-- CoresMove: a saved context, none; the watchdog's last and first time; a resize to a free core, to one in use. -/
theorem witness_CoresMove : (awaiting.savedFor (awaiting.tagOf 0) 0).isSome = true ∧ base.savedFor (base.tagOf 0) 0 = none ∧
    Memory.wf [(spadKey 0 16, (9 : Byte))] = true ∧ (regional 0).watchdogTime 0 = 12000000 ∧
    0 + (regional 12000000).watchdogTime 0 ≤ (regional 12000000).now ∧ (regional 11999999).now < 0 + (regional 0).watchdogTime 0 ∧
    ((regional 0).thread 0).status = .ready ∧ ((onMe (fun t => { t with woke := some .bufferEmpty }) (regional 0)).thread 0).woke ≠ none ∧
    ((regional 0).thread 1).status = .free ∧ (resizing 63).resizeReady 0 [0, 1] = true ∧ (resizing 63).tagOf 1 = 63 ∧
    (resizing 2).tagOf 1 ≠ 63 ∧ (regional 0).away 0 0 = false ∧ (resizing 63).tagKey 1 ∉ (resizing 63).quarantined ∧
    (resizing 63).tagKey 1 ∈ ({ resizing 63 with quarantined := [1] } : State).quarantined ∧
    ({ resizing 63 with quarantined := [1] } : State).resizeReady 0 [0, 1] = true ∧
    (∀ e ∈ (resizing 63).parts, 1 ∉ e.2.cores) ∧ (resizing 63).occupied 0 = true ∧ ((resizing 63).fn 0).cqhead = ((resizing 63).fn 0).cqtail ∧ (onMe (fun t => { t with launch := some 5 }) { (resizing 63).modPart 0 (fun q => { q with cores := [0, 2] })
      with tags := [(0, 0)] }).resizeReady 0 [0, 1] = false := by decide +kernel

/-- CoresMove: a region of partition 0 alone is open on core 0. -/
theorem witness_Region (q : Nat) (h : q ≠ 0) : Sparse.find? ((regional 0).part q).regions 0 = none := by
  show Sparse.find? (Sparse.get [(0, (regional 0).part 0)] q Partition.reset).regions 0 = none
  simp [Sparse.get, Ne.symm h, Partition.reset, Sparse.find?]

/-- A resize that takes core 0, which holds a context, out of partition 0 while no other core of its die is free. -/
def crowded : State := { base with
  parts := [(0, { base.part 0 with resize := some ([128], 3) }), (1, { Partition.reset with cores := (List.range 128).drop 1 })] }

theorem witness_Crowded (b : Nat) (h : dieOf b = dieOf 0) : crowded.coreFree b = false := by
  have hb : b < 128 := by simpa [dieOf] using h
  have : ∀ b < 128, crowded.coreFree b = false := by decide +kernel
  exact this b hb

theorem test_cores_move : (after (.coreResume 0) awaiting).x 1 = 7 ∧ Memory.read (after (.coreResume 0) awaiting).mem (spadKey 0 16) = 9 ∧
    (after (.coreResume 0) awaiting).saved = [] ∧ (after (.regionWatchdog 0) (regional 12000000)).me.tcause = 0x18 ∧
    (after (.regionWatchdog 0) (regional 11999999)).me.tcause = 0 ∧ (after (.resizeApply 0) (resizing 63)).tagOf 1 = 0 ∧
    ((after (.resizeApply 0) (resizing 2)).part 0).cores = [0] ∧ answerTo (.resizeApply 0) (resizing 2) = 4 ∧
    answerTo (.resizeApply 0) (resizing 63) = 0 ∧ answerTo (.resizeApply 0) { resizing 63 with quarantined := [1] } = 4 := by decide +kernel

/-! The monitor's commands. -/

/-- Function 0's rings: a command log of 4 at 0x1000 and an event log of 4 at 0x2000 of host memory. -/
def linked (s : State) : State := { s with functions := [(0, ⟨0x1000, 4, 0, 0, 0x2000, 4, 0, 0, true, [], none⟩)] }

/-- The status of the newest event of function 0, written at the ring's first entry. -/
def answer (i : Instr) (s : State) : Nat := bytesAt (after i (linked s)) (hostKey 0x2008) 8

/-- CommandsCheckPartitions: tags 47 and 48; each bound of PRES, PWEIR, PPLACE, S1ROOT, S2WRITE, PSLICE and PJOB. -/
theorem witness_Commands : (base.fn 0).cqhead = (base.fn 0).cqtail ∧ base.partExists 0 = true ∧ base.partExists 47 = false ∧
    47 < (48 : Word).toNat ∧ (47 : Word).toNat ≤ 47 ∧ base.capOfOthers 0 + (2^24 - 1) * 2^15 ≤ 2^39 ∧
    2^39 < base.capOfOthers 0 + (2^24 + 1) * 2^15 ∧ (0xFFFFFFFFFF : Word).toNat < 2^40 ∧ (base.part 0).po = 0 ∧ (base.part 0).pf = 0 ∧
    (0 : Nat) + 4096 ≤ 4096 ∧ (onMe (fun t => { t with status := .free }) base).partBusy 0 = false ∧ base.partBusy 0 = true ∧
    base.allotTaken 0 (0, 4096) (0, 1024) (0, 64) = false ∧ (∃ k ∈ (base.part 0).cores, k / 128 = 0) ∧
    (∀ k ∈ (base.part 0).cores, k / 128 ≠ 1) ∧ (0xFFFFFF0000 : Word).toNat < 2^40 ∧ (0xFFFFFF0000 : Word).toNat % 2^16 = 0 ∧
    (0x7FFFF : Word).toNat < 2^19 ∧ (0xF : Word).toNat / 2^4 % 2^17 = 0 ∧ (base.part 0).spore.busy = false ∧
    ((sporing (under .armed)).part 0).spore.busy = true ∧
    (0xFFFFFFF000 : Word).toNat < 2^40 ∧ (0xFFFFFFF000 : Word).toNat % 4096 = 0 ∧ 2^40 ≤ (0x10000000000 : Word).toNat ∧
    (0x50008 : Word).toNat % 4096 ≠ 0 ∧ (0x1000 : Word).toNat + 2 * 2 ≤ 2^48 ∧
    2^48 < (0xFFFFFFFFFFFD : Word).toNat + 2 * 2 := by decide +kernel

theorem test_settings : answer (.pres (cmd 0 8 0x8000000000030000 15 4)) base = 0 ∧
    ((after (.pres (cmd 0 8 0x8000000000030000 15 4)) base).part 0).pcap = 8 ∧ answer (.pres (cmd 0 8 0 16 4)) base = 2 ∧
    answer (.pres (cmd 0 0x1000001 0 0 4)) base = 3 ∧ ((after (.pscope (cmd 0 2 0 0 0)) base).part 0).ceiling = .pkg ∧
    answer (.pscope (cmd 0 1 0 0 0)) base = 2 ∧ answer (.pweir (cmd 0 0 0 0 0)) base = 3 ∧
    ((after (.pweir (cmd 0 0xFF90007 0 0 0)) (onMe (fun t => { t with status := .free }) base)).part 0).counters = (7, 4089) ∧
    answer (.pweir (cmd 0 0xFFA0007 0 0 0)) (onMe (fun t => { t with status := .free }) base) = 2 := by decide +kernel

theorem test_tables : ((after (.pplace (cmd 0 0 0x50000 0x60000 0x70000)) base).part 0).pages.map (·.2.sched) = [0x60000] ∧
    answer (.pplace (cmd 0 1 0 0 0)) base = 2 ∧ answer (.pplace (cmd 0 0 0x50008 0 0)) base = 2 ∧
    answer (.pplace (cmd 0 0 0x50000 0x10000000000 0)) base = 2 ∧ ((after (.s1root (cmd 0 0x40000 0 0 0)) base).part 0).s1root = some 0x40000 ∧
    answer (.s1root (cmd 0 0x40001 0 0 0)) base = 2 ∧ Sparse.get ((after (.s2write (cmd 0 9 0x20000F 0 0)) base).part 0).s2 9 0 = 0x20000F ∧
    answer (.s2write (cmd 0 9 0x1F 0 0)) base = 2 ∧ ((after (.pslice (cmd 0 1000 5 1 0)) base).part 0).next = some 1 ∧
    answer (.pslice (cmd 0 999 5 1 0)) base = 2 ∧ ((after (.pjob (cmd 0 77 0x201 0 0)) base).part 0).spore.job = 77 ∧
    answer (.pjob (cmd 0 77 0x202 0 0)) base = 2 ∧ answer (.pjob (cmd 48 77 0x202 0 0)) base = 2 ∧
    answer (.pjob (cmd 47 77 0x201 0 0)) base = 3 := by decide +kernel

/-- Host memory at 0x4000 holds the mask of cores 2 and 3. -/
def masked : State := { base with mem := Memory.writeBytes base.mem (hostKey 0x4000) [0xC] }

/-- PartitionLifecycle: a mask of free cores, an empty one; a partition that can start and one that cannot; a resize that
must wait. -/
theorem witness_Lifecycle : masked.maskCores 0x4000 = [2, 3] ∧ masked.maskCores 0x5000 = [] ∧ masked.partExists 47 = false ∧
    (∀ e ∈ masked.parts, ∀ k ∈ e.2.cores, k ∉ [2, 3]) ∧ masked.partExists 0 = true ∧
    (onMe (fun t => { t with status := .free }) (base.modPart 0 (fun q => { q with pages := [(0, ⟨0, 0, 0, 0, 0⟩)] }))).startable 0 = true ∧
    base.startable 0 = false ∧ base.lowestCore 0 = some 0 ∧ base.tagOf 0 = 0 ∧ (base.part 0).pstart = none ∧ base.away 0 0 = false ∧
    (let z := (masked.modPart 0 (fun q => { q with resize := some ([2, 3], 7), cores := [0, 1] }))
     z.resizeReady 0 [2, 3] = false) := by decide +kernel

theorem test_lifecycle : (after (.pcreate (cmd 47 7 0x4000 0 0)) masked).tagOf 3 = 47 ∧ answer (.pcreate (cmd 0 7 0x4000 0 0)) masked = 3 ∧
    answer (.pcreate (cmd 47 8 0x4000 0 0)) masked = 2 ∧ (after (.pdestroy (cmd 0 0 0 0 0)) base).tagOf 0 = 63 ∧
    (after (.pdestroy (cmd 0 0 0 0 0)) base).partExists 0 = false ∧ ((after (.presize (cmd 0 0x4000 0 0 0)) masked).part 0).cores = [2, 3] ∧
    (after (.pflr (cmd 0 0 0 0 0)) base).me.status = .free ∧
    ((after (.pflr (cmd 0 0 0 0 0)) (base.modPart 0 (fun q => { q with pstart := some (0x30008, 0x30000, 6) }))).me.pc) = 0x30008 ∧
    answer (.pstart (cmd 0 0x30000 0 0 0)) base = 3 ∧
    (after (.pstart (cmd 0 0x30003 0x30007 6 0)) (onMe (fun t => { t with status := .free })
      (base.modPart 0 (fun q => { q with pages := [(0, ⟨0, 0, 0, 0, 0⟩)] })))).me.tvec = 0x30000 := by decide +kernel

/-! Frames and resets. -/

/-- Frame 1 of HBM SCRUBBING after FFREE, with bytes in it; frame 2 CLEAN; a CLEAN frame of host memory. -/
def framed (modes : Modes) : State := { base with
  hostScrubs := if modes = 2 then [1] else []
  frames := [(0, .assigned 0), (1, .scrubbing), (2, .clean), (2^30, .clean)]
  mem := Memory.writeBytes base.mem 0x200008 [7], modes := modes }

theorem base_tags (k : Nat) (h : k / 128 = 1) : 47 < base.tagOf k := by
  have : base.tagKey k ≠ 0 := by
    show k / 128 * 136 + k % 128 ≠ 0
    omega
  show 47 < Sparse.get ([(0, 0)] : Sparse Nat) (base.tagKey k) 63
  simp [Sparse.get, Sparse.find?, Ne.symm this]

/-- FramesAndResets: frames of each state, at the ends of HBM and in class 8; each mode; before and after the boot scrub; a
die in use, one that is not (base_tags) and one that does not exist. -/
theorem witness_Frames : (framed 0).frameAt 0x400000 = .clean ∧ (framed 0).frameAt 0 = .assigned 0 ∧
    (framed 0).frameAt (8 * 2^48) = .clean ∧ (0x400000 : Nat) % 2^21 = 0 ∧ (2^39 - 2^21 : Nat) < 2^39 ∧ (8 * 2^48) / 2^48 = 8 ∧
    Sparse.find? (framed 0).frames 1 = some .scrubbing ∧ (framed 0).modes.getLsbD 1 = false ∧ (framed 2).modes.getLsbD 1 = true ∧
    1 ∉ (framed 0).hostScrubs ∧ 1 ∈ (framed 2).hostScrubs ∧
    base.bootScrubbed = true ∧ State.reset.bootScrubbed = false ∧ 3 ≤ State.reset.stagesUp ∧ Sparse.find? base.frames 2 = none ∧
    0 / 128 = 0 ∧ base.tagOf 0 ≤ 47 ∧ (framed 0).partExists 0 = true := by decide +kernel

theorem test_frames : (after (.fassign (cmd 0x400000 0 0 0 0)) (framed 0)).frameAt 0x400000 = .assigned 0 ∧
    (after (.fassign (cmd 0x400000 63 0 0 0)) (framed 0)).telemetry = [(0, (0x400000, 0))] ∧
    answer (.fassign (cmd 0x200000 0 0 0 0)) (framed 0) = 3 ∧ (after (.ffree (cmd 0 0 0 0 0)) (framed 0)).frameAt 0 = .scrubbing ∧
    answer (.ffree (cmd 0x400000 0 0 0 0)) (framed 0) = 3 ∧ answer (.ffree (cmd 1 0 0 0 0)) (framed 0) = 2 ∧
    (after (.frameScrubComplete 1) (framed 0)).frameAt 0x200000 = .clean ∧
    Memory.read (after (.frameScrubComplete 1) (framed 0)).mem 0x200008 = 0 ∧
    (after (.basinInvalidateRequest 1) (framed 2)).frameAt 0x200000 = .clean ∧
    (after (.frameScrubComplete 1) (framed 2)).frameAt 0x200000 = .scrubbing ∧
    (after .bootScrubComplete State.reset).frameAt 0x7FFFE00000 = .clean := by decide +kernel

theorem test_resets : answer (.diereset (cmd 0 0 0 0 0)) base = 3 ∧ answer (.diereset (cmd 8 0 0 0 0)) base = 2 ∧
    answer (.diereset (cmd 1 0 0 0 0)) base = 0 := by decide +kernel

/-- A cold reset where the stored image may run, which only the root of trust knows. -/
theorem test_cold_reset (s : State) (b : List Byte) (hs : s.staged = some b) (h : s.imageRuns b = true) :
    (after (.coldReset 0) s).firmware = b ∧ (after (.coldReset 0) s).stagesUp = 6 ∧ (after (.coldReset 0) s).threads = [] ∧
    (after (.coldReset 0) s).parts = [] := by
  have e : after (.coldReset 0) s = s.coldReset 0 := rfl
  rw [e, State.coldReset]
  simp only [hs, h, Option.getD_some]
  simp
  exact ⟨rfl, rfl⟩

/-! Commands about threads and the package. -/

/-- Thread 0 PARKED by a PAGE2 at 0x40000, with its handler at 0x30100. -/
def parked (inh : Bool) : State := onMe (fun t => { t with
  status := .parked .page2, tval := 0x40000, tvec := 0x30100, tstat := tstatWord 0 0xFF false false inh inh }) base

/-- A manifest of epoch 3 without pages and cores at 0x30100, of record 1; its digest is SHA-256 of no bytes (FIPS 180-4). -/
def manifestOf (status digest0 : Nat) : List Byte :=
  leBytes (0x53504D46 + 2^32 + status * 2^48) 8 ++ leBytes 3 4 ++ leBytes 0 4 ++ zeros 16 ++ zeros 8 ++ zeros 32 ++ leBytes 2 8 ++ leBytes 2 8
    ++ zeros 8 ++ leBytes digest0 1
    ++ [0xb0, 0xc4, 0x42, 0x98, 0xfc, 0x1c, 0x14, 0x9a, 0xfb, 0xf4, 0xc8, 0x99, 0x6f, 0xb9, 0x24, 0x27, 0xae, 0x41, 0xe4, 0x64, 0x9b,
        0x93, 0x4c, 0xa4, 0x95, 0x99, 0x1b, 0x78, 0x52, 0xb8, 0x55]
    ++ leBytes 1 8 ++ zeros 120

/-- Partition 0 with record 1 and that manifest. -/
def rolling (m : List Byte) : State := let s := pooled 5; { s with mem := Memory.writeBytes s.mem 0x30100 m }

/-- The state in which ROLLBACK reads it. -/
def rolled (m : List Byte) : State := { (rolling m).functionReset 0 with
  windows := ((rolling m).functionReset 0).windows.filter (fun w => !((rolling m).liveThreads 0).contains w.thread) }

/-- ThreadAndPackageCommands: a parked thread, one that runs, a bad rank; the handler free; a launch before and after the
first PSTART, armed and not; a chain that holds and one whose digest does not. -/
theorem witness_ThreadCommands : (parked false).namedThread 0 0 = some 0 ∧ (parked false).partOf 0 = 0 ∧ (parked false).away 0 0 = false ∧
    ((parked false).thread 0).inh = false ∧ (parked false).servedByHandler 0 0 = true ∧ (base.thread 0).status ≠ .parked .page2 ∧
    (1 : Word).toNat ≤ 1 ∧ 1 < (2 : Word).toNat ∧ base.namedThread 0 1 = none ∧ (base.part 0).pstart = none ∧
    ((pooled 5).modPart 0 (fun q => { q with pstart := some (0, 0, 0) })).armStatus 0 1 = 0 ∧
    ((pooled 7).modPart 0 (fun q => { q with pstart := some (0, 0, 0) })).armStatus 0 1 ≠ 0 ∧ (base.thread 0).status ≠ .free ∧
    (base.thread 0).status ≠ .halted ∧ ((rolled (manifestOf 1 0)).chain 0 0x30100).isNone = true := by decide +kernel

theorem witness_Rollback : ((rolled (manifestOf 1 0xe3)).chain 0 0x30100).map (fun ms => ms.map (fun m =>
      (m.epoch, m.record, m.nextIndex, m.halted, m.pages.length + m.cores.length))) = some [(3, 1, 2, 2, 0)] ∧
    recordValid ((rolled (manifestOf 1 0xe3)).record 0 1) = true ∧ recordArmed ((rolled (manifestOf 1 0xe3)).record 0 1) = false ∧
    recordArmed (({ rolled (manifestOf 1 0xe3) with parts := (pooled 7).parts } : State).record 0 1) = true ∧
    ((rolled (manifestOf 0 0xe3)).chain 0 0x30100).isNone = true := by
  decide +kernel

theorem test_thread_commands : (after (.resume2 (cmd 0 0 0 0 0)) (parked false)).me.status = .ready ∧
    (after (.resume2 (cmd 0 0 1 0 0)) (parked false)).me.pc = 0x30100 ∧ (after (.resume2 (cmd 0 0 1 0 0)) (parked false)).me.tcause = 3 ∧
    answer (.resume2 (cmd 0 0 0 0 0)) base = 3 ∧ answer (.launch 0 (cmd 0 1 0 0 0)) (pooled 5) = 3 ∧
    answer (.launch 0 (cmd 0 1 0 0 0)) ((pooled 7).modPart 0 (fun q => { q with pstart := some (0, 0, 0) })) = 18 ∧
    (after (.launch 0 (cmd 0 1 0 0 0)) ((pooled 5).modPart 0 (fun q => { q with pstart := some (0, 0, 0) }))).launches.length = 1 ∧
    (after (.wake 1 (cmd 0 0 0 0 0)) base).me.wake = true ∧ answer (.wake 0 (cmd 0 1 0 0 0)) base = 2 := by decide +kernel

theorem test_rollback : answer (.rollback (cmd 0 0x30100 0 0 0)) (rolling (manifestOf 1 0xe3)) = 0 ∧
    (after (.rollback (cmd 0 0x30100 0 0 0)) (rolling (manifestOf 1 0xe3))).launches.map (·.2.counter) = [2] ∧
    ((after (.rollback (cmd 0 0x30100 0 0 0)) (rolling (manifestOf 1 0xe3))).part 0).spore.last = 3 ∧
    answer (.rollback (cmd 0 0x30100 0 0 0)) (rolling (manifestOf 1 0)) = 2 ∧
    answer (.rollback (cmd 0 0x30100 0 0 0)) (let s := rolling (manifestOf 1 0xe3)
      s.modPart 0 (fun q => { q with pool := [] })) = 3 := by decide +kernel

/-- Partition 0 with 64 pages mapped, so that a captured block can be read at 0x40000. -/
def wide : State := { base with mem := Memory.writeBytes base.mem 0x10000 (leBytes 0x3F 8) }

theorem wide_reads : (wide.readVa 0 0x40000 0x143200).isSome = true := by decide +kernel
theorem wide_rank : wide.rankCore 0 0 = some 0 := by decide +kernel

/-- A record of rank 0, thread 0, with a block at 0x40000 and its digest. -/
def blockRecord (b : List Byte) : List Byte := leBytes 0 2 ++ [1] ++ zeros 5 ++ leBytes 0x40000 8 ++ zeros 16 ++ Sha.sha256 b

theorem blockRecord_va (b : List Byte) : word (leAt (blockRecord b) 8 8) = (0x40000 : Word) := by
  have h : ((blockRecord b).drop 8).take 8 = leBytes 0x40000 8 := rfl
  rw [leAt, h]
  decide +kernel

theorem blockRecord_digest (b : List Byte) : ((blockRecord b).drop 0x20).take 32 = Sha.sha256 b := by
  rw [blockRecord, List.drop_left' (by rfl)]
  exact List.take_of_length_le (Nat.le_of_eq (sha256_length b))

/-- R387: a record whose digest is that of the block it names is a block. -/
theorem block_of_record (s : State) (b r : List Byte) (hv : word (leAt r 8 8) = (0x40000 : Word))
    (hb : s.readVa 0 0x40000 0x143200 = some b) (hd : (r.drop 0x20).take 32 = Sha.sha256 b) (h0 : leAt r 0 2 = 0) (h1 : leAt r 2 1 = 1)
    (hr : (s.rankCore 0 0).isNone = false) : s.coreBlocks 0 [r] = some [(0, 1, b)] := by
  have hc : s.coreBlock 0 r = some (0, 1, b) := by
    unfold State.coreBlock
    rw [hv, hb, hd, h0, h1]
    exact if_pos (Eq.refl _)
  simp only [State.coreBlocks, hc, hr, Option.map_some, Bool.false_eq_true, if_false]

/-- ROLLBACK: such a block stands in a state's memory. -/
theorem witness_Block : ∃ r b, wide.coreBlocks 0 [r] = some [(0, 1, b)] :=
  (Option.isSome_iff_exists.1 wide_reads).elim (fun b hb =>
    ⟨_, b, block_of_record wide b (blockRecord b) (blockRecord_va b) hb (blockRecord_digest b) rfl rfl (by rw [wide_rank]; rfl)⟩)

/-- ThreadAndPackageCommands, the package: no event ring is configured; each bound of FMODE and ERRLOG. -/
theorem witness_Package : (base.fn 0).eventReady = false ∧ (base.fn 0).cqhead = (base.fn 0).cqtail ∧ (5 : Word).toNat ≤ 5 ∧
    5 < (6 : Word).toNat ∧ base.timeSet = false ∧ base.anyStart = false ∧ 6 ≤ base.stagesUp ∧ ({ base with stagesUp := 5 } : State).stagesUp < 6 ∧ ({ base with anyStart := true } : State).anyStart = true ∧
    (4096 : Word).toNat ≤ 4096 ∧ 4096 < (4097 : Word).toNat ∧ (∀ e ∈ base.errors, e.length = 32) := by decide +kernel

theorem test_package : (after (.fmode (cmd 5 1 0 0 0)) base).modes = 32 ∧ answer (.fmode (cmd 6 1 0 0 0)) base = 2 ∧
    (after (.timeset (cmd 77 0 0 0 0)) base).now = 77 ∧ answer (.timeset (cmd 77 0 0 0 0)) { base with timeSet := true } = 3 ∧
    answer (.errlog (cmd 0 0 0x1000 0 0)) base = 2 ∧ answer (.errlog (cmd 0 1 0xFFFFFFFFFFE1 0 0)) base = 2 ∧
    answer (.attest (cmd 0xFFFFFFFFFFE1 0 0 0 0)) base = 2 ∧ answer (.fwstage (cmd 0xFFFFFFFFFFFF 2 0 0 0)) base = 2 ∧ answer (.errlog (cmd 0 1 0x1000 0 0)) base = 0 := by decide +kernel

/-! The host and the controller. -/

/-- Memory without tables. -/
def bare : State := { base with mem := [(0x30010, 5)] }

/-- HostAccesses: a page that permits, one that does not; the last byte of a page; lines not held; no leaf listed. -/
theorem witness_Host : base.fnExists 1 = true ∧ 0x3FFFF % 65536 + 1 ≤ 65536 ∧ bare.hostAddress 1 0x30010 .load = some 0x30010 ∧
    bare.lineHeld 0x30010 8 = none ∧ bare.hostAddress 1 0x200000 .load = none ∧ bare.hostAddress 1 0x30010 .store = some 0x30010 ∧
    bare.hostAddress 1 0x200000 .store = none ∧ hostOp 9 = some .cas ∧ hostOp 10 = none ∧ bare.hostHeld 1 0x30010 8 1 = false ∧
    ({ bare with heldLines := [⟨0xC00, 1, 0⟩] } : State).lineHeld 0x30010 8 ≠ none ∧
    bare.hostAddress 1 0x30010 .atomic = some 0x30010 ∧ bare.partsOfFn 1 = [0] ∧ (bare.part 0).spore.pages = [] ∧
    bare.allPages 0 = [] := by decide +kernel

theorem test_host : (after (.hostRead 1 0x30010 2) bare).hostReply = some [5, 0] ∧ (after (.hostRead 1 0x200000 2) bare).hostReply = none ∧
    (after (.hostWrite 1 0x30010 [6]) bare).mem = [(0x30010, 6)] ∧ (after (.hostWrite 1 0x200000 [6]) bare).mem = bare.mem ∧
    (after (.hostAtomic 1 0x30010 0 4 3 0) bare).mem = [(0x30010, 8)] ∧ (after (.hostAtomic 1 0x30010 0 4 3 0) bare).hostReply = some [5, 0, 0, 0] := by
  decide +kernel

/-- Rings that hold one command of a code in their first entry. -/
def ringing (code : Byte) : State := { linked base with mem := Memory.writeBytes base.mem (hostKey 0x1000) [code] }

/-- RingsAndController: a configured ring; a code that is performed and ones just outside the list; a full ring and an empty
one; an event ring with room. -/
theorem witness_Rings : (ringing 1).fnExists 0 = true ∧ ((ringing 1).fn 0).commandReady = true ∧ ((ringing 1).fn 0).reading = none ∧
    ((ringing 1).fn 0).cqhead ≠ (1 : Word).toNat % 2^((ringing 1).fn 0).cqlog ∧ commandOk 0 (Memory.readBytes (ringing 1).mem (hostKey 0x1000) 64) = true ∧
    commandOk 0 (Memory.readBytes (ringing 0).mem (hostKey 0x1000) 64) = false ∧
    commandOk 0 (Memory.readBytes (ringing 0x19).mem (hostKey 0x1000) 64) = true ∧
    commandOk 0 (Memory.readBytes (ringing 0x1A).mem (hostKey 0x1000) 64) = false ∧ ((ringing 1).fn 0).eventReady = true ∧
    ((ringing 1).fn 0).eqhead = ((ringing 1).fn 0).eqtail ∧ (((ringing 1).fn 0).eqtail + 1) % 2^((ringing 1).fn 0).eqlog ≠ 0 ∧
    2 ≤ base.stagesUp ∧ (base.setFn 0 { base.fn 0 with cqhead := 1 }).fn 0 = { base.fn 0 with cqhead := 1 } ∧
    ({ base.fn 0 with cqhead := 1 } : Function).commandReady = false := by decide +kernel

theorem test_rings : ((after (.cqtailWrite 0 1) (ringing 1)).fn 0).reading.map (·.1) = some 1 ∧
    bytesAt (after (.cqtailWrite 0 1) (ringing 0)) (hostKey 0x2008) 8 = 1 ∧
    ((after (.ringConfigWrite 0 0x08 0x1C) base).fn 0).cqlog = 12 ∧ ((after (.ringConfigWrite 0 0x20 0x12345) base).fn 0).eqbase = 0x12000 ∧
    ((after (.eqheadWrite 0 0x11) (ringing 1)).fn 0).eqhead = 1 := by decide +kernel

theorem test_controller : (after (.i3cDynamicAddress 0x7F) base).i3c = some 0x7F ∧
    ((after (.errorRecordRequest 2 1) base).mctp.map (·.head?)) = [some 0x7F] ∧ (after (.getVersion) base).mctp.length = 1 ∧
    (after .getMeasurements base).mctp.length = 1 ∧ (after .getCertificate { base with stagesUp := 1 }).mctp = [] := by decide +kernel

/-! Steps. -/

/-- Core 0 is to issue. -/
def due (s : State) : State := { s with agenda := [.issue 0] }

/-- A pair of R55: `sd x19, 2(x11)` and `sub x20, x12, x13`. -/
def paired : State := withRegs [(11, sp 0)] (onMe (fun t => { t with pc := 0x30000 })
  { base with mem := Memory.writeBytes base.mem 0x30000 (leBytes 0x18996029 4 ++ leBytes 0x40A18681 4) })

/-- StepRunsWords: a second word, a lone bundle, a pair. -/
theorem witness_Step : (due base).leaveDue = false ∧ (due base).firstDue base.threads = none ∧ (due base).launchDue = none ∧ base.pickThread 0 = some 0 ∧
    (let u := (onMe (fun t => { t with second := some 0 }) base).begin 0
     u.me.second = some 0 ∧ u.at.getLsbD 2 = true ∧ decodeSecond 0 = some .nop) ∧
    (let u := (State.reset.withFetchWord 32 0x80000000).begin 0
     u.at.getLsbD 2 = false ∧ u.me.fetched = none ∧ u.me.skip = [] ∧ u.walkWaits (bundleOf u.at) = false ∧
       (match u.fetchAddress 0 (bundleOf u.at) with | .ok a => a == 0x30000 | .error _ => false) = true ∧
       u.dieBytes 0 0x30000 8 = leBytes 0x80000000 8) ∧
    decodeBundle 0x80000000 0 = .lone .nop .nop ∧
    (let u := paired.begin 0
     u.at.getLsbD 2 = false ∧ u.dieBytes 0 0x30000 8 = leBytes 0x18996029 4 ++ leBytes 0x40A18681 4 ∧
       u.pairSlots (.store 19 11 2 .w false true) (.sub 20 12 13) = 0 ∧
       (u.coreAt 0).vqueue.length + u.pairSlots .nop (.vintVadds 9 10 11 false false .i16) ≤ 16) ∧
    movesHead (.fcons 10 0) = true ∧ movesHead (.sub 20 12 13) = false := by decide +kernel

/-- A step of an instruction that is placed runs it, from reset too. -/
theorem test_step : (match step (State.reset.withFetchWord 32 0x429A5FFF) with | .next t => t.me.regs.get (19 : Fin 64) | _ => 0) = 0xFFFFFFFFFFFFFFFF
    ∧ (match step paired with | .next t => t.me.pc | _ => 0) = 0x30008
    ∧ (match step (State.reset.withFetchWord 32 0x80000000) with | .next t => t.me.pc | _ => 0) = 0x30004
    ∧ (match step { base with agenda := [.event (.eqheadWrite 49 0)] } with | .fault .noSuchAgent => true | _ => false) = true := by
  decide +kernel

/-- DecodeOfEncode and EncodeOfDecode: a well-formed instruction with a word, and a word below 2^31 that decodes. -/
theorem witness_Encoding : (Instr.sub 20 12 13).wf = true ∧ encodeWord (.sub 20 12 13) = some 0x40A18681 ∧ 0x40A18681 < 2^31 ∧
    decodes [(0x40A18681, .sub 20 12 13)] = true := by decide +kernel

/-- StepKeepsMemoryCanonical: a state with canonical memory that takes a step, to one with canonical memory. -/
theorem witness_Canonical : Memory.wf base.mem = true ∧ (match step base with | .next t => Memory.wf t.mem | _ => false) = true := by
  decide +kernel

/-- R346 to R348, R352, R362: a word that reads a register with an error takes UE and, under no launch, parks; NOP reads none;
corrected errors of one unit share a record for 1 ms. -/
theorem test_upsets :
    (match step { paired with agenda := [.wordError 0 11] } with
     | .next t => decide (t.me.status = .parked .contained ∧ t.me.tcause = 0x17 ∧ t.me.tval = 0 ∧ t.errorCount = 1)
     | _ => false) = true ∧
    (match step { base with agenda := [.wordError 0 11] } with | .next t => t.errorCount | _ => 9) = 0 ∧
    (((base.corrected 3 8 63 2 64).corrected 3 8 63 2 72).errors.map (fun r => leValue ((r.drop 14).take 2))) = [2] ∧
    (({ (base.corrected 3 8 63 2 64) with now := 1000000 }).corrected 3 8 63 2 72).errorCount = 2 := by decide +kernel

end Sys2Proof.Tests
end

section
/-!
Encoding rules: what the decoder of a word, of a second word and of a bundle answers (R50 to R55), and the words and bundles
that the spec writes out.
-/
namespace Sys2Proof

/-- The table decoder of 32 bits agrees with the word decoder on a word that decodes. -/
theorem decodeTableWord_of_decodeWord {w : Nat} {i : Instr} (hw : w < 2^32) (h : decodeWord w = .ok i) :
    decodeTableWord 32 w = some i := by
  have hbits : ¬ (32 = 0 ∨ 32 < 32) := by decide
  simp only [decodeTableWord, if_neg hbits, Nat.mod_eq_of_lt hw, h]

/-- R53: the word 0. -/
theorem decodeWord_zero : decodeWord 0 = .ok .nop := rfl

/-- R55: a second word without L is the instruction it decodes to, unless that is a LOOP which ends in its own bundle. -/
theorem decodeSecond_of_decodeWord {w : BitVec 32} {j : Instr} (hL : w.toNat / 2^31 ≠ 1)
    (hw : decodeWord w.toNat = .ok j) (hj : loopEndsHere 1 j = false) : decodeSecond w = some j := by
  simp only [decodeSecond, if_neg hL, hw, hj, Bool.false_eq_true, if_false]

/-- R55: a second word with L set is ILLEGAL. -/
theorem decodeSecond_of_lone {w : BitVec 32} (hL : w.toNat / 2^31 = 1) : decodeSecond w = none := by
  simp only [decodeSecond, if_pos hL]

/-- R53: NOP in the second slot. -/
theorem decodeSecond_zero : decodeSecond 0 = some .nop :=
  decodeSecond_of_decodeWord (by decide) decodeWord_zero rfl

/-- R55: NOP writes no register, so it never clashes with the first word. -/
theorem sameDestWord_zero (i : Instr) : sameDestWord i 0 = false := by
  have hword : sameDestWord i 0 = sameDest i .nop := rfl
  have hdest : Instr.dest .nop = none := rfl
  rw [hword, sameDest, hdest]
  cases i.dest with
  | none => rfl
  | some d => cases d <;> rfl

section Bundle
variable {w0 w1 : BitVec 32} {i j : Instr}

/-- R52, R55: with L set, two words that decode are two lone words, of whatever classes. -/
theorem decodeBundle_lone (hL : w0.toNat / 2^31 = 1) (hi : decodeWord w0.toNat = .ok i) (hloop : loopEndsHere 0 i = false)
    (hj : decodeSecond w1 = some j) : decodeBundle w0 w1 = .lone i j := by
  simp only [decodeBundle, hi, hloop, hL, hj, not_true, false_and, Bool.false_eq_true, if_false, if_true]

/-- R51, R53, R55: with L clear, a C-class word beside an A-class word or NOP is a pair, when the first may stand in one and
the two write different registers. -/
theorem decodeBundle_pair (hL : w0.toNat / 2^31 ≠ 1) (hi : decodeWord w0.toNat = .ok i) (hloop : loopEndsHere 0 i = false)
    (hC : w0.toNat / 2^25 % 64 < 32) (hsys : i.sysLoneOnly = false) (hdest : sameDestWord i w1 = false)
    (hj : decodeSecond w1 = some j) (hA : 32 ≤ w1.toNat / 2^25 % 64 ∨ j.isNop = true) :
    decodeBundle w0 w1 = .pair i j := by
  have hfirst : ¬ 32 ≤ w0.toNat / 2^25 % 64 := Nat.not_le.2 hC
  have hsecond : ¬ (w1.toNat / 2^25 % 64 < 32 ∧ ¬ j.isNop = true) := fun ⟨hlt, hn⟩ =>
    hA.elim (Nat.not_le.2 hlt) hn
  simp only [decodeBundle, hi, hloop, hL, hfirst, hsys, hdest, hj, if_neg hsecond, Bool.false_eq_true, and_false, if_false]

/-- R53: NOP counts as A-class in the second slot: it pairs with every C-class word that may stand in a pair. -/
theorem decodeBundle_pair_nop (hL : w0.toNat / 2^31 ≠ 1) (hi : decodeWord w0.toNat = .ok i)
    (hloop : loopEndsHere 0 i = false) (hC : w0.toNat / 2^25 % 64 < 32) (hsys : i.sysLoneOnly = false) :
    decodeBundle w0 0 = .pair i .nop :=
  decodeBundle_pair hL hi hloop hC hsys (sameDestWord_zero i) decodeSecond_zero (.inr rfl)

/-- R51, R55: an A-class word in the first slot of a pair is ILLEGAL. -/
theorem decodeBundle_illegal_of_first_A (hL : w0.toNat / 2^31 ≠ 1) (hi : decodeWord w0.toNat = .ok i)
    (hA : 32 ≤ w0.toNat / 2^25 % 64) : decodeBundle w0 w1 = .illegal 0 w0 0 := by
  simp only [decodeBundle, hi, hL, hA, not_false_eq_true, and_self, if_true, ite_self]

/-- R55: behind a first word that may stand in a pair, a second word that does not decode is the offending one. -/
theorem decodeBundle_illegal_of_second (hL : w0.toNat / 2^31 ≠ 1) (hi : decodeWord w0.toNat = .ok i)
    (hloop : loopEndsHere 0 i = false) (hC : w0.toNat / 2^25 % 64 < 32) (hsys : i.sysLoneOnly = false)
    (hdest : sameDestWord i w1 = false) (hj : decodeSecond w1 = none) : decodeBundle w0 w1 = .illegal 1 w1 0 := by
  have hfirst : ¬ 32 ≤ w0.toNat / 2^25 % 64 := Nat.not_le.2 hC
  simp only [decodeBundle, hi, hloop, hL, hfirst, hsys, hdest, hj, Bool.false_eq_true, and_false, if_false]
end Bundle

/-- Whether a number is a 32-bit word that decodes to the instruction beside it; a Bool, so that a table of words is checked
by evaluation. -/
def readsAs (p : Nat × Instr) : Bool :=
  decide (p.1 < 2^32) && match decodeWord p.1 with
    | .ok i => decide (i = p.2)
    | .error _ => false

/-- What `readsAs` says of the decoder. -/
theorem readsAs_iff {p : Nat × Instr} : readsAs p = true ↔ p.1 < 2^32 ∧ decodeWord p.1 = .ok p.2 := by
  unfold readsAs
  cases decodeWord p.1 with
  | ok i => simp only [Bool.and_eq_true, decide_eq_true_eq, Except.ok.injEq]
  | error r => simp only [Bool.and_false, Bool.false_eq_true, reduceCtorEq, and_false]

/-- A table of words that read as their instructions does so in the table decoder too. -/
theorem decode_and_table_of_all_readsAs {l : List (Nat × Instr)} (h : l.all readsAs = true) :
    ∀ p ∈ l, decodeWord p.1 = .ok p.2 ∧ decodeTableWord 32 p.1 = some p.2 := fun p hp =>
  have ⟨hlt, hword⟩ := readsAs_iff.1 (List.all_eq_true.1 h p hp)
  ⟨hword, decodeTableWord_of_decodeWord hlt hword⟩

/-- The word of the global word store of x19 at x11 with immediate 2. -/
theorem decodeWord_store : decodeWord 0x18996029 = .ok (.store 19 11 2 .w false true) := rfl

/-- The word of `sub x20, x12, x13`, in the second slot. -/
theorem decodeSecond_sub : decodeSecond 0x40A18681 = some (.sub 20 12 13) :=
  decodeSecond_of_decodeWord (by decide) rfl rfl

/-- Settles O56: each listed word by running the decoder on it, each bundle by the rule of R51 to R55 that it falls under. -/
theorem specWordsDecode : Obligations.SpecWordsDecode := by
  unfold Obligations.SpecWordsDecode
  refine ⟨decode_and_table_of_all_readsAs ?words, ?pair, ?lone, ?firstA, ?secondL, decodeWord_zero, ?nops, ?loneNops,
    ?storeNop, ?nopSub⟩
  case words => decide
  case pair =>
    exact decodeBundle_pair (by decide) decodeWord_store rfl (by decide) rfl rfl decodeSecond_sub (.inl (by decide))
  case lone => exact decodeBundle_lone (by decide) rfl rfl decodeSecond_zero
  case firstA => exact decodeBundle_illegal_of_first_A (i := .add 20 12 13) (by decide) rfl (by decide)
  case secondL =>
    exact decodeBundle_illegal_of_second (by decide) decodeWord_store rfl (by decide) rfl rfl (decodeSecond_of_lone (by decide))
  case nops => exact decodeBundle_pair_nop (by decide) decodeWord_zero rfl (by decide) rfl
  case loneNops => exact decodeBundle_lone (by decide) rfl rfl decodeSecond_zero
  case storeNop => exact decodeBundle_pair_nop (by decide) decodeWord_store rfl (by decide) rfl
  case nopSub =>
    exact decodeBundle_pair (by decide) decodeWord_zero rfl (by decide) rfl rfl decodeSecond_sub (.inl (by decide))

end Sys2Proof
end

section
/-!
Encoding rules: the fields of a word of two or three registers (R56), and the words of the INT and W instructions, the BITS
instructions and the branches.
-/
namespace Sys2Proof

/-- R56: a word of two registers: its major from bit 25, registers x and y in bits 24:19 and 18:13, and 13 bits below. -/
def wordOf (major : Nat) (x y : Reg) (low : Nat) : Nat := major * 2^25 + x.toNat * 2^19 + y.toNat * 2^13 + low

/-- R56: the low bits of a word of a third register: rb in bits 12:7 and a function below. -/
def lowOf (rb : Reg) (fn : Nat) : Nat := rb.toNat * 2^7 + fn

section Fields
variable (major : Nat) (x y rb : Reg) {low fn : Nat}

/-- Bit 31, the lone bit of a first word, stands above the major. -/
theorem two_pow_31_add_wordOf : 2^31 + wordOf major x y low = wordOf (64 + major) x y low := by
  simp only [wordOf]
  omega

theorem lowOf_lt (hfn : fn < 128) : lowOf rb fn < 2^13 := by
  have hb := rb.isLt
  simp only [lowOf]
  omega

variable (hlow : low < 2^13)
include hlow

theorem wordOf_lt (hmajor : major < 64) : wordOf major x y low < 2^31 := by
  have hx := x.isLt
  have hy := y.isLt
  simp only [wordOf]
  omega

theorem wordOf_major : wordOf major x y low / 2^25 = major := by
  have hx := x.isLt
  have hy := y.isLt
  simp only [wordOf]
  omega

theorem wordOf_x : BitVec.ofNat 6 (wordOf major x y low / 2^19) = x := by
  have hx := x.isLt
  have hy := y.isLt
  apply BitVec.eq_of_toNat_eq
  simp only [wordOf, BitVec.toNat_ofNat]
  omega

theorem wordOf_y : BitVec.ofNat 6 (wordOf major x y low / 2^13) = y := by
  have hy := y.isLt
  apply BitVec.eq_of_toNat_eq
  simp only [wordOf, BitVec.toNat_ofNat]
  omega
end Fields

section ThirdRegister
variable (major : Nat) (x y rb : Reg) {fn : Nat} (hfn : fn < 128)
include hfn

theorem wordOf_lowOf_second : wordOf major x y (lowOf rb fn) / 2^7 % 64 = rb.toNat := by
  have hb := rb.isLt
  simp only [wordOf, lowOf]
  omega

theorem wordOf_lowOf_rb : BitVec.ofNat 6 (wordOf major x y (lowOf rb fn) / 2^7) = rb := by
  apply BitVec.eq_of_toNat_eq
  rw [BitVec.toNat_ofNat]
  exact wordOf_lowOf_second major x y rb hfn

theorem wordOf_lowOf_fn : wordOf major x y (lowOf rb fn) % 128 = fn := by
  simp only [wordOf, lowOf]
  omega
end ThirdRegister

/-- The low 13 bits of a word are its offset. -/
theorem wordOf_off (major : Nat) (x y : Reg) (off : BitVec 13) :
    BitVec.ofNat 13 (wordOf major x y off.toNat / 2^0) = off := by
  have hoff := off.isLt
  apply BitVec.eq_of_toNat_eq
  simp only [wordOf, BitVec.toNat_ofNat]
  omega

/-- R56: the encoder's sum of three register fields. -/
theorem pack_registers (major : Nat) (rd ra rb : Reg) (fn : Nat) :
    pack (major * 2^25 + fn) [(rd.toNat, 19), (ra.toNat, 13), (rb.toNat, 7)] = wordOf major rd ra (lowOf rb fn) := by
  simp only [pack, wordOf, lowOf, List.foldl]
  omega

/-- R56, R118: a word of one source is that of the same function with x0 as its second. -/
theorem pack_oneSource (major : Nat) (rd ra : Reg) (fn : Nat) :
    pack (major * 2^25 + fn) [(rd.toNat, 19), (ra.toNat, 13)] = wordOf major rd ra (lowOf 0 fn) := by
  have hzero : (0 : Reg).toNat = 0 := rfl
  simp only [pack, wordOf, lowOf, List.foldl, hzero]
  omega

/-- R56: the encoder's sum of two register fields and an offset. -/
theorem pack_offset (major : Nat) (ra rb : Reg) (off : BitVec 13) :
    pack (major * 2^25) [(ra.toNat, 19), (rb.toNat, 13), (off.toNat, 0)] = wordOf major ra rb off.toNat := by
  simp only [pack, wordOf, List.foldl]
  omega

/-- The INT and W instructions with their functions (R64, R112, R113). -/
def intWords (rd ra rb : Reg) : List (Instr × Nat) :=
  [(.add rd ra rb, 0x00), (.sub rd ra rb, 0x01), (.and rd ra rb, 0x02), (.or rd ra rb, 0x03), (.xor rd ra rb, 0x04),
    (.sll rd ra rb, 0x05), (.srl rd ra rb, 0x06), (.sra rd ra rb, 0x07), (.slt rd ra rb, 0x08), (.sltu rd ra rb, 0x09),
    (.min rd ra rb, 0x0A), (.max rd ra rb, 0x0B), (.minu rd ra rb, 0x0C), (.maxu rd ra rb, 0x0D), (.mul rd ra rb, 0x10),
    (.mulhiSs rd ra rb, 0x11), (.mulhiUu rd ra rb, 0x12), (.mulhiSu rd ra rb, 0x13), (.div rd ra rb, 0x14),
    (.divu rd ra rb, 0x15), (.rem rd ra rb, 0x16), (.remu rd ra rb, 0x17), (.addw rd ra rb, 0x20), (.subw rd ra rb, 0x21),
    (.sllw rd ra rb, 0x22), (.srlw rd ra rb, 0x23), (.sraw rd ra rb, 0x24), (.mulw rd ra rb, 0x25), (.divw rd ra rb, 0x26),
    (.divuw rd ra rb, 0x27), (.remw rd ra rb, 0x28), (.remuw rd ra rb, 0x29)]

section IntWords
variable {rd ra rb : Reg} {p : Instr × Nat} (hp : p ∈ intWords rd ra rb)
include hp

theorem intWords_lt : p.2 < 128 := by
  revert p
  simp only [intWords, List.forall_mem_cons, List.not_mem_nil, false_implies, implies_true, and_true, Nat.reduceLT]

theorem loopEndsHere_intWords : loopEndsHere 0 p.1 = false := by
  revert p
  simp only [intWords, List.forall_mem_cons, List.not_mem_nil, false_implies, implies_true, and_true, loopEndsHere]

theorem encodeWord_intWords : encodeWord p.1 = some (wordOf 0x20 rd ra (lowOf rb p.2)) := by
  rw [← pack_registers]
  revert p
  simp only [intWords, List.forall_mem_cons, List.not_mem_nil, false_implies, implies_true, and_true]
  and_intros <;> rfl

/-- R64: the function alone chooses the instruction of major 0x20. -/
theorem decodeInt_intWords (major : Nat) : decodeInt (wordOf major rd ra (lowOf rb p.2)) = .ok p.1 := by
  have hfn := intWords_lt hp
  have hlow := lowOf_lt rb hfn
  simp only [decodeInt, wordOf_lowOf_fn _ _ _ _ hfn, wordOf_x _ _ _ hlow, wordOf_y _ _ _ hlow, wordOf_lowOf_rb _ _ _ _ hfn]
  clear hfn hlow
  revert p
  simp only [intWords, List.forall_mem_cons, List.not_mem_nil, false_implies, implies_true, and_true]

/-- R55, R64: with or without the lone bit. -/
theorem decodeWord_intWords {major : Nat} (hmajor : major % 64 = 0x20) :
    decodeWord (wordOf major rd ra (lowOf rb p.2)) = .ok p.1 := by
  have hlow := lowOf_lt rb (intWords_lt hp)
  simp only [decodeWord, wordOf_major _ _ _ hlow, hmajor, decodeInt_intWords hp]

theorem decodeBundle_intWords :
    decodeBundle (BitVec.ofNat 32 (2^31 + wordOf 0x20 rd ra (lowOf rb p.2))) 0 = .lone p.1 .nop := by
  have hlt := wordOf_lt 0x20 rd ra (lowOf_lt rb (intWords_lt hp)) (by decide)
  have hword : (BitVec.ofNat 32 (2^31 + wordOf 0x20 rd ra (lowOf rb p.2))).toNat
      = 2^31 + wordOf 0x20 rd ra (lowOf rb p.2) := by
    rw [BitVec.toNat_ofNat, Nat.mod_eq_of_lt]
    omega
  refine decodeBundle_lone ?lone ?word (loopEndsHere_intWords hp) decodeSecond_zero
  case lone => omega
  case word => rw [hword, two_pow_31_add_wordOf, decodeWord_intWords hp rfl]
end IntWords

/-- The BITS instructions with the register in their second source field, x0 where they have one source, and their functions
(R64, R118). -/
def bitsWords (rd ra rb : Reg) : List (Instr × Reg × Nat) :=
  [(.clz rd ra, 0, 0), (.ctz rd ra, 0, 1), (.popc rd ra, 0, 2), (.bext rd ra rb, rb, 3), (.bins rd ra rb, rb, 4),
    (.sext rd ra rb, rb, 5), (.zext rd ra rb, rb, 6), (.lea rd ra rb, rb, 7), (.lea2 rd ra rb, rb, 8),
    (.lea4 rd ra rb, rb, 9), (.lea8 rd ra rb, rb, 10)]

section BitsWords
variable {rd ra rb : Reg} {p : Instr × Reg × Nat} (hp : p ∈ bitsWords rd ra rb)
include hp

theorem bitsWords_lt : p.2.2 < 128 := by
  revert p
  simp only [bitsWords, List.forall_mem_cons, List.not_mem_nil, false_implies, implies_true, and_true, Nat.reduceLT]

theorem encodeWord_bitsWords : encodeWord p.1 = some (wordOf 0x2A rd ra (lowOf p.2.1 p.2.2)) := by
  have oneSource (fn : Nat) := congrArg some (pack_oneSource 0x2A rd ra fn)
  have twoSources (fn : Nat) := congrArg some (pack_registers 0x2A rd ra rb fn)
  revert p
  simp only [bitsWords, List.forall_mem_cons, List.not_mem_nil, false_implies, implies_true, and_true]
  exact ⟨oneSource 0, oneSource 1, oneSource 2, twoSources 3, twoSources 4, twoSources 5, twoSources 6, twoSources 7,
    twoSources 8, twoSources 9, twoSources 10⟩

/-- R64: the function alone chooses the instruction of major 0x2A; a word of one source has 0 in the field of the second. -/
theorem decodeBits_bitsWords : decodeBits (wordOf 0x2A rd ra (lowOf p.2.1 p.2.2)) = .ok p.1 := by
  have hfn := bitsWords_lt hp
  have hlow := lowOf_lt p.2.1 hfn
  simp only [decodeBits, wordOf_lowOf_fn _ _ _ _ hfn, wordOf_x _ _ _ hlow, wordOf_y _ _ _ hlow,
    wordOf_lowOf_rb _ _ _ _ hfn, wordOf_lowOf_second _ _ _ _ hfn]
  clear hfn hlow
  have hzero : (0 : Reg).toNat = 0 := rfl
  revert p
  simp only [bitsWords, List.forall_mem_cons, List.not_mem_nil, false_implies, implies_true, and_true, hzero, if_true]

theorem decodeWord_bitsWords : decodeWord (wordOf 0x2A rd ra (lowOf p.2.1 p.2.2)) = .ok p.1 := by
  have hlow := lowOf_lt p.2.1 (bitsWords_lt hp)
  simp only [decodeWord, wordOf_major _ _ _ hlow, decodeBits_bitsWords hp]
end BitsWords

/-- The branches with their majors (R58, R123). -/
def branchWords (ra rb : Reg) (off : BitVec 13) : List (Instr × Nat) :=
  [(.beq ra rb off, 4), (.bne ra rb off, 5), (.blt ra rb off, 6), (.bge ra rb off, 7), (.bltu ra rb off, 8),
    (.bgeu ra rb off, 9)]

section BranchWords
variable {ra rb : Reg} {off : BitVec 13} {p : Instr × Nat} (hp : p ∈ branchWords ra rb off)
include hp

theorem encodeWord_branchWords : encodeWord p.1 = some (wordOf p.2 ra rb off.toNat) := by
  have hpack (major : Nat) := congrArg some (pack_offset major ra rb off)
  revert p
  simp only [branchWords, List.forall_mem_cons, List.not_mem_nil, false_implies, implies_true, and_true]
  exact ⟨hpack 4, hpack 5, hpack 6, hpack 7, hpack 8, hpack 9⟩

/-- R58: the major alone chooses the branch. -/
theorem decodeWord_branchWords : decodeWord (wordOf p.2 ra rb off.toNat) = .ok p.1 := by
  revert p
  simp only [branchWords, List.forall_mem_cons, List.not_mem_nil, false_implies, implies_true, and_true,
    decodeWord, wordOf_major _ _ _ off.isLt, Nat.reduceMod, decodeBeq, decodeBne, decodeBlt, decodeBge, decodeBltu,
    decodeBgeu, wordOf_x _ _ _ off.isLt, wordOf_y _ _ _ off.isLt, wordOf_off]
end BranchWords

end Sys2Proof
end

section
/-!
Integer arithmetic: each function of R112 to R114 as the model computes it on bit vectors, read as the integer its table gives.
-/
namespace Sys2Proof.Machine

variable {n : Nat} (a b : BitVec n)

/-- Modulo 2^n a sum is that of the unsigned values, or of the signed ones. -/
theorem add_eq_ofNat : a + b = BitVec.ofNat n (a.toNat + b.toNat) := by
  rw [BitVec.ofNat_add, BitVec.ofNat_toNat, BitVec.ofNat_toNat, BitVec.setWidth_eq, BitVec.setWidth_eq]

theorem add_eq_ofInt : a + b = BitVec.ofInt n (a.toInt + b.toInt) := by
  rw [BitVec.ofInt_add, BitVec.ofInt_toInt, BitVec.ofInt_toInt]

theorem sub_eq_ofInt : a - b = BitVec.ofInt n (a.toInt - b.toInt) := by
  rw [BitVec.sub_eq_add_neg, Int.sub_eq_add_neg, BitVec.ofInt_add, BitVec.ofInt_neg, BitVec.ofInt_toInt, BitVec.ofInt_toInt]

theorem mul_eq_ofNat : a * b = BitVec.ofNat n (a.toNat * b.toNat) := by
  rw [BitVec.ofNat_mul, BitVec.ofNat_toNat, BitVec.ofNat_toNat, BitVec.setWidth_eq, BitVec.setWidth_eq]

theorem mul_eq_ofInt : a * b = BitVec.ofInt n (a.toInt * b.toInt) := by
  rw [BitVec.ofInt_mul, BitVec.ofInt_toInt, BitVec.ofInt_toInt]

theorem shiftLeft_eq_ofNat (k : Nat) : a <<< k = BitVec.ofNat n (a.toNat * 2^k) := by
  apply BitVec.eq_of_toNat_eq
  rw [BitVec.toNat_shiftLeft, BitVec.toNat_ofNat, Nat.shiftLeft_eq]

theorem shiftLeft_eq_ofInt (k : Nat) : a <<< k = BitVec.ofInt n (a.toInt * 2^k) := by
  have hpow : BitVec.ofInt n (2^k) = BitVec.ofNat n (2^k) := BitVec.ofInt_natCast n (2^k)
  rw [BitVec.ofInt_mul, BitVec.ofInt_toInt, hpow, shiftLeft_eq_ofNat, BitVec.ofNat_mul, BitVec.ofNat_toNat,
    BitVec.setWidth_eq]

theorem ushiftRight_eq_ofNat (k : Nat) : a >>> k = BitVec.ofNat n (a.toNat / 2^k) := by
  rw [← Nat.shiftRight_eq_div_pow, ← BitVec.toNat_ushiftRight, BitVec.ofNat_toNat, BitVec.setWidth_eq]

theorem sshiftRight_eq_ofInt (k : Nat) : a.sshiftRight k = BitVec.ofInt n (a.toInt / 2^k) := by
  rw [← BitVec.ofInt_toInt (x := a.sshiftRight k), BitVec.toInt_sshiftRight, Int.shiftRight_eq_div_pow]
  norm_cast

theorem flag_slt (a b : Word) : flag (a.slt b) = if a.toInt < b.toInt then 1 else 0 := by
  rw [BitVec.slt_eq_decide]
  by_cases h : a.toInt < b.toInt
  · rw [if_pos h, decide_eq_true h]
    rfl
  · rw [if_neg h, decide_eq_false h]
    rfl

theorem flag_ult (a b : Word) : flag (a.ult b) = if a.toNat < b.toNat then 1 else 0 := by
  rw [BitVec.ult_eq_decide]
  by_cases h : a.toNat < b.toNat
  · rw [if_pos h, decide_eq_true h]
    rfl
  · rw [if_neg h, decide_eq_false h]
    rfl

theorem smin_eq_ofInt : (if b.slt a then b else a) = BitVec.ofInt n (min a.toInt b.toInt) := by
  simp only [BitVec.slt_iff_toInt_lt]
  split
  · rw [Int.min_eq_right (by omega), BitVec.ofInt_toInt]
  · rw [Int.min_eq_left (by omega), BitVec.ofInt_toInt]

theorem smax_eq_ofInt : (if a.slt b then b else a) = BitVec.ofInt n (max a.toInt b.toInt) := by
  simp only [BitVec.slt_iff_toInt_lt]
  split
  · rw [Int.max_eq_right (by omega), BitVec.ofInt_toInt]
  · rw [Int.max_eq_left (by omega), BitVec.ofInt_toInt]

theorem umin_eq_ofNat : (if b.ult a then b else a) = BitVec.ofNat n (min a.toNat b.toNat) := by
  simp only [BitVec.ult_iff_toNat_lt]
  split
  · rw [Nat.min_eq_right (by omega), BitVec.ofNat_toNat, BitVec.setWidth_eq]
  · rw [Nat.min_eq_left (by omega), BitVec.ofNat_toNat, BitVec.setWidth_eq]

theorem umax_eq_ofNat : (if a.ult b then b else a) = BitVec.ofNat n (max a.toNat b.toNat) := by
  simp only [BitVec.ult_iff_toNat_lt]
  split
  · rw [Nat.max_eq_right (by omega), BitVec.ofNat_toNat, BitVec.setWidth_eq]
  · rw [Nat.max_eq_left (by omega), BitVec.ofNat_toNat, BitVec.setWidth_eq]

theorem highWord_natCast (p : Nat) : highWord (p : Int) = BitVec.ofNat 64 (p / 2^64) := by
  rw [highWord, ← BitVec.ofInt_natCast]
  norm_cast

theorem toInt_eq_zero_iff : a.toInt = 0 ↔ a = 0 := by
  rw [← BitVec.toInt_inj, BitVec.ofNat_eq_ofNat, BitVec.toInt_zero]

theorem toNat_eq_zero_iff : a.toNat = 0 ↔ a = 0 := by
  rw [← BitVec.toNat_inj, BitVec.ofNat_eq_ofNat, BitVec.toNat_ofNat, Nat.zero_mod]

theorem intMax_eq_ofInt : BitVec.intMax n = BitVec.ofInt n (2^(n - 1) - 1) := by
  rw [← BitVec.toInt_intMax, BitVec.ofInt_toInt]

theorem intMin_eq_ofInt (hn : 0 < n) : BitVec.intMin n = BitVec.ofInt n (-2^(n - 1)) := by
  rw [← BitVec.toInt_intMin_of_pos hn, BitVec.ofInt_toInt]

/-- R114: the quotient by zero. -/
theorem divS_zero (hn : 0 < n) : divS a 0 = BitVec.ofInt n (quotientS n a.toInt 0) := by
  rw [divS, quotientS, if_pos rfl, if_pos rfl]
  by_cases h0 : a = 0
  · rw [if_pos h0, if_pos ((toInt_eq_zero_iff a).2 h0)]
    exact (BitVec.ofInt_natCast n 0).symm
  · have hne : a.toInt ≠ 0 := fun h => h0 ((toInt_eq_zero_iff a).1 h)
    rw [if_neg h0, if_neg hne, BitVec.msb_eq_toInt]
    by_cases hneg : a.toInt < 0
    · simp only [hneg, decide_true, if_true, if_neg (Int.not_lt.2 (Int.le_of_lt hneg)), intMin_eq_ofInt hn]
    · have hpos : 0 < a.toInt := by omega
      simp only [hneg, decide_false, Bool.false_eq_true, if_false, if_pos hpos, intMax_eq_ofInt]

/-- R114: the only quotient that saturates. -/
theorem quotientS_intMin_allOnes (hn : 0 < n) :
    quotientS n (BitVec.intMin n).toInt (BitVec.allOnes n).toInt = 2^(n - 1) - 1 := by
  rw [BitVec.toInt_allOnes, if_pos hn, BitVec.toInt_intMin_of_pos hn, quotientS, if_neg (by decide), Int.tdiv_neg,
    Int.tdiv_one, Int.neg_neg]
  exact Int.min_eq_right (by omega)

/-- Every other quotient is an n-bit value. -/
theorem quotientS_eq_sdiv (hb : b ≠ 0) (h : a ≠ BitVec.intMin n ∨ b ≠ BitVec.allOnes n) :
    quotientS n a.toInt b.toInt = (a.sdiv b).toInt := by
  rw [← BitVec.neg_one_eq_allOnes] at h
  have hlt := BitVec.toInt_lt (x := a.sdiv b)
  rw [BitVec.toInt_sdiv_of_ne_or_ne a b h] at hlt ⊢
  rw [quotientS, if_neg fun h0 => hb ((toInt_eq_zero_iff b).1 h0)]
  exact Int.min_eq_left (by omega)

theorem divS_eq_ofInt (hn : 0 < n) : divS a b = BitVec.ofInt n (quotientS n a.toInt b.toInt) := by
  by_cases hb : b = 0
  · rw [hb, divS_zero a hn, (toInt_eq_zero_iff (0 : BitVec n)).2 rfl]
  · rw [divS, if_neg hb]
    split
    next h =>
      obtain ⟨rfl, rfl⟩ := h
      rw [quotientS_intMin_allOnes hn, intMax_eq_ofInt]
    next h => rw [quotientS_eq_sdiv a b hb (Decidable.not_and_iff_not_or_not.1 h), BitVec.ofInt_toInt]

theorem divU_eq_ofNat : divU a b = BitVec.ofNat n (quotientU n a.toNat b.toNat) := by
  apply BitVec.eq_of_toNat_eq
  simp only [divU, quotientU, toNat_eq_zero_iff]
  by_cases hb : b = 0
  · rw [if_pos hb, if_pos hb]
    by_cases ha : a = 0
    · rw [if_pos ha, if_pos ha]
      rfl
    · rw [if_neg ha, if_neg ha, BitVec.toNat_allOnes, BitVec.toNat_ofNat,
        Nat.mod_eq_of_lt (Nat.sub_lt (Nat.two_pow_pos n) Nat.one_pos)]
  · rw [if_neg hb, if_neg hb, ← BitVec.toNat_udiv, BitVec.ofNat_toNat, BitVec.setWidth_eq]

theorem remS_eq_ofInt : remS a b = BitVec.ofInt n (remainderS a.toInt b.toInt) := by
  simp only [remS, remainderS, toInt_eq_zero_iff]
  by_cases hb : b = 0
  · rw [if_pos hb, if_pos hb, BitVec.ofInt_toInt]
  · rw [if_neg hb, if_neg hb, ← BitVec.toInt_srem, BitVec.ofInt_toInt]

theorem remU_eq_ofNat : remU a b = BitVec.ofNat n (a.toNat % b.toNat) := by
  rw [← BitVec.toNat_umod, BitVec.ofNat_toNat, BitVec.setWidth_eq, remU]
  by_cases hb : b = 0
  · rw [if_pos hb, hb]
    exact BitVec.umod_zero.symm
  · rw [if_neg hb]

theorem add_mul_eq_ofNat (k : Nat) : a + b * BitVec.ofNat n k = BitVec.ofNat n (a.toNat + b.toNat * k) := by
  rw [BitVec.ofNat_add, BitVec.ofNat_mul, BitVec.ofNat_toNat, BitVec.ofNat_toNat, BitVec.setWidth_eq, BitVec.setWidth_eq]

end Sys2Proof.Machine
end

section
/-!
Bit operations: the counts and the fields of R118 as the model computes them, bit by bit.
-/
namespace Sys2Proof.Machine

theorem leadingZeros_le (v n : Nat) : leadingZeros v n ≤ n := by
  induction n with
  | zero => exact Nat.le_refl 0
  | succ n ih =>
    rw [leadingZeros]
    split <;> omega

/-- Bits n-1:0 below the leading zeros are those of the whole value. -/
theorem lt_two_pow_sub_leadingZeros {v n : Nat} (h : v < 2^n) : v < 2^(n - leadingZeros v n) := by
  induction n with
  | zero => exact h
  | succ n ih =>
    rw [leadingZeros]
    split
    next => exact h
    next hbit =>
      have hv : v < 2^n := by
        refine Nat.lt_pow_two_of_testBit v fun i hi => ?_
        obtain rfl | hlt := Nat.eq_or_lt_of_le hi
        · exact Bool.eq_false_iff.2 hbit
        · exact Nat.testBit_lt_two_pow (Nat.lt_of_lt_of_le h (Nat.pow_le_pow_right Nat.two_pos hlt))
      rw [Nat.add_comm 1, Nat.add_sub_add_right]
      exact ih hv

/-- The bit below the leading zeros is one. -/
theorem two_pow_le_of_leadingZeros_lt {v n : Nat} (h : leadingZeros v n < n) : 2^(n - 1 - leadingZeros v n) ≤ v := by
  induction n with
  | zero => exact absurd h (Nat.not_lt_zero _)
  | succ n ih =>
    rw [leadingZeros] at h ⊢
    split at h
    next hbit =>
      rw [if_pos hbit]
      exact Nat.ge_two_pow_of_testBit hbit
    next hbit =>
      rw [if_neg hbit]
      have heq : n + 1 - 1 - (1 + leadingZeros v n) = n - 1 - leadingZeros v n := by omega
      rw [heq]
      exact ih (by omega)

theorem trailingZeros_le (v i n : Nat) : trailingZeros v i n ≤ n := by
  induction n generalizing i with
  | zero => exact Nat.le_refl 0
  | succ n ih =>
    have hle := ih (i + 1)
    rw [trailingZeros]
    split <;> omega

theorem testBit_of_lt_trailingZeros {v i n k : Nat} (h : k < trailingZeros v i n) : v.testBit (i + k) = false := by
  induction n generalizing i k with
  | zero => exact absurd h (Nat.not_lt_zero k)
  | succ n ih =>
    rw [trailingZeros] at h
    split at h
    next => exact absurd h (Nat.not_lt_zero k)
    next hbit =>
      cases k with
      | zero => exact Bool.eq_false_iff.2 hbit
      | succ k =>
        rw [Nat.add_comm k, ← Nat.add_assoc]
        exact ih (by omega)

theorem testBit_trailingZeros {v i n : Nat} (h : trailingZeros v i n < n) : v.testBit (i + trailingZeros v i n) = true := by
  induction n generalizing i with
  | zero => exact absurd h (Nat.not_lt_zero _)
  | succ n ih =>
    rw [trailingZeros] at h ⊢
    split at h
    next hbit => rwa [if_pos hbit]
    next hbit =>
      rw [if_neg hbit, ← Nat.add_assoc]
      exact ih (by omega)

theorem popCount_eq_countP (v n : Nat) : popCount v n = (List.range n).countP (fun i => v.testBit i) := by
  induction n with
  | zero => rfl
  | succ n ih =>
    rw [popCount, ih, List.range_succ, List.countP_append, List.countP_singleton, Nat.add_comm, bit]
    cases v.testBit n <;> rfl

/-- A bit of a register value. -/
theorem getLsbD_word (v : Nat) {i : Nat} (hi : i < 64) : (word v).getLsbD i = v.testBit i := by
  rw [word, BitVec.getLsbD_ofNat, decide_eq_true hi, Bool.true_and]

/-- R118: the position and the width in x[rb]. -/
theorem fieldOf_eq (b : Word) :
    fieldOf b = (b.toNat % 64, min (b.toNat / 256 % 128) (64 - b.toNat % 64)) := by
  simp only [fieldOf, field, Nat.pow_zero, Nat.div_one, Nat.reducePow]

theorem getLsbD_extractField (a : Word) {b : Word} {p w i : Nat} (hb : fieldOf b = (p, w)) (hi : i < 64) :
    (extractField a b).getLsbD i = (decide (i < w) && a.getLsbD (p + i)) := by
  rw [extractField, hb, getLsbD_word _ hi, Nat.testBit_mod_two_pow, Nat.testBit_div_two_pow, Nat.add_comm i]
  rfl

/-- The value with a field replaced is what stands above the field, the new field and what stands below it. -/
theorem replaceField_eq (old a p w : Nat) :
    old - old / 2^p % 2^w * 2^p + a % 2^w * 2^p = 2^p * (2^w * (old / 2^p / 2^w) + a % 2^w) + old % 2^p := by
  have hold : 2^p * (old / 2^p) + old % 2^p = old := Nat.div_add_mod _ _
  have hupper : 2^w * (old / 2^p / 2^w) + old / 2^p % 2^w = old / 2^p := Nat.div_add_mod _ _
  have hsplit : 2^p * (2^w * (old / 2^p / 2^w)) + old / 2^p % 2^w * 2^p = 2^p * (old / 2^p) := by
    rw [Nat.mul_comm (_ % _), ← Nat.mul_add, hupper]
  rw [Nat.mul_add, Nat.mul_comm (a % 2^w)]
  omega

theorem testBit_replaceField (old a p w i : Nat) :
    (old - old / 2^p % 2^w * 2^p + a % 2^w * 2^p).testBit i
      = if p ≤ i ∧ i < p + w then a.testBit (i - p) else old.testBit i := by
  have hlow : old % 2^p < 2^p := Nat.mod_lt _ (Nat.two_pow_pos p)
  have hfield : a % 2^w < 2^w := Nat.mod_lt _ (Nat.two_pow_pos w)
  rw [replaceField_eq, Nat.testBit_two_pow_mul_add _ hlow, Nat.testBit_two_pow_mul_add _ hfield]
  by_cases hp : i < p
  · simp only [hp, if_true, Nat.testBit_mod_two_pow, decide_true, Bool.true_and, Nat.not_le.2 hp, false_and, if_false]
  · by_cases hw : i - p < w
    · have hin : p ≤ i ∧ i < p + w := by omega
      simp only [hp, if_false, hw, if_true, Nat.testBit_mod_two_pow, decide_true, Bool.true_and, hin, and_self]
    · have hout : ¬(p ≤ i ∧ i < p + w) := by omega
      have hindex : i - p - w + w + p = i := by omega
      simp only [hp, hw, hout, if_false, Nat.testBit_div_two_pow, hindex]

theorem getLsbD_insertField (old a : Word) {b : Word} {p w i : Nat} (hb : fieldOf b = (p, w)) (hi : i < 64) :
    (insertField old a b).getLsbD i = if p ≤ i ∧ i < p + w then a.getLsbD (i - p) else old.getLsbD i := by
  rw [insertField, hb, getLsbD_word _ hi, testBit_replaceField]
  rfl

/-- R118: from bit p upward, bit p; below it, the value. -/
theorem getLsbD_signFrom (a : Word) {p i : Nat} (hp : p < 64) (hi : i < 64) :
    ((a <<< (63 - p)).sshiftRight (63 - p)).getLsbD i = a.getLsbD (min i p) := by
  rw [BitVec.getLsbD_sshiftRight, BitVec.msb_eq_getLsbD_last, BitVec.getLsbD_shiftLeft, BitVec.getLsbD_shiftLeft]
  by_cases h : 63 - p + i < 64
  · have hin : ¬ 64 ≤ i := by omega
    have habove : ¬ 63 - p + i < 63 - p := by omega
    rw [Nat.min_eq_left (by omega), Nat.add_sub_cancel_left]
    simp only [h, hin, habove, if_true, decide_true, decide_false, Bool.not_false, Bool.true_and]
  · rw [Nat.min_eq_right (by omega)]
    have hin : ¬ 64 ≤ i := by omega
    have habove : ¬ 64 - 1 < 63 - p := by omega
    have htop : 64 - 1 < 64 := by decide
    have hp' : 64 - 1 - (63 - p) = p := by omega
    simp only [h, hin, habove, htop, hp', if_false, decide_true, decide_false, Bool.not_false, Bool.true_and]

theorem getLsbD_zeroFrom (a : Word) (p : Nat) {i : Nat} (hi : i < 64) :
    (word (a.toNat % 2^(p + 1))).getLsbD i = (decide (i ≤ p) && a.getLsbD i) := by
  rw [getLsbD_word _ hi, Nat.testBit_mod_two_pow]
  simp only [Nat.lt_succ_iff]
  rfl

end Sys2Proof.Machine
end

section
/-!
What a register form and a branch do to the state (R112, R113, R118, R123).
-/
namespace Sys2Proof.Machine

section RegisterForms
variable {i : Instr} {s : State} {rd ra rb : Reg}

theorem writesReg_of_setX {v u : Word} (hi : exec i s = .next (s.setX rd v)) (hv : v = u) :
    ∃ t, exec i s = .next t ∧ WritesReg s t rd u := by
  subst hv
  exact ⟨_, hi, writesReg_setX s rd v⟩

/-- R112: a form of two sources writes its function's value of them. -/
theorem writesReg_of_alu {f : Word → Word → Word} {u : Word} (hi : exec i s = .next (s.alu f rd ra rb))
    (hv : f (s.x ra) (s.x rb) = u) : ∃ t, exec i s = .next t ∧ WritesReg s t rd u :=
  writesReg_of_setX hi hv

/-- R113: a W form writes its function's 32-bit value, which stands for the integer u, sign-extended. -/
theorem writesReg_of_aluW {f : BitVec 32 → BitVec 32 → BitVec 32} {u : Int} (hi : exec i s = .next (s.aluW f rd ra rb))
    (hv : f (s.x32 ra) (s.x32 rb) = BitVec.ofInt 32 u) : ∃ t, exec i s = .next t ∧ WritesReg s t rd (sext32 u) :=
  writesReg_of_setX hi (congrArg (BitVec.signExtend 64) hv)

/-- R113: a W form whose 32-bit value is unsigned. -/
theorem writesReg_of_aluW_nat {f : BitVec 32 → BitVec 32 → BitVec 32} {u : Nat} (hi : exec i s = .next (s.aluW f rd ra rb))
    (hv : f (s.x32 ra) (s.x32 rb) = BitVec.ofNat 32 u) : ∃ t, exec i s = .next t ∧ WritesReg s t rd (sext32 u) :=
  writesReg_of_aluW hi (hv.trans (BitVec.ofInt_natCast 32 u).symm)

/-- A form of two sources writes its function's value of them, whatever is said of that value. -/
theorem writesReg_alu_and {f : Word → Word → Word} {P : Word → Prop} (hi : exec i s = .next (s.alu f rd ra rb))
    (hP : P (f (s.x ra) (s.x rb))) : ∃ t v, exec i s = .next t ∧ WritesReg s t rd v ∧ P v :=
  ⟨_, _, hi, writesReg_setX s rd _, hP⟩
end RegisterForms

/-- R123 BNE. -/
theorem bne_eq_decide_ne (a b : Word) : (a != b) = decide (a ≠ b) :=
  (decide_not (p := a = b)).symm

/-- R123 BGE. -/
theorem not_slt_eq_decide (a b : Word) : (!a.slt b) = decide (b.toInt ≤ a.toInt) := by
  rw [BitVec.slt_eq_decide, ← decide_not, decide_eq_decide, Int.not_lt]

/-- R123 BGEU. -/
theorem not_ult_eq_decide (a b : Word) : (!a.ult b) = decide (b.toNat ≤ a.toNat) := by
  rw [BitVec.ult_eq_decide, ← decide_not, decide_eq_decide, Nat.not_lt]

/-- R123: the target of a branch, over the integers. -/
theorem offsetTarget_eq_ofInt (pc : Word) (off : BitVec 13) :
    offsetTarget pc off = BitVec.ofInt 64 (pc.toInt + 4 * off.toInt) := by
  rw [BitVec.ofInt_add, BitVec.ofInt_mul, BitVec.ofInt_toInt]
  rfl

/-- R123: a branch goes to its target when its condition holds, and changes nothing when it does not. -/
theorem transfers_or_nothing_of_branch {i : Instr} {s : State} {c d : Bool} {off : BitVec 13}
    (hi : exec i s = .next (s.branch c off)) (hc : c = d) :
    ∃ t, exec i s = .next t ∧
      if d then Transfers s t (BitVec.ofInt 64 (s.me.pc.toInt + 4 * off.toInt)) else Nothing s t := by
  subst hc
  refine ⟨_, hi, ?_⟩
  rw [← offsetTarget_eq_ofInt]
  cases c with
  | true => exact transfers_flowTo s _
  | false => exact ⟨rfl, fun _ => rfl⟩

end Sys2Proof.Machine
end

section
/-!
Scalar rules: the INT and W forms, the bit operations and the branches.
-/
namespace Sys2Proof
open Sys2Proof.Machine

/-- Settles O1: the values of the INT and of the W forms, then their words. -/
theorem intRegisterForms : Obligations.IntRegisterForms := by
  unfold Obligations.IntRegisterForms
  refine ⟨?int, ?wide, ?words⟩
  case int =>
    rintro s rd ra rb _ _ rfl rfl
    simp only [List.forall_mem_cons, List.not_mem_nil, false_implies, implies_true, and_true]
    exact ⟨writesReg_of_alu rfl (add_eq_ofNat _ _),
      writesReg_of_alu rfl (sub_eq_ofInt _ _),
      writesReg_of_alu rfl rfl, writesReg_of_alu rfl rfl, writesReg_of_alu rfl rfl,
      writesReg_of_alu rfl (shiftLeft_eq_ofNat _ _),
      writesReg_of_alu rfl (ushiftRight_eq_ofNat _ _),
      writesReg_of_alu rfl (sshiftRight_eq_ofInt _ _),
      writesReg_of_alu rfl (flag_slt _ _),
      writesReg_of_alu rfl (flag_ult _ _),
      writesReg_of_alu rfl (smin_eq_ofInt _ _),
      writesReg_of_alu rfl (smax_eq_ofInt _ _),
      writesReg_of_alu rfl (umin_eq_ofNat _ _),
      writesReg_of_alu rfl (umax_eq_ofNat _ _),
      writesReg_of_alu rfl (mul_eq_ofNat _ _),
      writesReg_of_alu rfl rfl,
      writesReg_of_alu rfl (highWord_natCast _),
      writesReg_of_alu rfl rfl,
      writesReg_of_alu rfl (divS_eq_ofInt _ _ (by decide)),
      writesReg_of_alu rfl (divU_eq_ofNat _ _),
      writesReg_of_alu rfl (remS_eq_ofInt _ _),
      writesReg_of_alu rfl (remU_eq_ofNat _ _)⟩
  case wide =>
    rintro s rd ra rb _ _ rfl rfl
    simp only [List.forall_mem_cons, List.not_mem_nil, false_implies, implies_true, and_true]
    exact ⟨writesReg_of_aluW rfl (add_eq_ofInt _ _),
      writesReg_of_aluW rfl (sub_eq_ofInt _ _),
      writesReg_of_aluW rfl (shiftLeft_eq_ofInt _ _),
      writesReg_of_aluW_nat rfl (ushiftRight_eq_ofNat _ _),
      writesReg_of_aluW rfl (sshiftRight_eq_ofInt _ _),
      writesReg_of_aluW rfl (mul_eq_ofInt _ _),
      writesReg_of_aluW rfl (divS_eq_ofInt _ _ (by decide)),
      writesReg_of_aluW_nat rfl (divU_eq_ofNat _ _),
      writesReg_of_aluW rfl (remS_eq_ofInt _ _),
      writesReg_of_aluW_nat rfl (remU_eq_ofNat _ _)⟩
  case words =>
    rintro rd ra rb p hp _ rfl
    have hmem : p ∈ intWords rd ra rb := hp
    have hword : 0x20 * 2^25 + rd.toNat * 2^19 + ra.toNat * 2^13 + rb.toNat * 2^7 + p.2
      = wordOf 0x20 rd ra (lowOf rb p.2) := Nat.add_assoc _ _ _
    rw [hword]
    exact ⟨encodeWord_intWords hmem, decodeWord_intWords hmem rfl, decodeBundle_intWords hmem⟩

/-- Settles O3: the counts, the operations of two sources bit by bit, then the words. -/
theorem bitOperations : Obligations.BitOperations := by
  unfold Obligations.BitOperations
  refine ⟨?counts, ?fields, ?words⟩
  case counts =>
    rintro s rd ra _ rfl
    refine ⟨⟨_, _, rfl, writesReg_setX _ _ _, leadingZeros_le _ _, lt_two_pow_sub_leadingZeros (s.x ra).isLt,
        two_pow_le_of_leadingZeros_lt⟩,
      ⟨_, _, rfl, writesReg_setX _ _ _, trailingZeros_le _ _ _, fun j hj => ?_, fun hlt => ?_⟩,
      writesReg_of_setX rfl (congrArg word (popCount_eq_countP _ _))⟩
    · have hbit := testBit_of_lt_trailingZeros hj
      rwa [Nat.zero_add] at hbit
    · have hbit := testBit_trailingZeros hlt
      rwa [Nat.zero_add] at hbit
  case fields =>
    rintro s rd ra rb _ _ rfl rfl p w hp hw
    have hfield : fieldOf (s.x rb) = (p, w) := by rw [fieldOf_eq, hw, hp]
    refine ⟨writesReg_alu_and rfl fun i hi => ?bext, writesReg_alu_and rfl fun i hi => ?bins,
      writesReg_alu_and rfl fun i hi => ?sext, writesReg_alu_and rfl fun i hi => ?zext, ?lea⟩
    case bext => exact getLsbD_extractField _ hfield hi
    case bins => exact getLsbD_insertField _ _ hfield hi
    case sext =>
      rw [hp]
      exact getLsbD_signFrom _ (Nat.mod_lt _ (by decide)) hi
    case zext =>
      rw [hp]
      exact getLsbD_zeroFrom _ _ hi
    case lea =>
      simp only [List.forall_mem_cons, List.not_mem_nil, false_implies, implies_true, and_true]
      refine ⟨writesReg_of_alu rfl ?one, writesReg_of_alu rfl (add_mul_eq_ofNat _ _ 2),
        writesReg_of_alu rfl (add_mul_eq_ofNat _ _ 4), writesReg_of_alu rfl (add_mul_eq_ofNat _ _ 8)⟩
      rw [Nat.mul_one]
      exact add_eq_ofNat _ _
  case words =>
    intro rd ra rb
    change ∀ p ∈ (bitsWords rd ra rb).map (fun p => (p.1, p.2.1.toNat, p.2.2)), _
    rw [List.forall_mem_map]
    rintro p hp _ rfl
    have hword : 0x2A * 2^25 + rd.toNat * 2^19 + ra.toNat * 2^13 + p.2.1.toNat * 2^7 + p.2.2
      = wordOf 0x2A rd ra (lowOf p.2.1 p.2.2) := Nat.add_assoc _ _ _
    rw [hword]
    exact ⟨encodeWord_bitsWords hp, decodeWord_bitsWords hp⟩

/-- Settles O6: each branch by the meaning of its comparison, then the words. -/
theorem branches : Obligations.Branches := by
  unfold Obligations.Branches
  refine ⟨?exec, ?words⟩
  case exec =>
    rintro s ra rb off _ _ rfl rfl
    simp only [List.forall_mem_cons, List.not_mem_nil, false_implies, implies_true, and_true]
    exact ⟨transfers_or_nothing_of_branch rfl rfl,
      transfers_or_nothing_of_branch rfl (bne_eq_decide_ne _ _),
      transfers_or_nothing_of_branch rfl BitVec.slt_eq_decide,
      transfers_or_nothing_of_branch rfl (not_slt_eq_decide _ _),
      transfers_or_nothing_of_branch rfl BitVec.ult_eq_decide,
      transfers_or_nothing_of_branch rfl (not_ult_eq_decide _ _)⟩
  case words =>
    rintro ra rb off p hp _ rfl
    have hmem : p ∈ branchWords ra rb off := hp
    exact ⟨encodeWord_branchWords hmem, decodeWord_branchWords hmem⟩

end Sys2Proof
end

section
/-!
Memory rules: what an update of one flume leaves alone (R186), and what FWAITF and FWAITE (R183) and FPROD and FCONS (R184) do,
each pair through the operation that its two words share.
-/
namespace Sys2Proof.Machine

/-- R134, R135: a precise trap without sub-code and lane that goes to the thread's own handler. -/
theorem takesTrap_fault (s : State) {c : Cause} (tval tval2 : Word) (hinh : s.me.inh = false) (hc : c.handled = true) :
    TakesTrap s (s.fault c tval tval2) ⟨c, tval, tval2, 0, 0xFF⟩ :=
  takesTrap_raise s ⟨c, tval, tval2, 0, 0xFF⟩ hinh hc

/-- A word that ends in the state it began in. -/
theorem nothing_refl (s : State) : Nothing s s := ⟨rfl, fun _ => rfl⟩

/-- A change of one core's record changes nothing else. -/
theorem onlyCore_modCore (s : State) (c : Nat) (f : Core → Core) : OnlyCore s (s.modCore c f) c :=
  ⟨rfl, fun d hd => State.coreAt_modCore_other s c d f hd, fun _ => rfl⟩

/-- The number of a flume is below 16, so setting it changes that entry of the core's flumes. -/
theorem Core.setFlume_toNat (k : Core) (n : BitVec 4) (f : Flume) :
    k.setFlume n.toNat f = { k with flumes := k.flumes.set n.toNat f n.isLt } := dif_pos n.isLt

theorem State.coreAt_setFlume (s : State) (n : BitVec 4) (f : Flume) : (s.setFlume n f).coreAt s.here =
    { s.coreAt s.here with flumes := (s.coreAt s.here).flumes.set n.toNat f n.isLt } :=
  (State.coreAt_modCore_same s s.here _).trans (Core.setFlume_toNat _ n f)

/-- A flume after one has been set. -/
theorem State.flume_setFlume (s : State) (n g : BitVec 4) (f : Flume) :
    (s.setFlume n f).flume g = if g = n then f else s.flume g := by
  have hcore : (s.setFlume n f).flume g = ((s.setFlume n f).coreAt s.here).flumes.get g.toFin := rfl
  have hsame : n.toNat = g.toNat ↔ g = n := ⟨fun h => (BitVec.eq_of_toNat_eq h).symm, fun h => h ▸ rfl⟩
  rw [hcore, State.coreAt_setFlume]
  refine (Vector.getElem_set n.isLt g.isLt).trans ?_
  simp only [hsame]
  rfl

/-- R186: flume fl of the executing thread's core reads as f; no other flume, no vector register, nothing else of the package
and no byte of memory changes. -/
def UpdatesFlume (s t : State) (fl : BitVec 4) (f : Flume) : Prop :=
  OnlyCore s t s.here ∧ t.flume fl = f ∧ (∀ g, g ≠ fl → t.flume g = s.flume g) ∧
    (t.coreAt s.here).vregs = (s.coreAt s.here).vregs

theorem updatesFlume_setFlume (s : State) (fl : BitVec 4) (f : Flume) : UpdatesFlume s (s.setFlume fl f) fl f := by
  refine ⟨onlyCore_modCore s s.here _, ?_, fun g hg => ?_, ?_⟩
  · rw [State.flume_setFlume, if_pos rfl]
  · rw [State.flume_setFlume, if_neg hg]
  · rw [State.coreAt_setFlume]

section FlumeWaits
variable {s : State} {fl : BitVec 4} {n : Nat} {slots : Flume → Nat} {w : Wait}

/-- R186: a waiter whose condition held at an update goes on, whatever the flume holds when its word issues. -/
theorem nothing_flumeWait_of_woke (hwoke : s.me.woke = some w) : Nothing s (s.flumeWait fl n slots w) := by
  rw [State.flumeWait, if_pos hwoke]
  exact nothing_refl s

theorem nothing_flumeWait_of_enough (hconf : (s.flume fl).configured = true) (hk : n ≤ 2^(s.flume fl).k)
    (hn : n ≤ slots (s.flume fl)) : Nothing s (s.flumeWait fl n slots w) := by
  simp only [State.flumeWait, hconf, Bool.not_true, Bool.false_eq_true, if_false, if_neg (Nat.not_lt.2 hk),
    if_neg (Nat.not_lt.2 hn), ite_self]
  exact nothing_refl s

theorem waits_flumeWait_of_few (hwoke : s.me.woke = none) (hconf : (s.flume fl).configured = true)
    (hk : n ≤ 2^(s.flume fl).k) (hn : slots (s.flume fl) < n) : Waits s (s.flumeWait fl n slots w) w := by
  simp only [State.flumeWait, hwoke, reduceCtorEq, hconf, Bool.not_true, Bool.false_eq_true, if_false,
    if_neg (Nat.not_lt.2 hk), if_pos hn]
  exact waits_wait s w

theorem takesTrap_flumeWait_of_unconfigured (hinh : s.me.inh = false) (hwoke : s.me.woke = none)
    (hconf : (s.flume fl).configured = false) :
    TakesTrap s (s.flumeWait fl n slots w) ⟨.flume, fl.setWidth 64, 0, 0, 0xFF⟩ := by
  simp only [State.flumeWait, hwoke, reduceCtorEq, hconf, Bool.not_false, if_true, if_false]
  exact takesTrap_fault s _ _ hinh rfl

theorem takesTrap_flumeWait_of_above (hinh : s.me.inh = false) (hwoke : s.me.woke = none)
    (hconf : (s.flume fl).configured = true) (hk : 2^(s.flume fl).k < n) :
    TakesTrap s (s.flumeWait fl n slots w) ⟨.flume, fl.setWidth 64, BitVec.ofNat 64 n, 0, 0xFF⟩ := by
  simp only [State.flumeWait, hwoke, reduceCtorEq, hconf, Bool.not_true, Bool.false_eq_true, if_false, if_pos hk]
  exact takesTrap_fault s _ _ hinh rfl
end FlumeWaits

/-- R184: what FPROD and FCONS share: a check of the flume, a wait, a check of n against the slots there are, and the update. -/
def State.flumeUpdate (s : State) (fl : BitVec 4) (n : Nat) (waits : Bool) (slots : Nat) (f : Flume) : State :=
  if !(s.flume fl).configured then s.fault .flume (fl.setWidth 64) 0
  else if waits then s.wait (.performed .core true)
  else if slots < n then s.fault .flume (fl.setWidth 64) (word n)
  else s.setFlume fl f

theorem exec_fprod (s : State) (ra : Reg) (fl : BitVec 4) :
    exec (.fprod ra fl) s = .next (s.flumeUpdate fl (s.x ra).toNat (!s.released s.cur .core true)
      (2^(s.flume fl).k - (s.flume fl).filled) ((s.flume fl).produce (s.x ra).toNat)) := by
  simp only [State.flumeUpdate, apply_ite Host.Outcome.next]
  rfl

theorem exec_fcons (s : State) (ra : Reg) (fl : BitVec 4) :
    exec (.fcons ra fl) s = .next (s.flumeUpdate fl (s.x ra).toNat (s.vectorMemoryBusy s.cur)
      (s.flume fl).filled ((s.flume fl).consume (s.x ra).toNat)) := by
  simp only [State.flumeUpdate, apply_ite Host.Outcome.next]
  rfl

section FlumeUpdates
variable {s : State} {fl : BitVec 4} {n slots : Nat} {waits : Bool} {f : Flume}

theorem takesTrap_flumeUpdate_of_unconfigured (hinh : s.me.inh = false) (hconf : (s.flume fl).configured = false) :
    TakesTrap s (s.flumeUpdate fl n waits slots f) ⟨.flume, fl.setWidth 64, 0, 0, 0xFF⟩ := by
  simp only [State.flumeUpdate, hconf, Bool.not_false, if_true]
  exact takesTrap_fault s _ _ hinh rfl

theorem waits_flumeUpdate (hconf : (s.flume fl).configured = true) (hwaits : waits = true) :
    Waits s (s.flumeUpdate fl n waits slots f) (.performed .core true) := by
  simp only [State.flumeUpdate, hconf, hwaits, Bool.not_true, Bool.false_eq_true, if_false, if_true]
  exact waits_wait s _

theorem takesTrap_flumeUpdate_of_above (hinh : s.me.inh = false) (hconf : (s.flume fl).configured = true)
    (hwaits : waits = false) (hn : slots < n) :
    TakesTrap s (s.flumeUpdate fl n waits slots f) ⟨.flume, fl.setWidth 64, BitVec.ofNat 64 n, 0, 0xFF⟩ := by
  simp only [State.flumeUpdate, hconf, hwaits, Bool.not_true, Bool.false_eq_true, if_false, if_pos hn]
  exact takesTrap_fault s _ _ hinh rfl

theorem updatesFlume_flumeUpdate (hconf : (s.flume fl).configured = true) (hwaits : waits = false) (hn : n ≤ slots) :
    UpdatesFlume s (s.flumeUpdate fl n waits slots f) fl f := by
  simp only [State.flumeUpdate, hconf, hwaits, Bool.not_true, Bool.false_eq_true, if_false, if_neg (Nat.not_lt.2 hn)]
  exact updatesFlume_setFlume s fl f
end FlumeUpdates

end Sys2Proof.Machine
end

section
/-!
Memory rules: FCFG (R182): the fields of a record that lies in memory, and what the word does once its operand stands.
-/
namespace Sys2Proof.Machine

/-- A run of the bytes read is the bytes read from its place on. -/
theorem Memory.take_drop_readBytes (m : List Host.Cell) (a : Nat) {i j n : Nat} (h : i + j ≤ n) :
    ((Memory.readBytes m a n).drop i).take j = Memory.readBytes m (a + i) j := by
  induction n generalizing a i j with
  | zero =>
    obtain ⟨rfl, rfl⟩ : i = 0 ∧ j = 0 := by omega
    rfl
  | succ n ih =>
    cases i with
    | succ i =>
      rw [Memory.readBytes, List.drop_succ_cons, ih (a + 1) (by omega), Nat.add_assoc, Nat.add_comm 1 i]
    | zero =>
      cases j with
      | zero => rfl
      | succ j => exact congrArg (Memory.read m a :: ·) (ih (a + 1) (i := 0) (by omega))

/-- R2: a field of a record that lies in memory. -/
theorem leAt_readBytes (s : State) (a : Nat) {i j n : Nat} (h : i + j ≤ n) :
    leAt (Memory.readBytes s.mem a n) i j = bytesAt s (a + i) j :=
  congrArg leValue (Memory.take_drop_readBytes s.mem a h)

/-- R149: an operand that lies whole in the open scratchpad and is aligned. -/
theorem State.ownOperand_of_spad (s : State) {va : Word} {n align off : Nat} (k : Nat → State)
    (hspace : classify va = .spad off) (hopen : off + n ≤ 0xF8000) (halign : va.toNat % align = 0) :
    s.ownOperand va n align k = k (spadKey s.here off) := by
  simp only [State.ownOperand, ownRange, hspace, if_pos hopen, halign, ne_eq, not_true_eq_false, if_false]

/-- R182: a record in memory whose fields are all good. -/
theorem fcfgBad_readBytes (s : State) {a : Nat} (hbase : bytesAt s a 4 % 64 = 0 ∧ bytesAt s a 4 < 2^20)
    (hk : bytesAt s (a + 4) 1 ≤ 12) (hsize : bytesAt s (a + 6) 2 % 8 = 0 ∧ 0 < bytesAt s (a + 6) 2)
    (hzero : bytesAt s (a + 8) 8 = 0) : fcfgBad (Memory.readBytes s.mem a 16) = none := by
  simp only [fcfgBad, leAt_readBytes s a, Nat.reduceAdd, Nat.reduceLeDiff, Nat.add_zero]
  rw [if_neg (by omega), if_neg (by omega), if_neg (by omega), if_neg (by omega)]

/-- R182: a record in memory whose slots end in the open scratchpad is installed. -/
theorem updatesFlume_configure (s : State) (fl : BitVec 4) {a : Nat}
    (hend : bytesAt s a 4 + 2^bytesAt s (a + 4) 1 * bytesAt s (a + 6) 2 ≤ 0xF8000) :
    UpdatesFlume s (s.configure fl (Memory.readBytes s.mem a 16)) fl
      ⟨bytesAt s a 4, bytesAt s (a + 4) 1, bytesAt s (a + 6) 2, 0, 0, 0, true, s.me.launch⟩ := by
  simp only [State.configure, leAt_readBytes s a, Nat.reduceAdd, Nat.reduceLeDiff, Nat.add_zero, if_neg (Nat.not_lt.2 hend)]
  exact updatesFlume_setFlume s fl _

/-- R182: no stream register is bound to the flume and no command of the MXU uses it. -/
theorem Core.not_used_of_free {k : Core} {n : Nat} (hbound : k.bound n = false)
    (hfree : ∀ q ∈ k.mxqueue, q.uses n = false) : (k.bound n || k.mxqueue.any (fun q => q.uses n)) = false :=
  Bool.or_eq_false_iff.2 ⟨hbound, List.any_eq_false.2 fun q hq => Bool.not_eq_true _ ▸ hfree q hq⟩

section Fcfg
variable {s : State} {ra : Reg} {fl : BitVec 4} {off : Nat}
variable (hspace : classify (s.x ra) = .spad off) (hopen : off + 16 ≤ 0xF8000) (halign : (s.x ra).toNat % 8 = 0)
variable (hclean : s.poisonedFor s.cur (spadKey s.here off) 16 = false)
include hspace hopen halign hclean

theorem takesTrap_fcfg_of_used (hinh : s.me.inh = false)
    (hused : (s.coreAt s.here).bound fl.toNat = true ∨ ∃ q ∈ (s.coreAt s.here).mxqueue, q.uses fl.toNat = true) :
    ∃ t, exec (.fcfg ra fl) s = .next t ∧ TakesTrap s t ⟨.flume, fl.setWidth 64, s.x ra, 0, 0xFF⟩ := by
  refine ⟨_, congrArg Host.Outcome.next (State.ownOperand_of_spad s _ hspace hopen halign), ?_⟩
  simp only [hclean, Bool.false_eq_true, if_false, Bool.or_eq_true, List.any_eq_true, if_pos hused]
  exact takesTrap_fault s _ _ hinh rfl

variable (hbound : (s.coreAt s.here).bound fl.toNat = false)
variable (hfree : ∀ q ∈ (s.coreAt s.here).mxqueue, q.uses fl.toNat = false)
include hbound hfree

theorem waits_fcfg (hbusy : s.overlapBusy s.cur (spadKey s.here off) 16 = true) :
    ∃ t, exec (.fcfg ra fl) s = .next t ∧ Waits s t (.overlap (spadKey s.here off) 16) := by
  refine ⟨_, congrArg Host.Outcome.next (State.ownOperand_of_spad s _ hspace hopen halign), ?_⟩
  simp only [hclean, Core.not_used_of_free hbound hfree, hbusy, Bool.false_eq_true, if_false, if_true]
  exact waits_wait s _

/-- R182: a record without a bad field, which nothing of the thread overlaps, goes to `configure`. -/
theorem exec_fcfg_of_good (hidle : s.overlapBusy s.cur (spadKey s.here off) 16 = false)
    (hgood : fcfgBad (Memory.readBytes s.mem (spadKey s.here off) 16) = none) :
    exec (.fcfg ra fl) s = .next (s.configure fl (Memory.readBytes s.mem (spadKey s.here off) 16)) := by
  refine congrArg Host.Outcome.next ((State.ownOperand_of_spad s _ hspace hopen halign).trans ?_)
  simp only [hclean, Core.not_used_of_free hbound hfree, hidle, hgood, Bool.false_eq_true, if_false]
end Fcfg

end Sys2Proof.Machine
end

section
/-!
Memory rules: the flume words.
-/
namespace Sys2Proof
open Sys2Proof.Machine

/-- Settles O32: FRD, then the waits, the updates, the traps and FCFG, each through the operation that its words share. -/
theorem flumes : Obligations.Flumes := by
  unfold Obligations.Flumes
  rintro s rd ra fl _ _ rfl rfl
  refine ⟨⟨_, rfl, writesReg_setX s rd _⟩, fun hwoke => ⟨_, rfl, nothing_flumeWait_of_woke hwoke⟩,
    fun hwoke => ⟨_, rfl, nothing_flumeWait_of_woke hwoke⟩, fun hconf => ⟨?_, ?_, ?_, ?_, ?fprod, ?fcons⟩, ?_, ?_, ?traps, ?fcfg⟩
  · exact fun hk hn => ⟨_, rfl, nothing_flumeWait_of_enough hconf hk hn⟩
  · exact fun hk hn hwoke => ⟨_, rfl, waits_flumeWait_of_few hwoke hconf hk hn⟩
  · exact fun hk hn => ⟨_, rfl, nothing_flumeWait_of_enough hconf hk hn⟩
  · exact fun hk hn hwoke => ⟨_, rfl, waits_flumeWait_of_few hwoke hconf hk hn⟩
  case fprod => exact fun hrel hn => ⟨_, exec_fprod s ra fl, updatesFlume_flumeUpdate hconf (congrArg not hrel) hn⟩
  case fcons => exact fun hbusy hn => ⟨_, exec_fcons s ra fl, updatesFlume_flumeUpdate hconf hbusy hn⟩
  · exact fun hconf hrel => ⟨_, exec_fprod s ra fl, waits_flumeUpdate hconf (congrArg not hrel)⟩
  · exact fun hconf hbusy => ⟨_, exec_fcons s ra fl, waits_flumeUpdate hconf hbusy⟩
  case traps =>
    intro hinh hwoke
    simp only [List.forall_mem_cons, List.not_mem_nil, false_implies, implies_true, and_true]
    refine ⟨fun hconf => ⟨?_, ?_, ?_, ?_⟩, fun hconf hk => ⟨?_, ?_⟩, fun hconf hrel hn => ?_, fun hconf hbusy hn => ?_⟩
    · exact ⟨_, rfl, takesTrap_flumeWait_of_unconfigured hinh hwoke hconf⟩
    · exact ⟨_, rfl, takesTrap_flumeWait_of_unconfigured hinh hwoke hconf⟩
    · exact ⟨_, exec_fprod s ra fl, takesTrap_flumeUpdate_of_unconfigured hinh hconf⟩
    · exact ⟨_, exec_fcons s ra fl, takesTrap_flumeUpdate_of_unconfigured hinh hconf⟩
    · exact ⟨_, rfl, takesTrap_flumeWait_of_above hinh hwoke hconf hk⟩
    · exact ⟨_, rfl, takesTrap_flumeWait_of_above hinh hwoke hconf hk⟩
    · exact ⟨_, exec_fprod s ra fl, takesTrap_flumeUpdate_of_above hinh hconf (congrArg not hrel) hn⟩
    · exact ⟨_, exec_fcons s ra fl, takesTrap_flumeUpdate_of_above hinh hconf hbusy hn⟩
  case fcfg =>
    rintro off _ hspace hopen halign rfl hclean
    refine ⟨fun hused hinh => takesTrap_fcfg_of_used hspace hopen halign hclean hinh hused,
      fun hbound hfree => ⟨waits_fcfg hspace hopen halign hclean hbound hfree, ?_⟩⟩
    rintro hidle _ _ _ rfl rfl rfl hbase hk hsize hpos hzero hend
    have hgood := fcfgBad_readBytes s ⟨hbase, by omega⟩ hk ⟨hsize, hpos⟩ hzero
    obtain ⟨hcore, hset, hothers, -⟩ := updatesFlume_configure s fl hend
    exact ⟨_, exec_fcfg_of_good hspace hopen halign hclean hbound hfree hidle hgood, hcore, hset, hothers⟩

end Sys2Proof
end

section
/-!
Fault rules: the walk of the first stage. The leaf that a walk reaches does not depend on the kind of access (R331, R332), its
permissions do (R333), and what it gives past them is one place, or a later cause of R337.
-/
namespace Sys2Proof.Machine

/-- A field of one bit is that bit. -/
@[simp] theorem field_one_beq_one (v i : Nat) : (field v i 1 == 1) = v.testBit i := by
  rw [Nat.testBit_eq_decide_div_mod_eq, field, Nat.pow_one]
  rfl

/-- R333: the table of leaf permissions, in the bits of the entry (R332). -/
theorem permitted_eq (k : Access) (sup : Bool) (e : Nat) :
    permitted k sup e = ((match k with
      | .fetch => e.testBit 4
      | .load | .getr => e.testBit 2
      | .store | .putr => e.testBit 3
      | .atomic => e.testBit 2 && e.testBit 3) && (sup || e.testBit 5)) := by
  cases k <;> simp only [permitted, field_one_beq_one]

/-- What R337 leaves to a walk whose leaf permits the access: a cause other than PAGE1, or w. -/
def PassesLeaf (r : Except Trap Walked) (w : Walked) : Prop :=
  (∃ c, r = .error c ∧ c.cause ≠ .page1) ∨ r = .ok w

/-- One more check, of a cause other than PAGE1, before the rest of the walk. -/
theorem PassesLeaf.check {P : Prop} [Decidable P] {c : Trap} {r : Except Trap Walked} {w : Walked}
    (hc : c.cause ≠ .page1) (hr : PassesLeaf r w) : PassesLeaf (if P then .error c else r) w := by
  by_cases hP : P
  · exact .inl ⟨c, if_pos hP, hc⟩
  · rwa [if_neg hP]

section Walk
variable {s : State} {p window : Nat} {va : Word} {k : Access} {sup : Bool}

/-- R337: a table entry that one kind of access reads is read by every kind: the kind is only reported. -/
theorem State.tableEntry_eq_ok_of_kind {level table index : Nat} {r : Nat × Nat}
    (h : s.tableEntry p va k level table index = .ok r) (k' : Access) : s.tableEntry p va k' level table index = .ok r := by
  simp only [State.tableEntry] at h ⊢
  split at h
  next => cases h
  next hvalid =>
    split at h
    next => cases h
    next hframe =>
      split at h
      next => cases h
      next hclean =>
        split at h
        next hok => rw [if_neg hvalid, if_neg hframe, if_neg hclean, if_pos hok, h]
        next => cases h

/-- R331: the leaf that one kind of access reaches is reached by every kind. -/
theorem State.leafOf_eq_ok_of_kind {r : Nat × Nat × Bool} (h : s.leafOf p va k = .ok r) (k' : Access) :
    s.leafOf p va k' = .ok r := by
  simp only [State.leafOf] at h ⊢
  split at h
  next => cases h
  next htop =>
    rw [State.tableEntry_eq_ok_of_kind htop k']
    split at h
    next => cases h
    next hmiddle =>
      simp only [State.tableEntry_eq_ok_of_kind hmiddle k']
      split at h
      next hbig => rw [if_pos hbig, h]
      next hbig =>
        rw [if_neg hbig]
        split at h
        next => cases h
        next hbottom => rw [State.tableEntry_eq_ok_of_kind hbottom k', ← h]

/-- R331, R335: the host address that the second stage gives the GPA of a home address through the leaf entry e. -/
def State.leafTarget (s : State) (p : Nat) (va : Word) (e : Nat) (big : Bool) : Nat :=
  let gd := if big then field e 29 11 * 2^29 + va.toNat % 2^29 else field e 16 24 * 2^16 + va.toNat % 2^16
  s2address (Sparse.get (s.part p).s2 (gd / 2^21) 0).toNat gd

section Leaf
variable {leaf e : Nat} {big : Bool}

theorem State.walk_of_leafOf (h : s.leafOf p va k = .ok (leaf, e, big)) :
    s.walk p va k sup window = s.finishWalk p va k sup window leaf e big := by
  simp only [State.walk, h]

/-- R333: an access that its leaf does not permit. -/
theorem State.finishWalk_of_not_permitted (h : permitted k sup e = false) :
    s.finishWalk p va k sup window leaf e big = .error ⟨.page1, va, 0, k.sub, 0xFF⟩ :=
  if_pos (Bool.not_eq_true _ ▸ h)

/-- R337: an access that its leaf permits meets PAGE2, ACCESS or SPORE, or reaches the leaf's target. -/
theorem State.finishWalk_of_permitted (h : permitted k sup e = true) :
    PassesLeaf (s.finishWalk p va k sup window leaf e big) ⟨s.leafTarget p va e big, leaf, big, word e⟩ := by
  rw [State.finishWalk, if_neg (not_not_intro h)]
  have hpage2 : Cause.page2 ≠ .page1 := nofun
  have haccess : Cause.access ≠ .page1 := nofun
  have hspore : Cause.spore ≠ .page1 := nofun
  exact .check hpage2 (.check haccess (.check hspore (.inr rfl)))
end Leaf
end Walk

end Sys2Proof.Machine
end

section
/-!
Fault rules: the permissions of a leaf.
-/
namespace Sys2Proof
open Sys2Proof.Machine

/-- Settles O17: every kind of access reaches the leaf, and its permissions decide how the walk ends. -/
theorem leafPermissions : Obligations.LeafPermissions := by
  unfold Obligations.LeafPermissions
  intro s p window va leaf e big hleaf
  refine ⟨s.leafTarget p va e big, fun k sup ok hok => ?_⟩
  have hperm : permitted k sup e = ok := (permitted_eq k sup e).trans hok.symm
  rw [State.walk_of_leafOf (State.leafOf_eq_ok_of_kind hleaf k)]
  exact ⟨fun h => State.finishWalk_of_not_permitted (hperm.trans h),
    fun h => State.finishWalk_of_permitted (hperm.trans h)⟩

end Sys2Proof
end
